-- ==== Sys2Proof/Word.lean ====
section
/-! DEFINITION. The words of the Glachon 420: 16-bit memory words, 32-bit values, 22-bit word addresses (section 6.1 of the introduction). -/

namespace Sys2Proof

/-- A memory word (section 6.1). -/
abbrev Word := BitVec 16

/-- A 32-bit value held in two words: a consignment id, a sequence number, a chain value (R210). -/
abbrev DWord := BitVec 32

/-- A word address on UA or DA (section 4 and section 6.1). -/
abbrev Addr := BitVec 22

/-- The blank pattern (section 6.1). -/
def blank : Word := 0xFFFF

/-- The largest 32-bit count, at which totals saturate and the route clock stops (R89, R94). -/
def max32 : Nat := 4294967295

end Sys2Proof
end

