-- ==== Sys2Proof/Syntax.lean ====
section
/-! DEFINITION. The commands the part takes: one constructor per row of spec/opcode_table.json.
The operand `a` of a row of R57 is its command address; its other operands are the parameter words in order. `dock` is
the level of the DOCK pin at the event (log 4), `lines` the levels of CON0..15 (bits 0 to 15) and SEAL0..7 (bits 16 to 23). -/

namespace Sys2Proof

/-- How far the downstream burst in progress had gone when RESET or a supply failure stopped it (R198, R199; log 10). -/
inductive Cut where
  /-- no burst of a writing requester was in progress -/
  | clean
  /-- a burst of requester 2 had written its first `n` words -/
  | recordStore (n : Nat)
  /-- a burst of the running blanking or FORMAT had written its first `n` words -/
  | longOperation (n : Nat)
  /-- the mount had made the first `n` of its own word writes -/
  | mount (n : Nat)
deriving DecidableEq, Repr

inductive Instr where
  /-- UPSTREAM_WRITE, R30 -/
  | upstreamWrite (a : Addr) (d : Word) (dock : Bool)
  /-- UPSTREAM_READ, R45 -/
  | upstreamRead (a : Addr)
  /-- REPORT, R63 -/
  | report (a : Addr)
  /-- ACKNOWLEDGE, R67 -/
  | acknowledge (a : Addr) (causes : Word)
  /-- IDENTITY, R65 -/
  | identity (a : Addr)
  /-- WHERE, R66 -/
  | whereIs (a : Addr) (stream : Word)
  /-- CLOCK_SET, R91; six words, a protected 32-bit value -/
  | clockSet (a : Addr) (p1 p2 p3 p4 p5 p6 : Word)
  /-- ROUTE_LOAD, R83; three words, a protected route number -/
  | routeLoad (a : Addr) (p1 p2 p3 : Word)
  /-- ROUTE_LOAD_READ_BURST, R83 -/
  | routeLoadReadBurst
  /-- ROUTE_END, R86 -/
  | routeEnd (a : Addr)
  /-- ROUTE_END_RECORD_JOIN, R86 -/
  | routeEndRecordJoin
  /-- RESCAN, R131 -/
  | rescan (a : Addr) (slot : Word)
  /-- AUDIT, R132 -/
  | audit (a : Addr)
  /-- CLAIM_OPEN, R163; the consignment id, low word first -/
  | claimOpen (a : Addr) (idLo idHi : Word)
  /-- CLAIM_READ, R176 -/
  | claimRead (a : Addr) (index : Word)
  /-- CLAIM_CLOSE, R177 -/
  | claimClose (a : Addr) (index : Word)
  /-- PROGRESS, R77 -/
  | progress (a : Addr)
  /-- SUSPEND, R74 -/
  | suspend (a : Addr)
  /-- RESUME, R75 -/
  | resume (a : Addr)
  /-- TERMINATE, R76 -/
  | terminate (a : Addr)
  /-- SERVICE_ENTER, R64; three words, the protected service word -/
  | serviceEnter (a : Addr) (p1 p2 p3 : Word) (dock : Bool)
  /-- SERVICE_ENTER_READ_END, R64 -/
  | serviceEnterReadEnd (dock : Bool)
  /-- SERVICE_LEAVE, R62 -/
  | serviceLeave (a : Addr)
  /-- RETIRE, R180 -/
  | retire (a : Addr) (segment : Word)
  /-- FORMAT, R193; three words, the protected store size code -/
  | format (a : Addr) (p1 p2 p3 : Word) (dock : Bool)
  /-- FORMAT_BURST, R193 -/
  | formatBurst
  /-- DIRECT_WRITE_COMPLETE, R22 -/
  | directWriteComplete
  /-- CONDITION_REWRITE, R11 -/
  | conditionRewrite
  /-- RECORD_WRITER_SERVE, R26 -/
  | recordWriterServe
  /-- RECORD_WRITER_WRITE_COMPLETE, R26 -/
  | recordWriterWriteComplete
  /-- WITHHELD_SUMMARY, R113 -/
  | withheldSummary
  /-- RESTART_RECORDS_JOIN, R201 -/
  | restartRecordsJoin
  /-- OUTAGE_RECORD_JOIN, R93 -/
  | outageRecordJoin
  /-- GAP_TIMER_EXPIRY of a compartment, R107 -/
  | gapTimerExpiry (compartment : Nat)
  /-- CONTINUOUS_EXCURSION_DEADLINE of a consignment table entry, R108 -/
  | continuousExcursionDeadline (index : Nat)
  /-- SCAN_VISIT, R121 -/
  | scanVisit (lines : BitVec 24)
  /-- LINE_WATCH_SAMPLE, R128 -/
  | lineWatchSample (lines : BitVec 24)
  /-- DWELL, R126 -/
  | dwell
  /-- COLLECTION_WINDOW_EXPIRY, R181 -/
  | collectionWindowExpiry
  /-- BLANKING_MARK, R182 -/
  | blankingMark
  /-- BLANKING_BURST, R182 -/
  | blankingBurst
  /-- VERIFY_START, R164 -/
  | verifyStart
  /-- VERIFY_BURST, R165 -/
  | verifyBurst
  /-- EXTRACT_RECORD_ADD, R174 -/
  | extractRecordAdd
  /-- SCRUB_STEP_DUE, R188 -/
  | scrubStepDue
  /-- SCRUB_BURST, R190 -/
  | scrubBurst
  /-- DOCK_FALL, R61 -/
  | dockFall
  /-- RESET_ASSERT, R199 -/
  | resetAssert (cut : Cut)
  /-- RESET, the release of RESET, R200 -/
  | reset (dock : Bool)
  /-- SUPPLY_FAIL, R198 -/
  | supplyFail (cut : Cut)
  /-- WARM_RESTART, R201 -/
  | warmRestart (dock : Bool)
  /-- COLD_RESTART, R203; `checkFails` says that the retention check does not match (R197) -/
  | coldRestart (checkFails : Bool)
  /-- MOUNT_END, R209 -/
  | mountEnd
  /-- ROUTE_CLOCK_ADVANCE, R124 -/
  | routeClockAdvance
  /-- BACKUP_DOMAIN_LOSS, R197 -/
  | backupDomainLoss
deriving DecidableEq, Repr

end Sys2Proof
end

