-- ==== Sys2Proof/Decode.lean ====
section
/-! DEFINITION. The command a word spells. The part has no instruction encoding and spec/opcode_table.json gives no row
any bits, so no word spells a command. (Software's own coding of commands, the key sequence of R50, is recognised by the
command recogniser, in Machine/Upstream.lean.) -/

namespace Sys2Proof

def decodeTableWord (_nbits _w : Nat) : Option Instr := none

end Sys2Proof
end

