-- ==== Sys2Proof/Config.lean ====
section
/-! DEFINITION. What one device fixes, and the values the spec leaves open. An opaque constant has no value in the model: a theorem about it holds for every value. -/

namespace Sys2Proof

/-- The family code (R211). -/
def Config.familyCode : Word := 0x1A20

/-- The revision (R211). -/
def Config.revision : Word := 0x0002

/-- This device's 64-bit unique number (R65, R192). The spec gives no value: log 35. -/
opaque Config.uniqueNumber : BitVec 64

/-- FREE VALUE. The words of the retention RAM over which the retention check is taken at the k-th supply failure
(R197). The spec lays out no retention RAM: log 11. -/
opaque Config.retentionImage : Nat → List Word

end Sys2Proof
end

