-- ==== Sys2Proof/Machine/State.lean ====
section
/-! DEFINITION. Everything the spec gives the part to hold (R94, R118, R119, R139, R162, R197 and the other chapters), as
plain data, with the reset state. Times are route-clock seconds as natural numbers; temperatures are integers in tenths of
a degree; the registers the spec numbers as words, and values it compares or wraps as words, are bit vectors. -/

namespace Sys2Proof.Machine

/-! ## Codes that several blocks use -/

/-- The four streams (R6). -/
inductive Stream where
  | sample | event | delivery | claim
deriving DecidableEq, Repr

/-- The device mode (R59). -/
inductive Mode where
  | unformatted | foreign | guarded | service
deriving DecidableEq, Repr

/-- The record kinds (R212). -/
inductive Kind where
  | sample | load | delivery | unload | header | void | routeStart | routeEnd | doorChange | doorStatus | dwell
  | sealChange | excursionStart | excursionEnd | gapStart | gapEnd | alert | outage | restart | fault | loadAck | proof
  | extractSummary | extractProof
deriving DecidableEq, Repr

/-- The record memory: pairs of a word address and its word, addresses rising, none equal to the blank pattern (log 6). -/
abbrev Memory := List (Nat × Word)

/-! ## The record store (chapter 1) -/

/-- Segment states (R9); `opened` is OPEN. -/
inductive SegState where
  | blank | opened | closed | faulted | retiring | scrap
deriving DecidableEq, Repr

/-- The condition rewrite a segment owes (R8, R11). -/
inductive Owed where
  | none | closed | faulted
deriving DecidableEq, Repr

/-- One entry of the segment table (R8). -/
structure SegEntry where
  state : SegState
  stream : Option Stream
  segSeq : Option (BitVec 16)
  openTime : Option Nat
  closeTime : Option Nat
  firstRec : Option DWord
  count : Option Nat
  entryChain : Option DWord
  exitChain : Option DWord
  holds : Nat
  owed : Owed
deriving DecidableEq, Repr

/-- One entry of the stream table (R19). -/
structure StreamEntry where
  openSeg : Option Nat
  append : Option Nat
  nextRec : DWord
  nextSeq : BitVec 16
  running : DWord
  /-- The reserved slot: its segment and slot; the DELIVERY entry only (R19, R20). -/
  reserved : Option (Nat × Nat)
  stalled : Bool
deriving DecidableEq, Repr

structure Streams where
  sample : StreamEntry
  event : StreamEntry
  delivery : StreamEntry
  claim : StreamEntry
deriving DecidableEq, Repr

inductive DirectKind where
  | header | answer | void
deriving DecidableEq, Repr

/-- An entry of the direct write list (R22). -/
structure DirectEntry where
  kind : DirectKind
  seg : Nat
  slot : Nat
  words : List Word
deriving DecidableEq, Repr

/-- The record store manager's state (R1, R8, R15, R19, R22) and the mounted or foreign label's size code, format time
and chain seed (R65, R192). -/
structure Store where
  nSeg : Nat
  sizeCode : Nat
  formatTime : Option Nat
  seed : DWord
  segs : List SegEntry
  pool : List Nat
  streams : Streams
  direct : List DirectEntry
deriving DecidableEq, Repr

/-- What the head entry of the record writer queue has taken (R26). -/
structure Taken where
  seg : Nat
  slot : Nat
  seq : DWord
  words : List Word
deriving DecidableEq, Repr

/-- An entry of the record writer queue (R25). -/
structure QueueEntry where
  stream : Stream
  kind : Kind
  body : List Word
  taken : Option Taken
deriving DecidableEq, Repr

/-! ## Upstream path, assembly, arbiter (chapter 2) -/

/-- What the upstream port has still to do for the accesses that wait (R29, R30, R47). -/
inductive Work where
  /-- a processor write that has arrived -/
  | write (a : Addr) (d : Word) (dock : Bool)
  /-- the same write processed from gate state IDLE, its presentation rule already applied (R51 to R53) -/
  | gate (a : Addr) (d : Word) (dock : Bool)
  /-- a processor read that has arrived -/
  | read (a : Addr)
  /-- a write handed on to the policer, which holds it back while it would break a record and a VOID is pending (R22, R30); a
  released K1 carries the device mode at its release (R51) -/
  | police (a : Addr) (d : Word) (released : Option Mode)
  /-- a write that the policer has taken at route clock `t`: its break, if it is one, and its placement (R32, R39, R42) -/
  | place (a : Addr) (d : Word) (t : Nat) (released : Option Mode)
  /-- a read to be handled under the device mode (R31, R45) -/
  | modeRead (a : Addr)
deriving DecidableEq, Repr

structure Port where
  waiting : List Work
  readData : Option Word
deriving DecidableEq, Repr

/-- The burst that holds the memory port (R46). Requester 2's record writer burst carries its address and words. -/
inductive Burst where
  | record (base : Nat) (words : List Word)
  | longOperation
  | sheetRead
  | fieldRead
  | scrub
deriving DecidableEq, Repr

structure Arbiter where
  burst : Option Burst
  fairness : Nat
  /-- Requester 3's last grant was to a ROUTE LOAD or SERVICE ENTER read (R46: granted alternately). -/
  lastWasRead : Bool
deriving DecidableEq, Repr

/-- The assembly context (R37). -/
structure Assembly where
  seg : Nat
  slot : Nat
  stream : Stream
  kind : Kind
  next : Nat
  words : List Word
  receipt : Option Nat
  chain : Option DWord
  promise : Bool
deriving DecidableEq, Repr

/-- Refusal causes (R36). -/
inductive RefusalCause where
  | foreignStore | label | routeLocked | outOfStore | retiring | committed | storeFull | notAppendSlot | badHeader
  | wrongStream | noRoomForAnswer
deriving DecidableEq, Repr

structure RefusalLog where
  first : Option (Addr × RefusalCause)
  count : Nat
deriving DecidableEq, Repr

/-! ## Command channel (chapter 3) -/

/-- The twenty commands (R57, R213). -/
inductive Command where
  | report | acknowledge | identity | whereIs | clockSet | routeLoad | routeEnd | rescan | audit | claimOpen | claimRead
  | claimClose | progress | suspend | resume | terminate | serviceEnter | serviceLeave | retire | format
deriving DecidableEq, Repr

/-- The gate state (R50). KEYED(A) holds the write of K1 to A; PARAMETERS(A) the words collected so far. -/
inductive Gate where
  | idle
  | keyed (a : Addr)
  | gated (a : Addr)
  | parameters (a : Addr) (c : Command) (got : List Word)
deriving DecidableEq, Repr

/-- Command outcomes (R213). -/
inductive CmdOutcome where
  | ok | busy | refusedMode | routeState | protectMismatch | notDocked | badParameter | tableFull | held | notRetirable
  | already | batchFull | noOperation | clockInvalid | unknownCommand | abandoned | storeFull
deriving DecidableEq, Repr

inductive CmdState where
  | running | done | refused
deriving DecidableEq, Repr

/-- The current-command record (R55). -/
structure CurrentCommand where
  echo : Word
  params : List Word
  state : CmdState
  outcome : CmdOutcome
  results : List Word
  toggle : Bool
  addr : Option Addr
  readPos : Nat
deriving DecidableEq, Repr

/-- What a RUNNING command waits for (R54, R64, R66, R74, R76, R83, R177). -/
inductive RunningWork where
  | whereIs (st : Stream)
  | routeLoad
  | serviceEnter (value : Word)
  | suspend
  | terminate
  | claimClose (index : Nat)
deriving DecidableEq, Repr

structure Running where
  work : RunningWork
  /-- It is still the command presented (R55). -/
  presented : Bool
deriving DecidableEq, Repr

structure Channel where
  gate : Gate
  current : Option CurrentCommand
  running : Option Running
  protectErrors : Nat
deriving DecidableEq, Repr

/-! ## Route and clock (chapter 4) -/

inductive RouteState where
  | idle | loaded | halted
deriving DecidableEq, Repr

/-- A class table entry as its nine words (R80, R211). -/
structure ClassEntry where
  code : Word
  hold : Word
  soft : Word
  melt : Word
  budget : Word
  maxExcursion : Word
  dwell : Word
  refreeze : Word
  gap : Word
deriving DecidableEq, Repr

/-- A compartment map entry as its five words (R81, R211). -/
structure CompEntry where
  enabled : Word
  cls : Word
  probe : Word
  contacts : Word
  seals : Word
deriving DecidableEq, Repr

/-- A route sheet (R79 to R81). -/
structure Sheet where
  routeNumber : Word
  retentionDays : Word
  scrubHours : Word
  serviceWord : Word
  skew : Word
  scanMode : Word
  classes : List ClassEntry
  comps : List CompEntry
deriving DecidableEq, Repr

/-- The held route fields (R88). -/
structure Held where
  retentionDays : Word
  scrubHours : Word
  serviceWord : Word
deriving DecidableEq, Repr

/-- A ROUTE LOAD read in progress (R78, R83). -/
structure LoadRead where
  routeNumber : Word
  words : List Word
  check : DWord
  disturbed : Bool
deriving DecidableEq, Repr

structure Route where
  state : RouteState
  sheet : Option Sheet
  held : Option Held
  check : Option DWord
  start : Option Nat
  /-- The route close is PENDING (R86, R87). -/
  closePending : Bool
  /-- The stream whose closing waits for the record under assembly (R24). -/
  closeWait : Option Stream
  load : Option LoadRead
  /-- A prepared ROUTE_END record that waits to join the queue (R86). -/
  endRecord : Option (List Word)
  /-- A prepared OUTAGE record of a CLOCK SET out of HALTED (R93). -/
  outageRecord : Option (List Word)
deriving DecidableEq, Repr

structure Clock where
  now : Nat
  valid : Bool
  floor : Nat
  mark : Option Nat
deriving DecidableEq, Repr

/-! ## Exposure (chapter 5) -/

inductive Thermal where
  | idle | inSpec | excursion
deriving DecidableEq, Repr

/-- A compartment context (R94). -/
structure Ctx where
  thermal : Thermal
  gap : Bool
  gapMark : Option Nat
  doorOpen : Bool
  intervalStart : Option Nat
  lastTime : Option Nat
  lastReading : Option Int
  episodeStart : Option Nat
  episodePeak : Option Int
  gapExpiry : Option Nat
  excursionSecs : Nat
  excess : Nat
  doorExcess : Nat
  gapSecs : Nat
  episodes : Nat
  doorSecs : Nat
  withheld : Nat
  summaryOwed : Bool
  invalid : Nat
  skewed : Nat
deriving DecidableEq, Repr

/-! ## Scanner (chapter 6) -/

inductive RunState where
  | stopped | running | frozen
deriving DecidableEq, Repr

inductive AuditState where
  | none | waiting | inProgress
deriving DecidableEq, Repr

/-- A contact table slot (R118); `accepted` is true for OPEN or BROKEN. -/
structure Slot where
  accepted : Bool
  agree : Nat
  changedAt : Option Nat
  openings : Nat
  openSecs : Nat
  dwellReported : Bool
  watch : Option Nat
deriving DecidableEq, Repr

/-- The scanner's state (R119). `extended` is scan mode EXTENDED. -/
structure Scanner where
  run : RunState
  extended : Bool
  position : Nat
  rescan : Option Nat
  audit : AuditState
  owed : Option (List Word)
  /-- The first slot the dwell test of the last clock advance has still to test (R125, R126). -/
  dwellTest : Option Nat
  slots : List Slot
deriving DecidableEq, Repr

/-! ## Consignments (chapter 7) -/

/-- Excursion seconds, excess, door-attributed excess, gap seconds (R139, R151). -/
structure Figures where
  excursion : Nat
  excess : Nat
  door : Nat
  gap : Nat
deriving DecidableEq, Repr

/-- The nine flags (R139, R214). -/
structure Flags where
  softCrossed : Bool
  condemned : Bool
  breached : Bool
  sealBroken : Bool
  gapSeen : Bool
  eventsWithheld : Bool
  evidenceFault : Bool
  evidenceReset : Bool
  handoverWarm : Bool
deriving DecidableEq, Repr

inductive ConsState where
  | loaded | done | returned
deriving DecidableEq, Repr

/-- A consignment table entry in use (R139). -/
structure Consignment where
  id : DWord
  comp : Nat
  cls : Nat
  loaded : Nat
  remaining : Nat
  loadTime : Nat
  base : Figures
  closing : Option Figures
  worst : Option Int
  flags : Flags
  openings : Nat
  dwells : Nat
  drops : Nat
  state : ConsState
deriving DecidableEq, Repr

/-! ## Claims (chapter 8) -/

inductive ClaimState where
  | closed | queued | verifying | ready
deriving DecidableEq, Repr

inductive Integrity where
  | intact | damaged | incomplete | notFound | aborted
deriving DecidableEq, Repr

/-- A first mismatch (R162). -/
structure Mismatch where
  stream : Stream
  seg : Nat
  slot : Nat
  seq : Option DWord
deriving DecidableEq, Repr

/-- A claim table entry (R162). -/
structure Claim where
  state : ClaimState
  id : Option DWord
  comp : Option Nat
  windowStart : Option Nat
  windowEnd : Option Nat
  held : List Nat
  integrity : Option Integrity
  mismatch : Option Mismatch
  proofs : Option Nat
  samples : Option Nat
  gapMinutes : Option Nat
  retiredRange : Bool
  listTruncated : Bool
  proofsOver : Bool
  laterFault : Bool
deriving DecidableEq, Repr

/-- VERIFY phases (R165, R214). HOLD is made within one event, so no VERIFY rests in it. -/
inductive Phase where
  | locate | hold | check | collect | write
deriving DecidableEq, Repr

/-- The walk and tallies of the LOCATE phase (R166, R167). -/
structure Locate where
  number : BitVec 16
  seg : Nat
  /-- The next slot to read; absent until the segment's first burst fixes it (R166). -/
  slot : Option Nat
  /-- An accepted PROOF whose request has still to be read: receipt time and quantity. -/
  proof : Option (Nat × Nat)
  /-- Receipt time of the newest accepted PROOF, and whether it answered an UNLOAD. -/
  newest : Option (Nat × Bool)
  delivered : Nat
deriving DecidableEq, Repr

/-- A chain check in progress (R171, R190): next slot, limit and exit chain once fixed, running chain. -/
structure ChainCheck where
  seg : Nat
  slot : Nat
  limit : Option Nat
  exit : Option DWord
  chain : DWord
deriving DecidableEq, Repr

/-- A PROOF gathered by the COLLECT phase (R173, R174): record number, receipt time, stop id, word 4. -/
structure ProofFinding where
  seq : DWord
  receipt : Nat
  stop : Word
  word4 : Word
deriving DecidableEq, Repr

/-- The COLLECT phase's position and findings (R173). -/
structure Collect where
  /-- Segments still to read, each with the last slot to read. -/
  todo : List (Nat × Nat)
  slot : Nat
  samples : Nat
  gapSecs : Nat
  /-- GAP_START records counted: record number and gap mark. -/
  starts : List (DWord × Nat)
  /-- Record number of the latest GAP_END of the compartment. -/
  lastEnd : Option DWord
  proofs : List ProofFinding
  more : Bool
deriving DecidableEq, Repr

/-- The verify slot when it is not EMPTY (R73, R162). -/
structure Verify where
  claim : Nat
  suspended : Bool
  phase : Phase
  count : Nat
  locate : Locate
  /-- CHECK: segments still to check, the head being checked. -/
  todo : List Nat
  check : ChainCheck
  /-- CHECK: segments checked, each with the last slot the COLLECT phase may read. -/
  checked : List (Nat × Nat)
  collect : Collect
  /-- WRITE: extract records still to add. -/
  extracts : List (Kind × List Word)
deriving DecidableEq, Repr

/-! ## Retirement, scrub, FORMAT (chapter 9) -/

inductive RetireState where
  | empty | collecting | waiting | blanking | suspended | formatRunning
deriving DecidableEq, Repr

/-- The blanking position (R179). -/
inductive BlankPos where
  | rewrite
  | word (w : Nat)
deriving DecidableEq, Repr

/-- The retire batch (R179). `window` says that the collection window runs; its end is the row COLLECTION_WINDOW_EXPIRY
(log 14). -/
structure Batch where
  segs : List Nat
  current : Option Nat
  pos : BlankPos
  completed : Nat
  window : Bool
deriving DecidableEq, Repr

/-- Where a FORMAT stands (R193): the label burst, a segment with the next word to blank, the label write. -/
inductive FormatStage where
  | label
  | segment (n : Nat) (w : Nat)
  | write
deriving DecidableEq, Repr

structure FormatOp where
  code : Nat
  stage : FormatStage
deriving DecidableEq, Repr

structure RetireSlot where
  state : RetireState
  batch : Option Batch
  fmt : Option FormatOp
deriving DecidableEq, Repr

/-- A scrub step in progress (R187). -/
structure ScrubStep where
  check : ChainCheck
  /-- A long operation has begun to run: the step is abandoned at the end of its burst (R189). -/
  abandoned : Bool
deriving DecidableEq, Repr

structure Scrub where
  pointer : Nat
  due : Option Nat
  owed : Nat
  step : Option ScrubStep
deriving DecidableEq, Repr

/-! ## Supply and restart (chapter 10) -/

inductive Power where
  /-- SUPPLY present, RESET released -/
  | on
  /-- SUPPLY present, RESET asserted -/
  | resetHeld
  /-- SUPPLY absent -/
  | off
deriving DecidableEq, Repr

/-- The owed OUTAGE record (R201, R202). -/
structure OwedOutage where
  fail : Nat
  restart : Nat
  secs : Nat
  merged : Nat
  comps : BitVec 8
  count : Nat
deriving DecidableEq, Repr

/-- The long operation a restart ended (R202, R214). -/
inductive Ended where
  | none | blanking | format
  | verify (claim : Nat)
deriving DecidableEq, Repr

/-- The owed warm RESTART record (R201, R202). -/
structure OwedRestart where
  fail : Nat
  restart : Nat
  merged : Nat
  ended : Ended
  voided : Option (Stream × Nat × Nat)
deriving DecidableEq, Repr

structure Backup where
  supplyFail : Nat
  lost : Bool
  mounting : Bool
  check : DWord
  outage : Option OwedOutage
  restart : Option OwedRestart
deriving DecidableEq, Repr

/-- The last levels given of the input pins (log 4). -/
structure Pins where
  dock : Bool
  lines : BitVec 24
deriving DecidableEq, Repr

/-- Everything on the chip. -/
structure Part where
  power : Power
  pins : Pins
  backup : Backup
  /-- The model's own field: how many free values have been taken (log 11). -/
  freeCount : Nat
  arb : Arbiter
  chan : Channel
  attention : Word
  refusals : RefusalLog
  mode : Mode
  store : Store
  queue : List QueueEntry
  asm : Option Assembly
  route : Route
  clock : Clock
  ctxs : List Ctx
  scan : Scanner
  cons : List (Option Consignment)
  claims : List Claim
  claimQueue : List Nat
  verify : Option Verify
  retire : RetireSlot
  scrub : Scrub
deriving DecidableEq, Repr

structure State where
  /-- The commands that wait, first in first out. -/
  pending : List Instr
  /-- The record memory behind the part. -/
  mem : Memory
  /-- The upstream port: accesses that wait, and UD of the last read (R29). -/
  port : Port
  part : Part
deriving DecidableEq, Repr

/-- Why the block could stop. The spec names no condition that stops the part (refusals and errors are state), so no
command raises a fault and the type has no constructor. -/
inductive Fault where
deriving DecidableEq, Repr

/-- Why a command could be refused by the model. -/
inductive Refusal where
  /-- Raised by the dispatch alone, for a command that has no meaning yet; safe. No arm raises it now. -/
  | notModelled (mnemonic : String)
deriving DecidableEq, Repr

/-! ## The values after a cold restart -/

/-- An entry that is BLANK (R8). -/
def SegEntry.blankEntry : SegEntry :=
  { state := .blank, stream := none, segSeq := none, openTime := none, closeTime := none, firstRec := none, count := none,
    entryChain := none, exitChain := none, holds := 0, owed := .none }

/-- A stream's entry with no segment, its chain at `seed` (R19). -/
def StreamEntry.fresh (seed : DWord) : StreamEntry :=
  { openSeg := none, append := none, nextRec := 1, nextSeq := 1, running := seed, reserved := none, stalled := false }

def Streams.fresh (seed : DWord) : Streams :=
  { sample := .fresh seed, event := .fresh seed, delivery := .fresh seed, claim := .fresh seed }

/-- No store extent, as in UNFORMATTED mode (R1). -/
def Store.absent : Store :=
  { nSeg := 0, sizeCode := 0, formatTime := none, seed := 0, segs := [], pool := [], streams := .fresh 0, direct := [] }

/-- A context after a cold restart (R95). -/
def Ctx.cold : Ctx :=
  { thermal := .idle, gap := false, gapMark := none, doorOpen := false, intervalStart := none, lastTime := none,
    lastReading := none, episodeStart := none, episodePeak := none, gapExpiry := none, excursionSecs := 0, excess := 0,
    doorExcess := 0, gapSecs := 0, episodes := 0, doorSecs := 0, withheld := 0, summaryOwed := false, invalid := 0,
    skewed := 0 }

/-- A contact table slot after a cold restart: CLOSED or INTACT (R138). -/
def Slot.cold : Slot :=
  { accepted := false, agree := 0, changedAt := none, openings := 0, openSecs := 0, dwellReported := false, watch := none }

/-- The scanner after a cold restart (R138). -/
def Scanner.cold : Scanner :=
  { run := .stopped, extended := false, position := 0, rescan := none, audit := .none, owed := none, dwellTest := none,
    slots := List.replicate 24 Slot.cold }

/-- A free claim entry (R162). -/
def Claim.free : Claim :=
  { state := .closed, id := none, comp := none, windowStart := none, windowEnd := none, held := [], integrity := none,
    mismatch := none, proofs := none, samples := none, gapMinutes := none, retiredRange := false, listTruncated := false,
    proofsOver := false, laterFault := false }

/-- The route controller after a cold restart that finds no unfinished route (R78). -/
def Route.cold : Route :=
  { state := .idle, sheet := none, held := none, check := none, start := none, closePending := false, closeWait := none,
    load := none, endRecord := none, outageRecord := none }

/-- The part with every block at its cold-restart values before the mount judges anything (R203): pending set empty, mode
UNFORMATTED, clock 0 and invalid. -/
def Part.cold : Part :=
  { power := .on
    pins := { dock := false, lines := 0 }
    backup := { supplyFail := 0, lost := false, mounting := false, check := 0, outage := none, restart := none }
    freeCount := 0
    arb := { burst := none, fairness := 0, lastWasRead := false }
    chan := { gate := .idle, current := none, running := none, protectErrors := 0 }
    attention := 0
    refusals := { first := none, count := 0 }
    mode := .unformatted
    store := .absent
    queue := []
    asm := none
    route := .cold
    clock := { now := 0, valid := false, floor := 0, mark := none }
    ctxs := List.replicate 8 Ctx.cold
    scan := .cold
    cons := List.replicate 32 none
    claims := List.replicate 8 Claim.free
    claimQueue := []
    verify := none
    retire := { state := .empty, batch := none, fmt := none }
    scrub := { pointer := 1, due := none, owed := 0, step := none } }

/-- The machine after its first power-up: the cold restart of a lost backup domain and the mount of a record memory that
nothing has written have ended, so the mode is UNFORMATTED and RESTART and CLOCK_INVALID are pending (R203, R209; log 5). -/
def State.reset : State :=
  { pending := [], mem := [], port := { waiting := [], readData := none }, part := { Part.cold with attention := 0x6000 } }

end Sys2Proof.Machine
end

