-- ==== Sys2Proof/Machine/Codes.lean ====
section
/-! DEFINITION. The numeric codes of Record and Word Formats (R212 to R214). -/

namespace Sys2Proof.Machine

/-- R50. -/
def keyWord1 : Word := 0x5AC3
/-- R50. -/
def keyWord2 : Word := 0xA53C

/-- Streams (R214). -/
def Stream.code : Stream → Word
  | .sample => 0 | .event => 1 | .delivery => 2 | .claim => 3

def Stream.ofCode (w : Word) : Option Stream :=
  if w = 0 then some .sample else if w = 1 then some .event else if w = 2 then some .delivery
  else if w = 3 then some .claim else none

/-- Device modes (R214). -/
def Mode.code : Mode → Word
  | .unformatted => 0 | .foreign => 1 | .guarded => 2 | .service => 3

/-- Route states (R214). -/
def RouteState.code : RouteState → Word
  | .idle => 0 | .loaded => 1 | .halted => 2

/-- Record kinds (R212). -/
def Kind.code : Kind → Word
  | .sample => 0x01 | .load => 0x02 | .delivery => 0x03 | .unload => 0x04
  | .header => 0x10 | .void => 0x11
  | .routeStart => 0x20 | .routeEnd => 0x21
  | .doorChange => 0x22 | .doorStatus => 0x23 | .dwell => 0x24 | .sealChange => 0x25
  | .excursionStart => 0x26 | .excursionEnd => 0x27 | .gapStart => 0x28 | .gapEnd => 0x29
  | .alert => 0x2A | .outage => 0x2B | .restart => 0x2C | .fault => 0x2D
  | .loadAck => 0x30 | .proof => 0x31
  | .extractSummary => 0x40 | .extractProof => 0x41

def Kind.all : List Kind :=
  [.sample, .load, .delivery, .unload, .header, .void, .routeStart, .routeEnd, .doorChange, .doorStatus, .dwell,
    .sealChange, .excursionStart, .excursionEnd, .gapStart, .gapEnd, .alert, .outage, .restart, .fault, .loadAck, .proof,
    .extractSummary, .extractProof]

/-- The header word of a record: the mark 0xC5 and the kind code (R4). -/
def Kind.headerWord (k : Kind) : Word := 0xC500 ||| k.code

/-- Word 0 of a record is marked (R4). -/
def marked (w : Word) : Bool := w >>> 8 == 0xC5

/-- The kind a marked word 0 carries, if its code is listed (R212). -/
def Kind.ofHeader (w : Word) : Option Kind := Kind.all.find? (fun k => k.headerWord == w)

/-- The kinds of a stream (R6). -/
def Stream.carries : Stream → Kind → Bool
  | _, .header => true
  | _, .void => true
  | .sample, .sample => true
  | .delivery, .load => true
  | .delivery, .delivery => true
  | .delivery, .unload => true
  | .delivery, .loadAck => true
  | .delivery, .proof => true
  | .event, .routeStart => true
  | .event, .routeEnd => true
  | .event, .doorChange => true
  | .event, .doorStatus => true
  | .event, .dwell => true
  | .event, .sealChange => true
  | .event, .excursionStart => true
  | .event, .excursionEnd => true
  | .event, .gapStart => true
  | .event, .gapEnd => true
  | .event, .alert => true
  | .event, .outage => true
  | .event, .restart => true
  | .event, .fault => true
  | .claim, .extractSummary => true
  | .claim, .extractProof => true
  | _, _ => false

/-- The stream a processor-writable kind belongs to (R33, R34); none for every other kind. -/
def Kind.processorStream : Kind → Option Stream
  | .sample => some .sample
  | .load => some .delivery
  | .delivery => some .delivery
  | .unload => some .delivery
  | _ => none

/-- A LOAD, DELIVERY or UNLOAD request (R20). -/
def Kind.isRequest (k : Kind) : Bool := k == .load || k == .delivery || k == .unload

/-- Header conditions (R212). -/
def conditionOpen : Word := 0x0001
def conditionClosed : Word := 0x0002
def conditionFaulted : Word := 0x0003
def conditionRetiring : Word := 0x0004

/-- Refusal causes (R213). -/
def RefusalCause.code : RefusalCause → Word
  | .foreignStore => 1 | .label => 2 | .routeLocked => 3 | .outOfStore => 4 | .retiring => 5 | .committed => 6
  | .storeFull => 7 | .notAppendSlot => 8 | .badHeader => 9 | .wrongStream => 10 | .noRoomForAnswer => 11

/-- Command codes (R213). -/
def Command.code : Command → Word
  | .report => 0x7E01 | .acknowledge => 0x7E02 | .identity => 0x7E03 | .whereIs => 0x7E04 | .clockSet => 0x7E05
  | .routeLoad => 0x7E06 | .routeEnd => 0x7E07 | .rescan => 0x7E08 | .audit => 0x7E09 | .claimOpen => 0x7E0A
  | .claimRead => 0x7E0B | .claimClose => 0x7E0C | .progress => 0x7E0D | .suspend => 0x7E0E | .resume => 0x7E0F
  | .terminate => 0x7E10 | .serviceEnter => 0x7E11 | .serviceLeave => 0x7E12 | .retire => 0x7E13 | .format => 0x7E14

def Command.all : List Command :=
  [.report, .acknowledge, .identity, .whereIs, .clockSet, .routeLoad, .routeEnd, .rescan, .audit, .claimOpen, .claimRead,
    .claimClose, .progress, .suspend, .resume, .terminate, .serviceEnter, .serviceLeave, .retire, .format]

def Command.ofCode (w : Word) : Option Command := Command.all.find? (fun c => c.code == w)

/-- How many parameter words a command takes (R57). -/
def Command.paramCount : Command → Nat
  | .report => 0 | .acknowledge => 1 | .identity => 0 | .whereIs => 1 | .clockSet => 6 | .routeLoad => 3 | .routeEnd => 0
  | .rescan => 1 | .audit => 0 | .claimOpen => 2 | .claimRead => 1 | .claimClose => 1 | .progress => 0 | .suspend => 0
  | .resume => 0 | .terminate => 0 | .serviceEnter => 3 | .serviceLeave => 0 | .retire => 1 | .format => 3

/-- Outcomes (R213). -/
def CmdOutcome.code : CmdOutcome → Word
  | .ok => 0 | .busy => 1 | .refusedMode => 2 | .routeState => 3 | .protectMismatch => 4 | .notDocked => 5
  | .badParameter => 6 | .tableFull => 7 | .held => 8 | .notRetirable => 9 | .already => 10 | .batchFull => 11
  | .noOperation => 12 | .clockInvalid => 13 | .unknownCommand => 14 | .abandoned => 15 | .storeFull => 16

/-- Command states (R213). -/
def CmdState.code : CmdState → Word
  | .running => 0 | .done => 1 | .refused => 2

/-- The status word (R213). -/
def CurrentCommand.statusWord (c : CurrentCommand) : Word :=
  (c.echo &&& 0x00FF) ||| (c.state.code <<< 8) ||| ((if c.toggle then 1 else 0) <<< 10) ||| (c.outcome.code <<< 11)

/-- Retire/format slot states (R214). -/
def RetireState.code : RetireState → Word
  | .empty => 0 | .collecting => 1 | .waiting => 2 | .blanking => 3 | .suspended => 4 | .formatRunning => 5

/-- VERIFY phases (R214). -/
def Phase.code : Phase → Word
  | .locate => 0 | .hold => 1 | .check => 2 | .collect => 3 | .write => 4

/-- Claim states (R214); CLOSED has no code, for CLAIM READ refuses it. -/
def ClaimState.code : ClaimState → Word
  | .closed => 0 | .queued => 1 | .verifying => 2 | .ready => 3

/-- Integrity (R214). -/
def Integrity.code : Integrity → Word
  | .intact => 0 | .damaged => 1 | .incomplete => 2 | .notFound => 3 | .aborted => 4

/-- Verdicts, the errors included (R214). -/
inductive Verdict where
  | clean | minorExcursion | evidenceIncomplete | breachRefrigeration | breachHandling | sealBroken | condemned
  | routeHalted | unknownConsignment | notOnBoard | badRequest | quantityMismatch | restartUnanswered
deriving DecidableEq, Repr

def Verdict.code : Verdict → Word
  | .clean => 0 | .minorExcursion => 1 | .evidenceIncomplete => 2 | .breachRefrigeration => 3 | .breachHandling => 4
  | .sealBroken => 5 | .condemned => 6 | .routeHalted => 8 | .unknownConsignment => 9 | .notOnBoard => 10
  | .badRequest => 11 | .quantityMismatch => 12 | .restartUnanswered => 13

/-- LOAD_ACK outcomes (R214). -/
inductive LoadOutcome where
  | accepted | routeNotLoaded | idZero | quantityZero | idPresent | compartmentDisabled | tableFull | restartUnanswered
deriving DecidableEq, Repr

def LoadOutcome.code : LoadOutcome → Word
  | .accepted => 0 | .routeNotLoaded => 1 | .idZero => 2 | .quantityZero => 3 | .idPresent => 4
  | .compartmentDisabled => 5 | .tableFull => 6 | .restartUnanswered => 7

/-- Alert triggers as bits 8 to 13 of word 4 of a CONSIGNMENT_ALERT (R214). -/
def triggerMelt : Word := 0x0100
def triggerRefreeze : Word := 0x0200
def triggerBudget : Word := 0x0400
def triggerContinuous : Word := 0x0800
def triggerHandover : Word := 0x1000
def triggerWithheldSummary : Word := 0x2000

/-- Operation ended, in a warm RESTART (R214). -/
def Ended.code : Ended → Word
  | .none => 0 | .blanking => 1 | .format => 2 | .verify _ => 3

end Sys2Proof.Machine
end

