-- ==== Sys2Proof/Machine/Flags.lean ====
section
/-! DEFINITION. The attention causes (R67, R72, R213) and the packed flag sets (R214). -/

namespace Sys2Proof.Machine

/-- The fifteen attention causes as bits of the cause set (R213). -/
def causeWriteRefused : Word := 0x0001
def causeRecordBroken : Word := 0x0002
def causeProtectError : Word := 0x0004
def causeExposureChange : Word := 0x0008
def causeConsignmentAlert : Word := 0x0010
def causeDoorDwell : Word := 0x0020
def causeSealBroken : Word := 0x0040
def causeScanFrozen : Word := 0x0080
def causeStoreLow : Word := 0x0100
def causeStoreFull : Word := 0x0200
def causeEvidenceFault : Word := 0x0400
def causeOpDone : Word := 0x0800
def causeClaimReady : Word := 0x1000
def causeRestart : Word := 0x2000
def causeClockInvalid : Word := 0x4000
/-- Bit 15, the unused position of a cause set (R213). -/
def causeUnused : Word := 0x8000

/-- Raising a cause makes it pending; a pending cause stays as it is (R72). -/
def Part.raise (c : Word) (p : Part) : Part := { p with attention := p.attention ||| c }

/-- A cause is pending (R72). -/
def Part.pendingCause (p : Part) (c : Word) : Bool := p.attention &&& c != 0

/-- ATTN is low exactly while the pending set is not empty (R72). -/
def Part.attnLow (p : Part) : Bool := p.attention != 0

/-- WAIT is asserted while an access waits (R29). -/
def State.waitAsserted (s : State) : Bool := !s.port.waiting.isEmpty

def bit (b : Bool) (n : Nat) : Word := if b then (1 : Word) <<< n else 0

def Flags.clear : Flags :=
  { softCrossed := false, condemned := false, breached := false, sealBroken := false, gapSeen := false,
    eventsWithheld := false, evidenceFault := false, evidenceReset := false, handoverWarm := false }

/-- The consignment flags as bits 0 to 8 (R214). -/
def Flags.word (f : Flags) : Word :=
  bit f.softCrossed 0 ||| bit f.condemned 1 ||| bit f.breached 2 ||| bit f.sealBroken 3 ||| bit f.gapSeen 4
    ||| bit f.eventsWithheld 5 ||| bit f.evidenceFault 6 ||| bit f.evidenceReset 7 ||| bit f.handoverWarm 8

/-- The flags a PROOF's word 4 carries (R160, R214). -/
def Flags.ofWord (w : Word) : Flags :=
  { softCrossed := w.getLsbD 0, condemned := w.getLsbD 1, breached := w.getLsbD 2, sealBroken := w.getLsbD 3,
    gapSeen := w.getLsbD 4, eventsWithheld := w.getLsbD 5, evidenceFault := w.getLsbD 6, evidenceReset := w.getLsbD 7,
    handoverWarm := w.getLsbD 8 }

/-- The finding flags of CLAIM READ word 10 (R214). -/
def Claim.flagsWord (c : Claim) : Word :=
  bit c.retiredRange 0 ||| bit c.listTruncated 1 ||| bit c.proofsOver 2 ||| bit c.laterFault 3

end Sys2Proof.Machine
end

