-- ==== Sys2Proof/Machine/Operands.lean ====
section
/-! DEFINITION. How values are read from and written to words (R210), protected parameters (R58), the route sheet
(R211, R79 to R81) and the fields of processor records (R212). -/

namespace Sys2Proof.Machine

/-! ## Words -/

def satAt (m n : Nat) : Nat := min n m
def sat8 (n : Nat) : Nat := satAt 255 n
def sat16 (n : Nat) : Nat := satAt 65535 n
def sat32 (n : Nat) : Nat := satAt max32 n

/-- A count or code as one word. -/
def wordOf (n : Nat) : Word := BitVec.ofNat 16 n

/-- Low and high word of a 32-bit number (R210: low word first). -/
def loWord (n : Nat) : Word := BitVec.ofNat 16 n
def hiWord (n : Nat) : Word := BitVec.ofNat 16 (n / 65536)

/-- A 32-bit number as its two words (R210). -/
def words32 (n : Nat) : List Word := [loWord n, hiWord n]

/-- An optional 32-bit number: the blank pattern in both words when absent (R210). -/
def words32? : Option Nat → List Word
  | some n => words32 n
  | none => [blank, blank]

/-- A 32-bit value as its two words. -/
def dwords (v : DWord) : List Word := words32 v.toNat

def dwords? : Option DWord → List Word
  | some v => dwords v
  | none => [blank, blank]

/-- The 32-bit number in two words, low word first. -/
def join32 (lo hi : Word) : Nat := hi.toNat * 65536 + lo.toNat

def joinD (lo hi : Word) : DWord := BitVec.ofNat 32 (join32 lo hi)

/-- A temperature as a word (R210). -/
def tempWord (t : Int) : Word := BitVec.ofInt 16 t

/-- The absent temperature, -32768 (section 6.2, R210). -/
def absentTemp : Word := 0x8000

/-- An optional temperature; -32768 when absent. -/
def tempWord? : Option Int → Word
  | some t => tempWord t
  | none => absentTemp

/-- A reading in the valid range -600 to +600; none when absent or invalid (section 6.2). -/
def validTemp (w : Word) : Option Int :=
  if -600 ≤ w.toInt ∧ w.toInt ≤ 600 then some w.toInt else none

/-- Two bytes as a word, the first in the low byte (section 6.1). -/
def bytesWord (low high : Nat) : Word := BitVec.ofNat 16 (low % 256 + 256 * (high % 256))

def lowByte (w : Word) : Nat := w.toNat % 256
def highByte (w : Word) : Nat := w.toNat / 256

/-- The word at an offset of a list of words; the blank pattern beyond its end. -/
def wordAt (ws : List Word) (i : Nat) : Word := ws.getD i blank

/-- The 32-bit number at an offset. -/
def num32At (ws : List Word) (i : Nat) : Nat := join32 (wordAt ws i) (wordAt ws (i + 1))

def dwordAt (ws : List Word) (i : Nat) : DWord := joinD (wordAt ws i) (wordAt ws (i + 1))

/-- Minutes of a duration or units of 0.1 C min: divided by 60, rounded down, saturating at 65,535 (sections 6.3, 6.4). -/
def minutes (n : Nat) : Nat := sat16 (n / 60)

/-- A set of compartments as its 8 bits (R210). -/
def compSet (cs : List Nat) : Nat := ((List.range 8).map (fun c => if cs.contains c then 2 ^ c else 0)).sum

/-! ## Protected parameters (R58) -/

/-- A protected 16-bit value: the value, its complement, the value. -/
def protected16 : List Word → Bool
  | [a, b, c] => b == ~~~a && c == a
  | _ => false

/-- A protected 32-bit value, tested word by word. -/
def protected32 : List Word → Bool
  | [a, b, c, d, e, f] => c == ~~~a && d == ~~~b && e == a && f == b
  | _ => false

/-- The protected parameter of a command is well formed; true for the commands that have none (R57, R58). -/
def Command.wellProtected (c : Command) (ps : List Word) : Bool :=
  match c with
  | .clockSet => protected32 ps
  | .routeLoad => protected16 ps
  | .serviceEnter => protected16 ps
  | .format => protected16 ps
  | _ => true

/-! ## The route sheet (R211) -/

def Sheet.emptyClass : ClassEntry :=
  { code := blank, hold := blank, soft := blank, melt := blank, budget := blank, maxExcursion := blank, dwell := blank,
    refreeze := blank, gap := blank }

def Sheet.emptyComp : CompEntry := { enabled := 0, cls := 0, probe := 0, contacts := 0, seals := 0 }

/-- Class entry k from the 2,032 sheet words, whose first is word 16 of segment 0. -/
def Sheet.classOfWords (ws : List Word) (k : Nat) : ClassEntry :=
  let b := 16 + 16 * k
  { code := wordAt ws b, hold := wordAt ws (b + 1), soft := wordAt ws (b + 2), melt := wordAt ws (b + 3),
    budget := wordAt ws (b + 4), maxExcursion := wordAt ws (b + 5), dwell := wordAt ws (b + 6),
    refreeze := wordAt ws (b + 7), gap := wordAt ws (b + 8) }

/-- Compartment entry c from the sheet words. -/
def Sheet.compOfWords (ws : List Word) (c : Nat) : CompEntry :=
  let b := 272 + 8 * c
  { enabled := wordAt ws b, cls := wordAt ws (b + 1), probe := wordAt ws (b + 2), contacts := wordAt ws (b + 3),
    seals := wordAt ws (b + 4) }

/-- The sheet in its 2,032 words (words 16 to 2,047 of segment 0). -/
def Sheet.ofWords (ws : List Word) : Sheet :=
  { routeNumber := wordAt ws 0, retentionDays := wordAt ws 1, scrubHours := wordAt ws 2, serviceWord := wordAt ws 3,
    skew := wordAt ws 4, scanMode := wordAt ws 5
    classes := (List.range 16).map (Sheet.classOfWords ws)
    comps := (List.range 8).map (Sheet.compOfWords ws) }

def Sheet.held (s : Sheet) : Held :=
  { retentionDays := s.retentionDays, scrubHours := s.scrubHours, serviceWord := s.serviceWord }

def Sheet.comp (s : Sheet) (c : Nat) : CompEntry := s.comps.getD c Sheet.emptyComp

def Sheet.cls (s : Sheet) (k : Nat) : ClassEntry := s.classes.getD k Sheet.emptyClass

def CompEntry.isEnabled (e : CompEntry) : Bool := e.enabled == 1

/-- The class that governs a compartment (R81). -/
def Sheet.classOfComp (s : Sheet) (c : Nat) : ClassEntry := s.cls (s.comp c).cls.toNat

def Sheet.isExtended (s : Sheet) : Bool := s.scanMode == 1

/-- The enabled compartments of a sheet. -/
def Sheet.enabledComps (s : Sheet) : List Nat := (List.range 8).filter (fun c => (s.comp c).isEnabled)

/-- A contact slot (0 to 15) or seal slot (16 to 23) belongs to the entry's slot sets (R81, R211). -/
def CompEntry.holdsSlot (e : CompEntry) (k : Nat) : Bool :=
  if k < 16 then e.contacts.getLsbD k else e.seals.getLsbD (k - 16)

/-- The enabled compartments that hold a slot (R122, R123). -/
def Sheet.compsHolding (s : Sheet) (k : Nat) : List Nat := s.enabledComps.filter (fun c => (s.comp c).holdsSlot k)

/-- The sample gap limit in seconds, the cap of R100. -/
def ClassEntry.gapCap (k : ClassEntry) : Nat := k.gap.toNat * 60

/-- The maximum continuous excursion in seconds (R108). -/
def ClassEntry.maxExcursionSecs (k : ClassEntry) : Nat := k.maxExcursion.toNat * 60

/-- Refreeze rule CONDEMN (R80, R211). -/
def ClassEntry.condemns (k : ClassEntry) : Bool := k.refreeze == 0

/-- A failure of the sheet check: part of the sheet, entry number, word offset of the field (R84, R211). -/
structure SheetFailure where
  part : Nat
  entry : Nat
  field : Option Nat
deriving DecidableEq, Repr

/-- The two result words of a refused ROUTE LOAD (R211). -/
def SheetFailure.words (f : SheetFailure) : List Word :=
  [bytesWord f.entry f.part, match f.field with | some o => wordOf o | none => blank]

def inRange (lo hi : Nat) (w : Word) : Bool := decide (lo ≤ w.toNat ∧ w.toNat ≤ hi)

/-- Route fields, in the order of R79 (check 2 of R84). -/
def Sheet.routeFieldFailure (s : Sheet) (routeNumber : Word) : Option SheetFailure :=
  let fail (o : Nat) : Option SheetFailure := some { part := 1, entry := 0, field := some o }
  if s.routeNumber != routeNumber || s.routeNumber == 0xFFFF then fail 0
  else if !inRange 1 3650 s.retentionDays then fail 1
  else if !inRange 1 168 s.scrubHours then fail 2
  else if !inRange 0 3600 s.skew then fail 4
  else if !inRange 0 1 s.scanMode then fail 5
  else none

/-- A limit in the temperature range -600 to +600. -/
def limitInRange (w : Word) : Bool := decide (-600 ≤ w.toInt ∧ w.toInt ≤ 600)

/-- The fields of a class, in the order of R80. -/
def ClassEntry.failure (k : ClassEntry) (n : Nat) : Option SheetFailure :=
  let fail (o : Nat) : Option SheetFailure := some { part := 4, entry := n, field := some o }
  if !limitInRange k.hold then fail 1
  else if !(limitInRange k.soft && decide (k.hold.toInt < k.soft.toInt)) then fail 2
  else if !(limitInRange k.melt && decide (k.soft.toInt < k.melt.toInt)) then fail 3
  else if !inRange 1 65535 k.budget then fail 4
  else if !inRange 1 1440 k.maxExcursion then fail 5
  else if !inRange 10 3600 k.dwell then fail 6
  else if !inRange 0 1 k.refreeze then fail 7
  else if !inRange 1 120 k.gap then fail 8
  else none

/-- One compartment entry, then the class it names (check 4 of R84). The seal-slot set has bits 0 to 7 alone, and is empty
in STANDARD (R81, R211). -/
def Sheet.compFailure (s : Sheet) (c : Nat) : Option SheetFailure :=
  let e := s.comp c
  let fail (o : Nat) : Option SheetFailure := some { part := 3, entry := c, field := some o }
  if !inRange 0 1 e.enabled then fail 0
  else if !e.isEnabled then none
  else if !inRange 0 15 e.cls then fail 1
  else if !inRange 1 4 e.probe then fail 2
  else if e.seals &&& 0xFF00 != 0 || (!s.isExtended && e.seals != 0) then fail 4
  else (s.cls e.cls.toNat).failure e.cls.toNat

/-- Checks 2 to 4 of R84, in order; none when the sheet passes. -/
def Sheet.failure (s : Sheet) (routeNumber : Word) : Option SheetFailure :=
  match s.routeFieldFailure routeNumber with
  | some f => some f
  | none =>
    if s.enabledComps.isEmpty then some { part := 2, entry := 0, field := none }
    else (List.range 8).findSome? s.compFailure

/-! ## Processor record bodies (R212); `ws` are the words received, from word 0 -/

structure SampleBody where
  timestamp : Nat
  comp : Nat
  unit : Word
  probes : List Word
deriving DecidableEq, Repr

def SampleBody.ofWords (ws : List Word) : SampleBody :=
  { timestamp := num32At ws 1, comp := (wordAt ws 3).toNat, unit := wordAt ws 4,
    probes := [wordAt ws 5, wordAt ws 6, wordAt ws 7, wordAt ws 8] }

/-- The reading of a designated probe, 1 to 4 (R81, R97). -/
def SampleBody.reading (b : SampleBody) (probe : Nat) : Word := b.probes.getD (probe - 1) absentTemp

structure LoadBody where
  id : DWord
  comp : Word
  quantity : Nat
  product : Word
deriving DecidableEq, Repr

def LoadBody.ofWords (ws : List Word) : LoadBody :=
  { id := dwordAt ws 3, comp := wordAt ws 5, quantity := (wordAt ws 6).toNat, product := wordAt ws 7 }

structure DeliveryBody where
  id : DWord
  stop : Word
  quantity : Nat
  reading : Word
  kind : Word
deriving DecidableEq, Repr

def DeliveryBody.ofWords (ws : List Word) : DeliveryBody :=
  { id := dwordAt ws 3, stop := wordAt ws 5, quantity := (wordAt ws 6).toNat, reading := wordAt ws 7, kind := wordAt ws 9 }

/-- DELIVERY kinds (R212). -/
def deliveryFull : Word := 0
def deliveryPartial : Word := 1
def deliveryRefused : Word := 2

/-- The consignment id of an UNLOAD. -/
def unloadId (ws : List Word) : DWord := dwordAt ws 3

/-- The receipt time in a record's words 12 and 13 (R4). -/
def recordReceipt (ws : List Word) : Nat := num32At ws 12

/-- The chain value in a record's words 14 and 15 (R4). -/
def recordChainField (ws : List Word) : DWord := dwordAt ws 14

end Sys2Proof.Machine
end

