-- ==== Sys2Proof/Machine/Ops.lean ====
section
/-! DEFINITION. The shared operations: the record memory, the chain, record frames, the segment and stream tables, the
direct write list, the record writer queue, and the tables of contexts and consignments. -/

namespace Sys2Proof.Machine

/-! ## The record memory (section 6.1; log 6) -/

/-- The word at an address; an unlisted address reads the blank pattern. -/
def Memory.read : Memory → Nat → Word
  | [], _ => blank
  | (k, v) :: m, a => if k = a then v else Memory.read m a

/-- Writes one word and keeps the canonical form: writing the blank pattern removes the entry. -/
def Memory.write : Memory → Nat → Word → Memory
  | [], a, w => if w = blank then [] else [(a, w)]
  | (k, v) :: m, a, w =>
    if a < k then (if w = blank then (k, v) :: m else (a, w) :: (k, v) :: m)
    else if a = k then (if w = blank then m else (a, w) :: m)
    else (k, v) :: Memory.write m a w

/-- The canonical form: addresses strictly rising, no entry equal to the blank pattern. -/
abbrev Memory.wf (m : Memory) : Prop := m.Pairwise (fun x y => x.1 < y.1) ∧ ∀ c ∈ m, c.2 ≠ blank

/-- Writes consecutive words, the first at `base`: a burst of R46. -/
def Memory.writeWords : Memory → Nat → List Word → Memory
  | m, _, [] => m
  | m, base, w :: ws => Memory.writeWords (Memory.write m base w) (base + 1) ws

/-- Writes single words, in order. -/
def Memory.writeAll (m : Memory) (ws : List (Nat × Word)) : Memory :=
  ws.foldl (fun m w => Memory.write m w.1 w.2) m

/-- The `n` words from `base`. -/
def Memory.readWords (m : Memory) (base n : Nat) : List Word :=
  (List.range n).map (fun i => Memory.read m (base + i))

/-- Where a segment begins (section 6.1). -/
def segBase (n : Nat) : Nat := n * 16384

/-- Where a slot begins (R3). -/
def slotAddr (n s : Nat) : Nat := n * 16384 + 16 * s

/-- The 16 words of a slot. -/
def Memory.slot (m : Memory) (n s : Nat) : List Word := Memory.readWords m (slotAddr n s) 16

/-- Segment, slot and word of a word address (R1). -/
def addrSeg (a : Nat) : Nat := a / 16384
def addrSlot (a : Nat) : Nat := a % 16384 / 16
def addrWord (a : Nat) : Nat := a % 16

/-- N_SEG for a store size code (section 6.1). -/
def segCount (code : Nat) : Nat := if code = 1 then 64 else if code = 2 then 128 else if code = 3 then 256 else 0

/-! ## The chain (section 6.5, R7; log 13) -/

/-- One bit, least significant first, of the CRC with generator 0x1EDC6F41, whose bits reversed are 0x82F63B78. -/
def crcBit (c : DWord) (b : Bool) : DWord :=
  if xor (c.getLsbD 0) b then (c >>> 1) ^^^ 0x82F63B78 else c >>> 1

/-- One word: low byte first, then high byte, each least significant bit first. -/
def crcWord (c : DWord) (w : Word) : DWord :=
  (List.range 16).foldl (fun c i => crcBit c (w.getLsbD i)) c

def crcWords (seed : DWord) (ws : List Word) : DWord := ws.foldl crcWord seed

/-- The words a record's chain covers: words 0 to 13, with word 1 of a HEADER taken as zero (R7). -/
def chainInput (ws : List Word) : List Word :=
  match ws.take 14 with
  | w0 :: w1 :: rest => (if w0 = Kind.header.headerWord then w0 :: 0 :: rest else w0 :: w1 :: rest)
  | short => short

/-- The chain value of a record over its words, from a seed (R7). -/
def recordChain (seed : DWord) (ws : List Word) : DWord := crcWords seed (chainInput ws)

/-- A list of exactly `n` words, filled with the blank pattern (R210: unassigned words). -/
def padTo (n : Nat) (ws : List Word) : List Word := (ws ++ List.replicate n blank).take n

/-- Words 0 to 13 of a record: header word, body in words 1 to 11, receipt time (R4). -/
def recordHead (k : Kind) (body : List Word) (receipt : Nat) : List Word :=
  k.headerWord :: padTo 11 body ++ words32 receipt

/-- The 16 words of a record (R4). -/
def recordWords (k : Kind) (body : List Word) (receipt : Nat) (seed : DWord) : List Word :=
  recordHead k body receipt ++ dwords (recordChain seed (recordHead k body receipt))

/-! ## Segment and stream tables (R8, R19) -/

def Part.seg (p : Part) (n : Nat) : Option SegEntry := if n = 0 then none else p.store.segs[n - 1]?

def Part.modSeg (n : Nat) (f : SegEntry → SegEntry) (p : Part) : Part :=
  if n = 0 then p else { p with store := { p.store with segs := p.store.segs.modify (n - 1) f } }

def Streams.get (t : Streams) : Stream → StreamEntry
  | .sample => t.sample
  | .event => t.event
  | .delivery => t.delivery
  | .claim => t.claim

def Streams.set (t : Streams) (st : Stream) (e : StreamEntry) : Streams :=
  match st with
  | .sample => { t with sample := e }
  | .event => { t with event := e }
  | .delivery => { t with delivery := e }
  | .claim => { t with claim := e }

def Part.stream (p : Part) (st : Stream) : StreamEntry := p.store.streams.get st

def Part.modStream (st : Stream) (f : StreamEntry → StreamEntry) (p : Part) : Part :=
  { p with store := { p.store with streams := p.store.streams.set st (f (p.store.streams.get st)) } }

/-- A store extent exists (R1). -/
def Part.hasExtent (p : Part) : Bool := p.mode == .guarded || p.mode == .service

def Part.formatRunning (p : Part) : Bool := p.retire.state == .formatRunning

/-- A route is LOADED. -/
def Part.routeLoaded (p : Part) : Bool := p.route.state == .loaded

/-- The record numbers of a segment, numbered 1 to N_SEG - 1. -/
def Part.recordSegs (p : Part) : List Nat := (List.range p.store.segs.length).map (· + 1)

/-- The clock floor rises to a receipt time given (R90). -/
def Part.noteReceipt (t : Nat) (p : Part) : Part :=
  { p with clock := { p.clock with floor := max p.clock.floor t } }

/-- The BLANK count a stream's need is decided by: one lower for the other streams while an answer promise stands (R35). -/
def Part.blankFor (p : Part) (st : Stream) : Nat :=
  match p.asm with
  | some a => if a.promise && st != .delivery then p.store.pool.length - 1 else p.store.pool.length
  | none => p.store.pool.length

/-- A stream may take a segment (R16). -/
def Part.mayTake (p : Part) (st : Stream) : Bool :=
  p.hasExtent &&
    (match st with
     | .event => decide (1 ≤ p.blankFor st)
     | .delivery => decide (1 ≤ p.blankFor st)
     | .sample => decide (3 ≤ p.blankFor st)
     | .claim => decide (3 ≤ p.blankFor st))

/-- The body of a HEADER record (R21, R212). -/
def headerBody (st : Stream) (segSeq : BitVec 16) (first entry : DWord) (openTime : Nat) : List Word :=
  [conditionOpen, st.code, segSeq] ++ dwords first ++ dwords entry ++ words32 openTime

def Part.pushDirect (e : DirectEntry) (p : Part) : Part :=
  { p with store := { p.store with direct := p.store.direct ++ [e] } }

/-- STORE_LOW is raised by an allocation that leaves 4 or fewer (R18). -/
def Part.raiseStoreLow (p : Part) : Part := if p.store.pool.length ≤ 4 then p.raise causeStoreLow else p

/-- Steps 2 to 5 of R21 for the segment taken. -/
def Part.openTaken (st : Stream) (n : Nat) (p : Part) : Part :=
  let e := p.stream st
  let words := recordWords .header (headerBody st e.nextSeq e.nextRec e.running p.clock.now) p.clock.now e.running
  p
  |> Part.modSeg n (fun _ =>
      { state := .opened, stream := some st, segSeq := some e.nextSeq, openTime := some p.clock.now, closeTime := none,
        firstRec := some e.nextRec, count := some 0, entryChain := some e.running, exitChain := none, holds := 0,
        owed := .none })
  |> Part.modStream st (fun e =>
      { e with openSeg := some n, append := some 1, nextSeq := e.nextSeq + 1, running := recordChain e.running words,
               stalled := false })
  |> Part.noteReceipt p.clock.now
  |> Part.pushDirect { kind := .header, seg := n, slot := 0, words := words }

/-- The record store manager opens a segment for a stream, from the lowest of the pool (R21). -/
def Part.openSegment (st : Stream) (p : Part) : Part :=
  match p.store.pool with
  | [] => p
  | n :: rest =>
    { p with store := { p.store with pool := rest } } |> Part.raiseStoreLow |> Part.openTaken st n

/-- A stream that may not take a segment is stalled (R16). -/
def Part.stall (st : Stream) (p : Part) : Part :=
  p |> Part.modStream st (fun e => { e with stalled := true }) |> Part.raise causeStoreFull

/-- The stream has a record under assembly in a segment that is no longer its open segment, so its need waits (R40). -/
def Part.needWaits (p : Part) (st : Stream) : Bool :=
  match p.asm with
  | some a => a.stream == st && (p.stream st).openSeg != some a.seg
  | none => false

/-- A stream needs a segment (R16, R21). No segment is opened and no stream stalled while a FORMAT runs (R194). -/
def Part.needSegment (st : Stream) (p : Part) : Part :=
  if p.formatRunning || p.needWaits st then p
  else if p.mayTake st then p.openSegment st
  else p.stall st

/-- The changes of R23 on closing a stream's open segment. -/
def Part.closeSegment (st : Stream) (n : Nat) (p : Part) : Part :=
  p
  |> Part.modSeg n (fun e =>
      { e with state := .closed, closeTime := some p.clock.now, exitChain := some (p.stream st).running, owed := .closed })
  |> Part.modStream st (fun e => { e with openSeg := none, append := none })

/-- A record takes the stream's next record sequence number in segment `n`, its chain becomes the running chain, and the
segment's record count rises by one (R5, R26, R40). -/
def Part.advanceStream (st : Stream) (n : Nat) (chain : DWord) (p : Part) : Part :=
  p
  |> Part.modStream st (fun e => { e with nextRec := e.nextRec + 1, running := chain })
  |> Part.modSeg n (fun e => { e with count := some (e.count.getD 0 + 1) })

/-- After slot `s` of segment `n` is the last consumed: the append slot moves on, or slot 1,023 closes the segment (R23).
In a segment that is no longer the stream's open one, the exit chain takes the running chain (R12, R40, R42). -/
def Part.slotConsumed (st : Stream) (n s : Nat) (needs : Bool) (p : Part) : Part :=
  if (p.stream st).openSeg = some n then
    if 1023 ≤ s then
      let q := p.closeSegment st n
      if needs then q.needSegment st else q
    else p |> Part.modStream st (fun e => { e with append := some (s + 1) })
  else p |> Part.modSeg n (fun e => { e with exitChain := some (p.stream st).running })

/-- A check faults a segment that is OPEN or CLOSED (R11, R12); any other segment stays as it is. -/
def Part.faultSegment (n : Nat) (p : Part) : Part :=
  match p.seg n with
  | none => p
  | some e =>
    match e.state, e.stream with
    | .opened, some st =>
      let underAssembly := match p.asm with | some a => a.seg == n | none => false
      p
      |> Part.modSeg n (fun e =>
          { e with state := .faulted, closeTime := some p.clock.now,
                   exitChain := if underAssembly then none else some (p.stream st).running, owed := .faulted })
      |> Part.modStream st (fun e => { e with openSeg := none, append := none })
    | .closed, _ => p |> Part.modSeg n (fun e => { e with state := .faulted, owed := .faulted })
    | _, _ => p

/-- The order in which stalled streams are served (R17). -/
def Part.serveStalled (p : Part) : Part :=
  [Stream.event, .delivery, .sample, .claim].foldl
    (fun p st => if (p.stream st).stalled && p.mayTake st then p.openSegment st else p) p

/-- A segment joins the pool at its place in ascending order, its entry BLANK, and stalled streams are served (R8, R15, R17). -/
def Part.joinPool (n : Nat) (p : Part) : Part :=
  let q := p |> Part.modSeg n (fun _ => SegEntry.blankEntry)
  { q with store := { q.store with pool := q.store.pool.filter (· < n) ++ [n] ++ q.store.pool.filter (n < ·) } }
  |> Part.serveStalled

/-! ## Requester 2 (R22, R46) -/

/-- The lowest segment that owes a condition rewrite (R11, R22). -/
def Part.owedRewrite (p : Part) : Option (Nat × Word) :=
  p.recordSegs.findSome? (fun n =>
    match p.seg n with
    | some e =>
      match e.owed with
      | .none => none
      | .closed => some (n, conditionClosed)
      | .faulted => some (n, conditionFaulted)
    | none => none)

/-- The head of the record writer queue can be served: its stream has an open segment or may be given one (R26). No
record is served while a FORMAT runs (R49, R194; log 36). -/
def Part.headServable (p : Part) : Bool :=
  match p.queue with
  | [] => false
  | e :: _ =>
    !p.formatRunning &&
      (e.taken.isSome || (p.stream e.stream).openSeg.isSome || (!(p.stream e.stream).stalled && p.mayTake e.stream))

/-- Requester 2 has a write waiting (R48). -/
def Part.req2Waiting (p : Part) : Bool :=
  !p.store.direct.isEmpty || p.owedRewrite.isSome || p.headServable

/-! ## The record writer queue (R25) and the scanner's freeze (R127) -/

/-- Free entries of the record writer queue. -/
def Part.freeEntries (p : Part) : Nat := 16 - p.queue.length

/-- The scanner becomes FROZEN (R127). -/
def Part.freeze (p : Part) : Part :=
  { p with scan := { p.scan with run := .frozen, slots := p.scan.slots.map (fun s => { s with agree := 0 }),
                                 dwellTest := none } }
  |> Part.raise causeScanFrozen

/-- A RUNNING scanner freezes when the queue falls below five free entries (R127). -/
def Part.freezeCheck (p : Part) : Part :=
  if p.scan.run = .running ∧ p.freeEntries < 5 then p.freeze else p

/-- A record joins the queue. -/
def Part.addRecord (st : Stream) (k : Kind) (body : List Word) (p : Part) : Part :=
  { p with queue := p.queue ++ [{ stream := st, kind := k, body := body, taken := none }] } |> Part.freezeCheck

/-- A FROZEN scanner resumes at five or more free entries, its owed record first (R129). -/
def Part.resumeScanner (p : Part) : Part :=
  if p.scan.run = .frozen ∧ 5 ≤ p.freeEntries then
    match p.scan.owed with
    | none => { p with scan := { p.scan with run := .running } }
    | some body =>
      let q := { p with scan := { p.scan with owed := none } } |> Part.addRecord .event .doorStatus body
      if 5 ≤ q.freeEntries then { q with scan := { q.scan with run := .running } } else q
  else p

/-! ## Contexts and consignments -/

def Part.ctx (p : Part) (c : Nat) : Ctx := p.ctxs.getD c Ctx.cold

def Part.modCtx (c : Nat) (f : Ctx → Ctx) (p : Part) : Part := { p with ctxs := p.ctxs.modify c f }

/-- The installed sheet, with nothing enabled when absent. -/
def Part.sheet (p : Part) : Sheet := p.route.sheet.getD (Sheet.ofWords [])

/-- A compartment takes part in the route: enabled in the installed sheet of a route that is not IDLE (R27; log 31). -/
def Part.compEnabled (p : Part) (c : Nat) : Bool :=
  p.route.state != .idle && p.route.sheet.isSome && decide (c < 8) && (p.sheet.comp c).isEnabled

def Part.classOfComp (p : Part) (c : Nat) : ClassEntry := p.sheet.classOfComp c

def Part.consAt (p : Part) (i : Nat) : Option Consignment := (p.cons[i]?).getD none

def Consignment.isLoaded (k : Consignment) : Bool := k.state == .loaded

/-- Changes every LOADED consignment that satisfies `sel` (R141: flags are set while LOADED). -/
def Part.mapLoaded (sel : Consignment → Bool) (f : Consignment → Consignment) (p : Part) : Part :=
  { p with cons := p.cons.map (fun o => o.map (fun k => if k.isLoaded && sel k then f k else k)) }

def Part.modCons (i : Nat) (f : Consignment → Consignment) (p : Part) : Part :=
  { p with cons := p.cons.modify i (fun o => o.map f) }

/-- The LOADED consignments that satisfy `sel`. -/
def Part.countLoaded (sel : Consignment → Bool) (p : Part) : Nat :=
  (p.cons.filter (fun o => match o with | some k => k.isLoaded && sel k | none => false)).length

/-- A record about a compartment is withheld: counted, a summary owed, `events_withheld` set (R112). -/
def Part.withhold (c : Nat) (p : Part) : Part :=
  p
  |> Part.modCtx c (fun x => { x with withheld := sat8 (x.withheld + 1), summaryOwed := true })
  |> Part.mapLoaded (fun k => k.comp == c) (fun k => { k with flags := { k.flags with eventsWithheld := true } })

/-- An exposure record or hand-over alert of compartment `c`: queued when an entry is free, else withheld (R111, R112, R147). -/
def Part.addExposure (c : Nat) (k : Kind) (body : List Word) (p : Part) : Part :=
  if 1 ≤ p.freeEntries then p.addRecord .event k body else p.withhold c

/-- A FAULT record: queued when an entry is free, else withheld against every active compartment (R27, R112; log 31). -/
def Part.addFault (body : List Word) (p : Part) : Part :=
  if 1 ≤ p.freeEntries then p.addRecord .event .fault body
  else
    { p with ctxs := p.ctxs.map (fun x =>
        if x.thermal = .idle then x else { x with withheld := sat8 (x.withheld + 1), summaryOwed := true }) }
    |> Part.mapLoaded (fun _ => true) (fun k => { k with flags := { k.flags with eventsWithheld := true } })

/-! ## Long operations (R73) and power -/

def Part.verifyRunning (p : Part) : Bool :=
  match p.verify with
  | some v => !v.suspended
  | none => false

/-- A long operation is running (R73). -/
def Part.longRunning (p : Part) : Bool :=
  p.retire.state == .blanking || p.retire.state == .formatRunning || p.verifyRunning

/-- The part runs: SUPPLY present, RESET released and no mount in progress (R198, R199, R203). -/
def Part.running (p : Part) : Bool := p.power == .on && !p.backup.mounting

/-- The scrub step interval in seconds; none with no held route fields or no store (R188). -/
def Part.scrubInterval (p : Part) : Option Nat :=
  match p.route.held with
  | some h => if p.hasExtent then some (h.scrubHours.toNat * 3600 / (p.store.nSeg - 1)) else none
  | none => none

/-- The next due time becomes the route clock plus the interval, or absent (R188). -/
def Part.rescheduleScrub (p : Part) : Part :=
  { p with scrub := { p.scrub with due := p.scrubInterval.map (p.clock.now + ·) } }

/-- The outcome of a command: the state after it. No command of this part stops it. -/
def State.ok (s : State) : Host.Outcome State Fault Refusal := .next s

/-- A command that acts on the chip alone and only while the part runs; otherwise nothing comes about (log 1). -/
def State.onRunning (f : Part → Part) (s : State) : Host.Outcome State Fault Refusal :=
  .next (if s.part.running then { s with part := f s.part } else s)

end Sys2Proof.Machine
end

