-- ==== Sys2Proof/Machine/Channel.lean ====
section
/-! DEFINITION. The current-command record, its presentation (R55, R56) and the arbiter's grants (R46 to R48). -/

namespace Sys2Proof.Machine

/-- Presentation ends; the running command is no longer the one presented (R55, R56). -/
def Part.endPresentation (p : Part) : Part :=
  { p with chan := { p.chan with
      current := p.chan.current.map (fun c => { c with addr := none })
      running := p.chan.running.map (fun r => { r with presented := false }) } }

/-- A new current-command record, presented at `a` (R55). -/
def Part.present (a : Addr) (echo : Word) (params : List Word) (st : CmdState) (o : CmdOutcome) (p : Part) : Part :=
  { p with chan := { p.chan with
      current := some { echo := echo, params := params, state := st, outcome := o, results := [], toggle := false,
                        addr := some a, readPos := 0 }
      running := p.chan.running.map (fun r => { r with presented := false }) } }

/-- The record takes its final state, outcome and result words (R56). -/
def Part.conclude (st : CmdState) (o : CmdOutcome) (results : List Word) (p : Part) : Part :=
  { p with chan := { p.chan with
      current := p.chan.current.map
        (fun c => { c with state := st, outcome := o, results := results, readPos := 0 }) } }

/-- DONE with outcome OK (R56). -/
def Part.done (results : List Word) (p : Part) : Part := p.conclude .done .ok results

/-- REFUSED with an outcome. -/
def Part.refuseCommand (o : CmdOutcome) (p : Part) : Part := p.conclude .refused o []

/-- The command stays RUNNING until its work ends (R54). -/
def Part.startRunning (w : RunningWork) (p : Part) : Part :=
  { p with chan := { p.chan with running := some { work := w, presented := true } } }

/-- The running command ends; its outcome is kept only if it is still presented (R55). -/
def Part.endRunning (st : CmdState) (o : CmdOutcome) (results : List Word) (p : Part) : Part :=
  match p.chan.running with
  | none => p
  | some r =>
    let q := { p with chan := { p.chan with running := none } }
    if r.presented then q.conclude st o results else q

/-- The running command is the one `w` names. -/
def Part.isRunning (p : Part) (w : RunningWork) : Bool :=
  match p.chan.running with
  | some r => r.work == w
  | none => false

/-- A PROTECT_MISMATCH raises PROTECT_ERROR and adds one to the protect error count (R58, R64). -/
def Part.protectError (p : Part) : Part :=
  { p with chan := { p.chan with protectErrors := sat8 (p.chan.protectErrors + 1) } } |> Part.raise causeProtectError

/-- The word a read of the presentation address returns (R56). -/
def CurrentCommand.readWord (c : CurrentCommand) : Word :=
  if c.state = .running ∨ c.readPos = 0 then c.statusWord else wordAt c.results (c.readPos - 1)

/-- The record after that read: the toggle changes while RUNNING, else the read position moves on and wraps (R56; log 12). -/
def CurrentCommand.afterRead (c : CurrentCommand) : CurrentCommand :=
  if c.state = .running then { c with toggle := !c.toggle }
  else { c with readPos := if c.readPos < c.results.length then c.readPos + 1 else 0 }

/-- The record presented at an address, if any. -/
def Part.presentedAt (p : Part) (a : Addr) : Option CurrentCommand :=
  match p.chan.current with
  | some c => if c.addr = some a then some c else none
  | none => none

/-! ## The arbiter -/

/-- The running long operation has a burst of requester 3 to make (R46, R165, R182, R193). -/
def Part.longHasBurst (p : Part) : Bool :=
  (match p.retire.state with
   | .blanking => (match p.retire.batch with | some b => b.current.isSome | none => false)
   | .formatRunning => true
   | _ => false)
  || (match p.verify with | some v => !v.suspended && v.phase != .write | none => false)

/-- The ROUTE LOAD read or the SERVICE ENTER read has a burst to make, and which (R46). -/
def Part.readBurst (p : Part) : Option Burst :=
  match p.chan.running with
  | some r =>
    match r.work with
    | .routeLoad => some .sheetRead
    | .serviceEnter _ => some .fieldRead
    | _ => none
  | none => none

/-- The grant the arbiter makes to requester 3 or 4 when the port is free and requesters 1 and 2 have nothing (R46). -/
def Part.lowGrant (p : Part) : Option Burst :=
  match p.readBurst with
  | some b => if p.longHasBurst && p.arb.lastWasRead then some .longOperation else some b
  | none => if p.longHasBurst then some .longOperation else if p.scrub.step.isSome then some .scrub else none

/-- The port is free and requester 2 has nothing to write, so a grant may go to requester 3 or 4 (R46). -/
def Part.mayGrant (p : Part) : Bool := p.running && p.arb.burst.isNone && !p.req2Waiting

/-- A burst of requester 3 or 4 is granted; long operations and the reads of the sheet take turns (R46). -/
def Part.giveBurst (b : Burst) (p : Part) : Part :=
  { p with arb := { p.arb with burst := some b,
                               lastWasRead := match b with
                                 | .sheetRead => true
                                 | .fieldRead => true
                                 | .longOperation => false
                                 | .record _ _ => p.arb.lastWasRead
                                 | .scrub => p.arb.lastWasRead } }

/-- The arbiter grants a free port to requester 3 or 4, once no upstream access waits (R46; log 7). -/
def Part.arbitrate (p : Part) : Part :=
  if p.mayGrant then (match p.lowGrant with | none => p | some b => p.giveBurst b) else p

/-- The burst in progress ends. -/
def Part.endBurst (p : Part) : Part := { p with arb := { p.arb with burst := none } }

/-- An upstream access that needs the port may be granted it (R46 to R48). -/
def Part.portFree (p : Part) : Bool := p.arb.burst.isNone && !(decide (8 ≤ p.arb.fairness) && p.req2Waiting)

/-- An upstream grant: the fairness count rises while requester 2 waits, else becomes 0 (R48). -/
def Part.upstreamGrant (p : Part) : Part :=
  { p with arb := { p.arb with fairness := if p.req2Waiting then min 8 (p.arb.fairness + 1) else 0 } }

/-- A grant of requester 2 (R48). -/
def Part.grant2 (p : Part) : Part := { p with arb := { p.arb with fairness := 0 } }

end Sys2Proof.Machine
end

