-- ==== Sys2Proof/Machine/Exposure.lean ====
section
/-! DEFINITION. The exposure engine (chapter 5): contexts, samples, intervals, thermal states, judging consignments, timers. -/

namespace Sys2Proof.Machine

/-! ## Interval accounting (R100) -/

/-- The rate of an interval: the last valid reading's excess above the hold limit. -/
def Ctx.rate (x : Ctx) (k : ClassEntry) : Nat :=
  match x.lastReading with
  | some r => (r - k.hold.toInt).toNat
  | none => 0

/-- The last valid reading is above the hold limit. -/
def Ctx.lastAboveHold (x : Ctx) (k : ClassEntry) : Bool :=
  match x.lastReading with
  | some r => decide (k.hold.toInt < r)
  | none => false

/-- The route totals with the interval from the interval start to `t` charged (R100); an interval start after `t` charges nothing
(log 53). -/
def Ctx.account (k : ClassEntry) (t : Nat) (x : Ctx) : Ctx :=
  let dt := t - x.intervalStart.getD t
  let counted := min dt k.gapCap
  let door := min x.doorSecs counted
  { x with
    excess := sat32 (x.excess + x.rate k * counted)
    doorExcess := sat32 (x.doorExcess + x.rate k * door)
    excursionSecs := if x.lastAboveHold k then sat32 (x.excursionSecs + counted) else x.excursionSecs
    gapSecs := sat32 (x.gapSecs + (dt - k.gapCap)) }

/-- The open gap of a compartment (R107). -/
def Ctx.openGap (x : Ctx) (now : Nat) : Nat :=
  match x.gapMark with
  | some m => if x.gap then now - m else 0
  | none => 0

/-! ## Alerts (R106) -/

/-- The excess since load in 0.1 C min, rounded down, before saturation (R105). -/
def Consignment.excessSince (k : Consignment) (x : Ctx) : Nat := (x.excess - k.base.excess) / 60

/-- The body of a CONSIGNMENT_ALERT (R106, R212). -/
def alertBody (id : DWord) (comp : Nat) (condemned breached : Bool) (triggers reading excess : Word) (withheld : Nat) :
    List Word :=
  dwords id ++ [wordOf comp, bit condemned 0 ||| bit breached 1 ||| triggers, reading, excess, wordOf withheld]

/-- An alert for a consignment of compartment `c`: queued or withheld, and CONSIGNMENT_ALERT raised (R106, R111). -/
def Part.alert (k : Consignment) (condemned breached : Bool) (triggers reading : Word) (p : Part) : Part :=
  let x := p.ctx k.comp
  p
  |> Part.addExposure k.comp .alert
      (alertBody k.id k.comp condemned breached triggers reading (wordOf (sat16 (k.excessSince x))) x.withheld)
  |> Part.raise causeConsignmentAlert

/-! ## Judging consignments at a valid sample (R103 to R106) -/

/-- What a reading and the totals set on a LOADED consignment: melt, refreeze and budget. -/
structure Judgement where
  melt : Bool
  refreeze : Bool
  budget : Bool
deriving DecidableEq, Repr

def Consignment.judge (k : Consignment) (cls : ClassEntry) (x : Ctx) (r : Int) : Judgement :=
  { melt := decide (cls.melt.toInt ≤ r)
    refreeze := cls.condemns && k.flags.softCrossed && decide (r ≤ cls.hold.toInt)
    budget := decide (cls.budget.toNat < k.excessSince x) }

/-- The worst reading with a reading taken in (R103). -/
def worstOf (w : Option Int) (r : Int) : Option Int :=
  match w with
  | some v => some (max v r)
  | none => some r

/-- The consignment after a valid sample's reading (R103 to R105). -/
def Consignment.afterReading (k : Consignment) (cls : ClassEntry) (x : Ctx) (r : Int) : Consignment :=
  let j := k.judge cls x r
  { k with
    worst := worstOf k.worst r
    flags := { k.flags with
      softCrossed := k.flags.softCrossed || decide (cls.soft.toInt < r)
      condemned := k.flags.condemned || j.melt || j.refreeze
      breached := k.flags.breached || j.melt || j.budget } }

/-- Evaluates table entry `i` at a valid sample of compartment `c` (R103 to R106). -/
def Part.evaluate (c : Nat) (r : Int) (i : Nat) (p : Part) : Part :=
  match p.consAt i with
  | none => p
  | some k =>
    if k.isLoaded && k.comp == c then
      let cls := p.classOfComp c
      let x := p.ctx c
      let j := k.judge cls x r
      let newCondemned := (j.melt || j.refreeze) && !k.flags.condemned
      let newBreached := (j.melt || j.budget) && !k.flags.breached
      let triggers := (if j.melt && (newCondemned || newBreached) then triggerMelt else 0)
        ||| (if j.refreeze && newCondemned then triggerRefreeze else 0)
        ||| (if j.budget && newBreached then triggerBudget else 0)
      let q := p.modCons i (fun k => k.afterReading cls x r)
      if newCondemned || newBreached then q.alert k newCondemned newBreached triggers (tempWord r) else q
    else p

/-- Every table entry in ascending index. -/
def Part.evaluateAll (c : Nat) (r : Int) (p : Part) : Part :=
  (List.range 32).foldl (fun p i => p.evaluate c r i) p

/-! ## Taking a sample (R97 to R102) -/

/-- Compartment in the low byte, class index in the high byte (R212). -/
def Part.compClassWord (p : Part) (c : Nat) : Word := bytesWord c (p.sheet.comp c).cls.toNat

/-- The gap of a compartment ends at a valid sample (R99 step 2, R107). -/
def Part.endGap (c t : Nat) (p : Part) : Part :=
  let x := p.ctx c
  if x.gap then
    p
    |> Part.modCtx c (fun x => { x with gap := false, gapMark := none })
    |> Part.addExposure c .gapEnd
        ([wordOf c] ++ words32? x.gapMark ++ words32 t ++ [wordOf x.invalid, wordOf x.skewed])
  else p

/-- The thermal state is evaluated against a reading (R101, R102). -/
def Part.evaluateThermal (c : Nat) (r : Int) (t : Nat) (unit : Word) (p : Part) : Part :=
  let x := p.ctx c
  let hold := (p.classOfComp c).hold
  match x.thermal with
  | .idle => p
  | .inSpec =>
    if hold.toInt < r then
      let n := sat16 (x.episodes + 1)
      p
      |> Part.modCtx c (fun x =>
          { x with thermal := .excursion, episodeStart := some t, episodePeak := some r, episodes := n })
      |> Part.addExposure c .excursionStart
          ([p.compClassWord c, wordOf n] ++ words32 t ++ [tempWord r, hold, unit])
      |> Part.raise causeExposureChange
    else p
  | .excursion =>
    if hold.toInt < r then p |> Part.modCtx c (fun x => { x with episodePeak := worstOf x.episodePeak r })
    else
      let start := x.episodeStart.getD t
      p
      |> Part.modCtx c (fun x => { x with thermal := .inSpec, episodeStart := none, episodePeak := none })
      |> Part.addExposure c .excursionEnd
          ([p.compClassWord c, wordOf x.episodes] ++ words32 start ++ words32 t
            ++ [wordOf (minutes (t - start)), tempWord? x.episodePeak, unit])
      |> Part.raise causeExposureChange

/-- A valid sample with reading `r` and receipt time `t` (R99). -/
def Part.takeSample (c : Nat) (r : Int) (t : Nat) (unit : Word) (p : Part) : Part :=
  let k := p.classOfComp c
  p
  |> Part.modCtx c (Ctx.account k t)
  |> Part.endGap c t
  |> Part.evaluateThermal c r t unit
  |> Part.evaluateAll c r
  |> Part.modCtx c (fun x =>
      { x with lastTime := some t, lastReading := some r, intervalStart := some t, doorSecs := 0,
               gapExpiry := some (t + k.gapCap) })

/-- The skew test of a valid sample (R98). -/
def skewed (limit timestamp receipt : Nat) : Bool :=
  limit != 0 && decide (limit < (timestamp - receipt) + (receipt - timestamp))

/-- A unit state that is listed: RUNNING, OFF or DEFROST (R97, R212). -/
def listedUnit (w : Word) : Bool := decide (w.toNat ≤ 2)

/-- A committed SAMPLE is sorted, tested for skew and accounted (R97 to R99). `ws` are its words as received. -/
def Part.consumeSample (ws : List Word) (t : Nat) (p : Part) : Part :=
  let b := SampleBody.ofWords ws
  if !p.routeLoaded then p
  else if 8 ≤ b.comp then p
  else if (p.ctx b.comp).thermal = .idle then p
  else
    let r := if listedUnit b.unit then validTemp (b.reading (p.sheet.comp b.comp).probe.toNat) else none
    match r with
    | none => p |> Part.modCtx b.comp (fun x => { x with invalid := sat16 (x.invalid + 1) })
    | some r =>
      let q := if skewed p.sheet.skew.toNat b.timestamp t
        then p |> Part.modCtx b.comp (fun x => { x with skewed := sat16 (x.skewed + 1) }) else p
      q.takeSample b.comp r t b.unit

/-! ## Timers (R107, R108) -/

/-- The gap timer of compartment `c` has reached its expiry (R94, R107). -/
def Part.gapTimerDue (p : Part) (c : Nat) : Bool :=
  let x := p.ctx c
  x.thermal != .idle && !x.gap &&
    (match x.gapExpiry with | some e => decide (e ≤ p.clock.now) | none => false)

/-- The gap timer of compartment `c` expires (R107). -/
def Part.expireGapTimer (c : Nat) (p : Part) : Part :=
  let x := p.ctx c
  let mark := x.gapExpiry.getD p.clock.now
  p
  |> Part.modCtx c (fun x => { x with gap := true, gapMark := some mark, gapExpiry := none })
  |> Part.addExposure c .gapStart
      ([wordOf c] ++ words32? x.lastTime ++ words32 mark ++ [wordOf x.invalid, wordOf x.skewed])
  |> Part.mapLoaded (fun k => k.comp == c) (fun k => { k with flags := { k.flags with gapSeen := true } })
  |> Part.raise causeExposureChange

/-- The continuous-excursion deadline of a LOADED consignment whose compartment is in EXCURSION (R108). -/
def Part.deadline (p : Part) (k : Consignment) : Option Nat :=
  let x := p.ctx k.comp
  if k.isLoaded && x.thermal == .excursion then
    x.episodeStart.map (fun e => max e k.loadTime + (p.classOfComp k.comp).maxExcursionSecs)
  else none

/-- The deadline of table entry `i` has been reached and the entry is not yet breached (R108). -/
def Part.deadlineDue (p : Part) (i : Nat) : Bool :=
  match p.consAt i with
  | none => false
  | some k =>
    !k.flags.breached && (match p.deadline k with | some d => decide (d ≤ p.clock.now) | none => false)

/-- A deadline's expiry breaches the consignment (R108). -/
def Part.expireDeadline (i : Nat) (p : Part) : Part :=
  match p.consAt i with
  | none => p
  | some k =>
    p
    |> Part.modCons i (fun k => { k with flags := { k.flags with breached := true } })
    |> Part.alert k false true triggerContinuous blank

/-- GAP_TIMER_EXPIRY (R107). -/
def execGapTimerExpiry (c : Nat) (s : State) : Host.Outcome State Fault Refusal :=
  s.onRunning (fun p => if c < 8 ∧ p.gapTimerDue c then p.expireGapTimer c else p)

/-- CONTINUOUS_EXCURSION_DEADLINE (R108). -/
def execContinuousExcursionDeadline (i : Nat) (s : State) : Host.Outcome State Fault Refusal :=
  s.onRunning (fun p => if p.deadlineDue i then p.expireDeadline i else p)

/-! ## The withheld summary (R113) -/

/-- The lowest compartment that owes a summary. -/
def Part.summaryComp (p : Part) : Option Nat :=
  (List.range 8).find? (fun c => (p.ctx c).summaryOwed && (p.ctx c).thermal != .idle)

/-- The summarising alert of compartment `c`: id 0, no flags, the withheld count (R113; log 32). -/
def Part.addSummary (c : Nat) (p : Part) : Part :=
  let x := p.ctx c
  p
  |> Part.modCtx c (fun x => { x with summaryOwed := false })
  |> Part.addRecord .event .alert (alertBody 0 c false false triggerWithheldSummary blank blank x.withheld)

/-- WITHHELD_SUMMARY (R113): the lowest compartment that owes one, once an entry is free. -/
def execWithheldSummary (s : State) : Host.Outcome State Fault Refusal :=
  s.onRunning (fun p =>
    if 1 ≤ p.freeEntries then (match p.summaryComp with | some c => p.addSummary c | none => p) else p)

/-! ## Doors (R109) -/

def Part.slotAccepted (p : Part) (k : Nat) : Bool :=
  match p.scan.slots[k]? with
  | some s => s.accepted
  | none => false

/-- Some slot of a compartment's contact-slot set stands OPEN (R96, R109). -/
def Part.anyContactOpen (p : Part) (c : Nat) : Bool :=
  (List.range 16).any (fun k => (p.sheet.comp c).contacts.getLsbD k && p.slotAccepted k)

/-- The engine is told of an accepted change on contact slot `k` (R109); the contact table already holds it. -/
def Part.tellDoor (k : Nat) (p : Part) : Part :=
  { p with ctxs := p.ctxs.mapIdx (fun c x =>
      if x.thermal != .idle && (p.sheet.comp c).contacts.getLsbD k then { x with doorOpen := p.anyContactOpen c } else x) }

/-! ## Setting contexts as a whole (R95, R96) -/

/-- An enabled compartment's context initialised at `t` (R96). -/
def Ctx.initial (k : ClassEntry) (t : Nat) (doorOpen : Bool) : Ctx :=
  { Ctx.cold with thermal := .inSpec, doorOpen := doorOpen, intervalStart := some t, gapExpiry := some (t + k.gapCap) }

/-- Every context at a route install or a CLOCK SET out of HALTED (R95). -/
def Part.initContexts (p : Part) : Part :=
  { p with ctxs := (List.range 8).map (fun c =>
      if (p.sheet.comp c).isEnabled then Ctx.initial (p.classOfComp c) p.clock.now (p.anyContactOpen c) else Ctx.cold) }

/-- A context at ROUTE END: IDLE, timers and the owed summary gone, totals kept (R95); GAP, its mark, DOOR_OPEN and the last valid
sample stay as they stand (log 60). -/
def Ctx.stopped (x : Ctx) : Ctx :=
  { x with thermal := .idle, intervalStart := none, episodeStart := none, episodePeak := none, gapExpiry := none,
           summaryOwed := false }

def Part.stopContexts (p : Part) : Part := { p with ctxs := p.ctxs.map Ctx.stopped }

/-! ## Warm restart (R115, R201) -/

/-- The budget test of a LOADED consignment at the closing of an interval (R105, R115 step 2). -/
def Part.budgetTest (c i : Nat) (p : Part) : Part :=
  match p.consAt i with
  | none => p
  | some k =>
    if k.isLoaded && k.comp == c && !k.flags.breached && decide ((p.classOfComp c).budget.toNat < k.excessSince (p.ctx c))
    then
      p
      |> Part.modCons i (fun k => { k with flags := { k.flags with breached := true } })
      |> Part.alert k false true triggerBudget blank
    else p

/-- The open interval of compartment `c` is closed at the supply-fail time and the timers go on from `tr` (R115). -/
def Part.closeAtRestart (tf tr : Nat) (p : Part) (c : Nat) : Part :=
  if (p.ctx c).thermal = .idle then p
  else
    let k := p.classOfComp c
    let q := p |> Part.modCtx c (Ctx.account k tf)
    (List.range 32).foldl (fun p i => p.budgetTest c i) q
    |> Part.modCtx c (fun x =>
        { x with intervalStart := some tr, doorSecs := 0,
                 gapExpiry := if x.gap then x.gapExpiry else some (tr + k.gapCap),
                 gapMark := if x.gap then some (tr + k.gapCap) else x.gapMark })

/-- The compartments an outage is charged to: not IDLE and holding a LOADED consignment (R93, R201). -/
def Part.chargedComps (p : Part) : List Nat :=
  (List.range 8).filter (fun c => (p.ctx c).thermal != .idle && p.countLoaded (fun k => k.comp == c) != 0)

/-- The outage is added to the gap totals of the compartments `cs`, and `gap_seen` set on their LOADED consignments. -/
def Part.chargeOutage (secs : Nat) (cs : List Nat) (p : Part) : Part :=
  cs.foldl (fun p c =>
    p
    |> Part.modCtx c (fun x => { x with gapSecs := sat32 (x.gapSecs + secs) })
    |> Part.mapLoaded (fun k => k.comp == c) (fun k => { k with flags := { k.flags with gapSeen := true } })) p

end Sys2Proof.Machine
end

