-- ==== Sys2Proof/Machine/Consignments.lean ====
section
/-! DEFINITION. The consignment engine (chapter 7): requests, answers, figures, verdicts, evidence faults, release. -/

namespace Sys2Proof.Machine

/-- An answer record before its stamp tail (R20). -/
structure Answer where
  kind : Kind
  body : List Word
deriving DecidableEq, Repr

/-- The entry in use that holds an id, with its index (R139: ids are unique). -/
def Part.consById (p : Part) (id : DWord) : Option (Nat × Consignment) :=
  (List.range 32).findSome? (fun i =>
    match p.consAt i with
    | some k => if k.id = id then some (i, k) else none
    | none => none)

/-- The free entry with the lowest index (R140). -/
def Part.freeCons (p : Part) : Option Nat := (List.range 32).find? (fun i => (p.consAt i).isNone)

/-! ## Figures and verdicts (R151, R152) -/

/-- The four figures of an entry: its closing figures, or those of its compartment's context (R151). -/
def Part.figures (p : Part) (k : Consignment) : Figures :=
  match k.closing with
  | some f => f
  | none =>
    let x := p.ctx k.comp
    let excess := x.excess - k.base.excess
    { excursion := x.excursionSecs - k.base.excursion
      excess := excess
      door := min (x.doorExcess - k.base.door) excess
      gap := x.gapSecs - k.base.gap + x.openGap p.clock.now }

def Figures.zero : Figures := { excursion := 0, excess := 0, door := 0, gap := 0 }

/-- The worst reading is above the hold limit. -/
def Consignment.worstAbove (k : Consignment) (hold : Word) : Bool :=
  match k.worst with
  | some r => decide (hold.toInt < r)
  | none => false

/-- The verdict of an accepted DELIVERY or UNLOAD (R152). -/
def Consignment.verdict (k : Consignment) (f : Figures) (hold : Word) : Verdict :=
  if k.flags.condemned then .condemned
  else if k.flags.sealBroken then .sealBroken
  else if k.flags.breached then (if f.excess < 2 * f.door then .breachHandling else .breachRefrigeration)
  else if k.flags.gapSeen || k.flags.eventsWithheld || k.flags.evidenceFault || k.flags.evidenceReset then
    .evidenceIncomplete
  else if decide (0 < f.excursion) || k.worstAbove hold || k.flags.softCrossed || k.flags.handoverWarm then .minorExcursion
  else .clean

/-! ## Answer bodies (R144, R153, R154, R212) -/

/-- The body of a LOAD_ACK. -/
def loadAckBody (b : LoadBody) (outcome : LoadOutcome) (index classIndex classCode : Word) : List Word :=
  dwords b.id ++ [outcome.code, index, b.comp, classIndex, classCode, wordOf b.quantity, b.product]

/-- The body of a PROOF. -/
def proofBody (id : DWord) (stop : Word) (v : Verdict) (flags : Flags) (drops : Nat) (quantity : Nat) (worst : Option Int)
    (f : Figures) (openings dwells : Nat) : List Word :=
  dwords id
    ++ [stop, flags.word ||| (wordOf (satAt 7 drops) <<< 9) ||| (v.code <<< 12), wordOf quantity, tempWord? worst,
        wordOf (minutes f.excursion), wordOf (minutes f.excess), wordOf (minutes f.door), wordOf (minutes f.gap),
        bytesWord (sat8 openings) (sat8 dwells)]

/-- The PROOF of an entry as it stands. -/
def Part.proofOf (p : Part) (id : DWord) (stop : Word) (v : Verdict) (quantity : Nat) (k : Consignment) : Answer :=
  { kind := .proof, body := proofBody id stop v k.flags k.drops quantity k.worst (p.figures k) k.openings k.dwells }

/-- The PROOF of an error: of the entry that holds the id, or empty (R153). -/
def Part.errorProof (p : Part) (id : DWord) (stop : Word) (v : Verdict) (quantity : Nat) : Answer :=
  match p.consById id with
  | some (_, k) => p.proofOf id stop v quantity k
  | none => { kind := .proof, body := proofBody id stop v Flags.clear 0 quantity none Figures.zero 0 0 }

/-! ## LOAD (R144, R145) -/

/-- The first check of R144 that fails. -/
def Part.loadFailure (b : LoadBody) (p : Part) : Option LoadOutcome :=
  if !p.routeLoaded then some .routeNotLoaded
  else if b.id = 0 then some .idZero
  else if b.quantity = 0 then some .quantityZero
  else if (p.consById b.id).isSome then some .idPresent
  else if !p.compEnabled b.comp.toNat then some .compartmentDisabled
  else if p.freeCons.isNone then some .tableFull
  else none

/-- The class index and code a LOAD_ACK carries (R144). -/
def Part.classWords (b : LoadBody) (p : Part) : Word × Word :=
  let c := b.comp.toNat
  if p.compEnabled c then ((p.sheet.comp c).cls, (p.classOfComp c).code) else (blank, blank)

/-- The entry an accepted LOAD creates (R145); in a compartment in GAP it is `gap_seen` at once (R110). -/
def Part.newConsignment (b : LoadBody) (t : Nat) (p : Part) : Consignment :=
  let c := b.comp.toNat
  let x := p.ctx c
  { id := b.id, comp := c, cls := (p.sheet.comp c).cls.toNat, loaded := b.quantity, remaining := b.quantity, loadTime := t,
    base := { excursion := x.excursionSecs, excess := x.excess, door := x.doorExcess, gap := x.gapSecs },
    closing := none, worst := none, flags := { Flags.clear with gapSeen := x.gap }, openings := 0, dwells := 0, drops := 0,
    state := .loaded }

/-- A LOAD at its commit (R144, R145). -/
def Part.loadRequest (ws : List Word) (t : Nat) (p : Part) : Answer × Part :=
  let b := LoadBody.ofWords ws
  let (ci, cc) := p.classWords b
  let refusal (o : LoadOutcome) : Answer × Part := ({ kind := .loadAck, body := loadAckBody b o blank ci cc }, p)
  match p.loadFailure b with
  | some o => refusal o
  | none =>
    match p.freeCons with
    | none => refusal .tableFull
    | some i =>
      ({ kind := .loadAck, body := loadAckBody b .accepted (wordOf i) ci cc },
        { p with cons := p.cons.set i (some (p.newConsignment b t)) })

/-! ## DELIVERY and UNLOAD (R146 to R150) -/

/-- An entry leaves LOADED with its closing figures (R150). -/
def Part.leaveLoaded (i : Nat) (st : ConsState) (p : Part) : Part :=
  p.modCons i (fun k => { k with closing := some (p.figures k), state := st })

/-- The quantity agrees with the kind (check 5 of R146). -/
def DeliveryBody.quantityAgrees (b : DeliveryBody) (k : Consignment) : Bool :=
  if b.kind = deliveryFull then b.quantity == k.remaining else decide (1 ≤ b.quantity ∧ b.quantity ≤ k.remaining)

/-- The first check of R146 that fails, or the entry the DELIVERY is for. -/
def Part.deliveryTarget (b : DeliveryBody) (p : Part) : Except Verdict (Nat × Consignment) :=
  if p.route.state = .halted then .error .routeHalted
  else
    match p.consById b.id with
    | none => .error .unknownConsignment
    | some (i, k) =>
      if !k.isLoaded then .error .notOnBoard
      else if 2 < b.kind.toNat || b.stop == 0 then .error .badRequest
      else if !b.quantityAgrees k then .error .quantityMismatch
      else .ok (i, k)

/-- The hand-over reading is judged (R147). -/
def Part.judgeHandover (reading : Word) (i : Nat) (k : Consignment) (p : Part) : Part :=
  let cls := p.sheet.cls k.cls
  match validTemp reading with
  | none => p
  | some r =>
    let warm := decide (cls.hold.toInt < r)
    let soft := decide (cls.soft.toInt < r)
    let q := p.modCons i (fun k =>
      { k with flags := { k.flags with handoverWarm := k.flags.handoverWarm || warm,
                                       condemned := k.flags.condemned || soft } })
    if soft && !k.flags.condemned then q.alert k true false triggerHandover reading else q

/-- An accepted DELIVERY acts on its entry (R148). -/
def Part.applyDelivery (b : DeliveryBody) (i : Nat) (p : Part) : Part :=
  if b.kind = deliveryRefused then p.modCons i (fun k => { k with drops := sat16 (k.drops + 1) })
  else
    let q := p.modCons i (fun k => { k with remaining := k.remaining - b.quantity })
    match q.consAt i with
    | some k => if k.remaining = 0 then q.leaveLoaded i .done else q
    | none => q

/-- The PROOF of table entry `i` after its request was accepted (R151, R152, R154). -/
def Part.acceptedProof (p : Part) (id : DWord) (stop : Word) (quantity : Nat) (i : Nat) : Answer :=
  match p.consAt i with
  | some k => p.proofOf id stop (k.verdict (p.figures k) (p.sheet.cls k.cls).hold) quantity k
  | none => p.errorProof id stop .unknownConsignment quantity

/-- A DELIVERY at its commit (R146 to R148, R153). -/
def Part.deliveryRequest (ws : List Word) (p : Part) : Answer × Part :=
  let b := DeliveryBody.ofWords ws
  match p.deliveryTarget b with
  | .error v => (p.errorProof b.id b.stop v b.quantity, p)
  | .ok (i, k) =>
    let q := p |> Part.judgeHandover b.reading i k |> Part.applyDelivery b i
    (q.acceptedProof b.id b.stop b.quantity i, q)

/-- The first check of R149 that fails, or the entry the UNLOAD is for. -/
def Part.unloadTarget (id : DWord) (p : Part) : Except Verdict (Nat × Consignment) :=
  if p.route.state = .halted then .error .routeHalted
  else
    match p.consById id with
    | none => .error .unknownConsignment
    | some (i, k) => if k.isLoaded then .ok (i, k) else .error .notOnBoard

/-- An UNLOAD at its commit (R149, R153). -/
def Part.unloadRequest (ws : List Word) (p : Part) : Answer × Part :=
  let id := unloadId ws
  match p.unloadTarget id with
  | .error v => (p.errorProof id 0 v 0, p)
  | .ok (i, k) =>
    let q := p.leaveLoaded i .returned
    (q.acceptedProof id 0 k.remaining i, q)

/-- The answer to a request, computed at its commit (R143). -/
def Part.answerRequest (k : Kind) (ws : List Word) (t : Nat) (p : Part) : Answer × Part :=
  match k with
  | .load => p.loadRequest ws t
  | .unload => p.unloadRequest ws
  | _ => p.deliveryRequest ws

/-! ## Evidence faults (R157) and release (R158) -/

/-- A fault of segment `n` sets `evidence_fault` on the LOADED entries it concerns (R157). -/
def Part.evidenceFault (n : Nat) (p : Part) : Part :=
  match p.seg n with
  | none => p
  | some e =>
    if e.stream = some .sample ∨ e.stream = some .event then
      p.mapLoaded (fun k => decide (k.loadTime ≤ e.closeTime.getD p.clock.now) && p.compEnabled k.comp)
        (fun k => { k with flags := { k.flags with evidenceFault := true } })
    else p

/-- How many entries are in a state. -/
def Part.countState (st : ConsState) (p : Part) : Nat :=
  (p.cons.filter (fun o => match o with | some k => k.state == st | none => false)).length

/-- Every entry is freed (R158). -/
def Part.releaseCons (p : Part) : Part := { p with cons := List.replicate 32 none }

end Sys2Proof.Machine
end

