-- ==== Sys2Proof/Machine/Slots.lean ====
section
/-! DEFINITION. The two long-operation slots (R73), the start of a VERIFY (R164), the beginning of scrub steps (R187 to R189),
and what follows when a slot changes. -/

namespace Sys2Proof.Machine

/-! ## The claim table -/

def Part.claim (p : Part) (i : Nat) : Claim := p.claims.getD i Claim.free

def Part.modClaim (i : Nat) (f : Claim → Claim) (p : Part) : Part := { p with claims := p.claims.modify i f }

/-- An entry in use (R162). -/
def Claim.inUse (c : Claim) : Bool := c.state != .closed

/-- The LOCATE tallies before the walk has taken a segment (R164, R166). -/
def Locate.start : Locate :=
  { number := 0, seg := 0, slot := none, proof := none, newest := none, delivered := 0 }

def ChainCheck.start (n : Nat) : ChainCheck := { seg := n, slot := 0, limit := none, exit := none, chain := 0 }

def Collect.start : Collect :=
  { todo := [], slot := 1, samples := 0, gapSecs := 0, starts := [], lastEnd := none, proofs := [], more := false }

/-- A VERIFY at its start: phase LOCATE, count done 0 (R164). -/
def Verify.start (i : Nat) : Verify :=
  { claim := i, suspended := false, phase := .locate, count := 0, locate := .start, todo := [], check := .start 0,
    checked := [], collect := .start, extracts := [] }

/-- The retire/format slot permits the start of a VERIFY (R73). -/
def Part.slotPermits (p : Part) : Bool :=
  p.retire.state == .empty || p.retire.state == .collecting || p.retire.state == .suspended

/-- The VERIFY of the claim at the head of the queue starts, if both slots permit (R164). -/
def Part.startVerify (p : Part) : Part :=
  match p.verify, p.claimQueue with
  | none, i :: rest =>
    if p.slotPermits then
      { p with claimQueue := rest, verify := some (Verify.start i) } |> Part.modClaim i (fun c => { c with state := .verifying })
    else p
  | _, _ => p

/-! ## Scrub steps -/

/-- The segment after `n`, from N_SEG - 1 back to 1. -/
def Part.segAfter (p : Part) (n : Nat) : Nat := if n + 1 < p.store.nSeg then n + 1 else 1

def Part.segIsClosed (p : Part) (n : Nat) : Bool :=
  match p.seg n with
  | some e => e.state == .closed
  | none => false

/-- The first CLOSED segment from the scrub pointer on, in ascending order and round (R189). -/
def Part.scrubChoice (p : Part) : Option Nat :=
  (p.recordSegs.filter (fun n => p.scrub.pointer ≤ n) ++ p.recordSegs.filter (fun n => n < p.scrub.pointer)).find?
    p.segIsClosed

/-- A step begins, with `owed` steps left, and the pointer moves to its segment; with no CLOSED segment it checks nothing, and so
would every owed step after it (R189; log 46). -/
def Part.beginStep (owed : Nat) (p : Part) : Part :=
  match p.scrubChoice with
  | none => { p with scrub := { p.scrub with owed := 0, step := none } }
  | some n =>
    { p with scrub := { p.scrub with pointer := n, owed := owed, step := some { check := .start n, abandoned := false } } }

/-- A step in progress is abandoned at the end of its burst, or at once between bursts; the pointer stays on its segment (R189). -/
def Part.abandonStep (p : Part) : Part :=
  match p.scrub.step with
  | none => p
  | some st =>
    if p.arb.burst = some .scrub then { p with scrub := { p.scrub with step := some { st with abandoned := true } } }
    else { p with scrub := { p.scrub with step := none, owed := sat8 (p.scrub.owed + 1) } }

/-- A running long operation abandons a step in progress; else, when a step has ended or a long operation has stopped (`ended`),
an owed step begins (R189). -/
def Part.scrubTurn (ended : Bool) (p : Part) : Part :=
  if p.longRunning then p.abandonStep
  else if ended ∧ p.scrub.step.isNone ∧ 0 < p.scrub.owed then p.beginStep (p.scrub.owed - 1) else p

/-! ## A slot has changed -/

/-- A WAITING batch begins to blank when the VERIFY leaves RUNNING (R73). -/
def Part.beginWaiting (p : Part) : Part :=
  if p.retire.state = .waiting ∧ !p.verifyRunning then { p with retire := { p.retire with state := .blanking } } else p

/-- What follows at once when a slot or the claim queue has changed; `ended` says that a long operation has stopped running
(R73, R164, R189). -/
def Part.slotsChanged (ended : Bool) (p : Part) : Part := p |> Part.beginWaiting |> Part.startVerify |> Part.scrubTurn ended

/-- A COLLECTING batch is discarded (R61, R62, R181). -/
def Part.discardCollecting (p : Part) : Part :=
  if p.retire.state = .collecting then { p with retire := { p.retire with state := .empty, batch := none } } else p

/-- The mode leaves SERVICE for GUARDED (R61, R62). -/
def Part.leaveService (p : Part) : Part := { p with mode := .guarded } |> Part.discardCollecting |> Part.slotsChanged false

/-- A long operation is making a burst of requester 3 (R74, R76, R177). -/
def Part.inLongBurst (p : Part) : Bool := p.arb.burst == some .longOperation

end Sys2Proof.Machine
end

