-- ==== Sys2Proof/Machine/Assembly.lean ====
section
/-! DEFINITION. The record assembler (chapter 2): commits and broken records, the answers of R20, and what waited for a
record under assembly: a WHERE (R66) and the closing of R24. -/

namespace Sys2Proof.Machine

/-! ## WHERE (R66) -/

/-- The five result words of WHERE. -/
def Part.whereResults (st : Stream) (p : Part) : List Word :=
  let e := p.stream st
  words32 (slotAddr (e.openSeg.getD 0) (e.append.getD 0)) ++ dwords e.nextRec ++ [wordOf (e.openSeg.getD 0)]

/-- Steps 2 to 4 of R66 for a stream; `finish` places the outcome. -/
def Part.decideWhere (st : Stream) (finish : CmdState → CmdOutcome → List Word → Part → Part) (p : Part) : Part :=
  if (p.stream st).stalled then finish .refused .storeFull [] p
  else
    let q := if (p.stream st).openSeg.isSome then p else p.needSegment st
    if (q.stream st).openSeg.isSome then finish .done .ok (q.whereResults st) q else finish .refused .storeFull [] q

/-- A WHERE that waited for the record under assembly of its stream is decided (R66). -/
def Part.wakeWhere (st : Stream) (p : Part) : Part :=
  if p.isRunning (.whereIs st) then p.decideWhere st Part.endRunning else p

/-! ## The end of an assembly -/

/-- The route close waited for the record under assembly in this stream: its segment closes, and the close ends (R24, R87). A
DELIVERY request in slot 1,023 has closed its own segment by then, and what closes is the one opened for its answer (log 43). -/
def Part.finishClose (st : Stream) (p : Part) : Part :=
  if p.route.closeWait = some st then
    let q := match (p.stream st).openSeg with
      | some n => p.closeSegment st n
      | none => p
    { q with route := { q.route with closePending := false, closeWait := none } }
  else p

/-- What follows the commit or voiding of a record of a stream. -/
def Part.afterAssembly (st : Stream) (p : Part) : Part := p |> Part.finishClose st |> Part.wakeWhere st

/-- A stream whose segment closes with its last record needs a new one, unless ROUTE END is closing it (R23, R24; log 43). -/
def Part.rollsOver (p : Part) (st : Stream) : Bool := p.route.closeWait != some st

/-! ## Broken records (R42) -/

/-- The words of the VOID record that replaces a record under assembly (R7, R42). -/
def Assembly.voidWords (a : Assembly) (t : Nat) (seed : DWord) : List Word := recordWords .void (a.words.drop 1) t seed

/-- The record under assembly is voided at route clock `t` (R42, R43); `direct` says that its VOID record is written. -/
def Part.voidAssembly (t : Nat) (direct : Bool) (p : Part) : Part :=
  match p.asm with
  | none => p
  | some a =>
    let words := a.voidWords t (p.stream a.stream).running
    let q := { p with asm := none }
      |> Part.noteReceipt t
      |> Part.advanceStream a.stream a.seg (recordChainField words)
    let r := if direct then q.pushDirect { kind := .void, seg := a.seg, slot := a.slot, words := words } else q
    r
    |> Part.slotConsumed a.stream a.seg a.slot (p.rollsOver a.stream)
    |> Part.raise causeRecordBroken
    |> Part.afterAssembly a.stream

/-! ## Commit (R20, R40) -/

/-- The answer takes slot `s` of segment `n` and joins the direct write list (R20). Its seed is the running chain: the request's
chain in the next slot, the header's in slot 1 of a new segment (R7, R21; log 56). -/
def Part.placeAnswer (ans : Answer) (t n s : Nat) (p : Part) : Part :=
  let words := recordWords ans.kind ans.body t (p.stream .delivery).running
  p
  |> Part.advanceStream .delivery n (recordChainField words)
  |> Part.modStream .delivery (fun e => { e with reserved := some (n, s) })
  |> Part.pushDirect { kind := .answer, seg := n, slot := s, words := words }
  |> Part.slotConsumed .delivery n s (p.rollsOver .delivery)

/-- The answer to a request in slot `s` of segment `n`: the next slot, or slot 1 of a new segment (R20, R40). -/
def Part.commitAnswer (ans : Answer) (t n s : Nat) (p : Part) : Part :=
  if s < 1023 then p.placeAnswer ans t n (s + 1)
  else
    let q := p |> Part.slotConsumed .delivery n s false |> Part.openSegment .delivery
    match (q.stream .delivery).openSeg with
    | some m => q.placeAnswer ans t m 1
    | none => q

/-- The record under assembly commits (R40, R41). -/
def Part.commitRecord (p : Part) : Part :=
  match p.asm with
  | none => p
  | some a =>
    let t := a.receipt.getD p.clock.now
    let chain := a.chain.getD 0
    let q := { p with asm := none }
    if a.kind = .sample then
      q
      |> Part.advanceStream a.stream a.seg chain
      |> Part.slotConsumed a.stream a.seg a.slot (p.rollsOver a.stream)
      |> Part.consumeSample a.words t
      |> Part.afterAssembly a.stream
    else
      let (ans, r) := q.answerRequest a.kind a.words t
      r
      |> Part.advanceStream a.stream a.seg chain
      |> (fun r => if a.slot < 1023 ∧ (r.stream a.stream).openSeg ≠ some a.seg
            then r.slotConsumed a.stream a.seg a.slot false else r)
      |> Part.commitAnswer ans t a.seg a.slot
      |> Part.afterAssembly a.stream

end Sys2Proof.Machine
end

