-- ==== Sys2Proof/Machine/Claims.lean ====
section
/-! DEFINITION. The claim verifier (chapter 8): the phases of a VERIFY, its ends, and the row-level steps VERIFY_START,
VERIFY_BURST (its part on the chip) and EXTRACT_RECORD_ADD. -/

namespace Sys2Proof.Machine

/-! ## Faults found by a check (R172, R178, R191) -/

/-- Findings are fixed: the claim is READY, or its VERIFY is in its WRITE phase (R178). -/
def Part.findingsFixed (p : Part) (i : Nat) (c : Claim) : Bool :=
  c.state == .ready ||
    (c.state == .verifying && (match p.verify with | some v => v.claim == i && v.phase == .write | none => false))

/-- A held segment has become FAULTED: `later_fault` on the claims whose findings are fixed (R178). -/
def Part.laterFault (n : Nat) (p : Part) : Part :=
  { p with claims := p.claims.mapIdx (fun i c =>
      if c.held.contains n && p.findingsFixed i c then { c with laterFault := true } else c) }

/-- The record sequence number of a slot, absent for slot 0 (R5, R172). -/
def SegEntry.seqOf (e : SegEntry) (s : Nat) : Option DWord :=
  if s = 0 then none else e.firstRec.map (fun f => f + BitVec.ofNat 32 (s - 1))

def causeScrub : Word := 0
def causeVerify : Word := 1

/-- The body of FAULT (R172, R191, R212). -/
def faultBody (n : Nat) (st : Option Stream) (s : Nat) (seq : Option DWord) (cause claim : Word) : List Word :=
  [wordOf n, (st.map Stream.code).getD blank, wordOf s] ++ dwords? seq ++ [cause, claim]

/-- A check faults segment `n` at slot `s`; its FAULT record carries `seq` (steps 2 to 5 of R172, R191). A segment already FAULTED
stays as it is. -/
def Part.checkFault (n s : Nat) (seq : Option DWord) (cause claim : Word) (p : Part) : Part :=
  match p.seg n with
  | none => p
  | some e =>
    if e.state = .opened ∨ e.state = .closed then
      p
      |> Part.faultSegment n
      |> Part.addFault (faultBody n e.stream s seq cause claim)
      |> Part.raise causeEvidenceFault
      |> Part.evidenceFault n
      |> Part.laterFault n
    else p

/-! ## Chain comparison (R171, R190) -/

/-- Slot 0 agrees with the segment's entry, and its chain is right. -/
def headerAgrees (e : SegEntry) (ws : List Word) : Bool :=
  wordAt ws 0 == Kind.header.headerWord && e.stream.map Stream.code == some (wordAt ws 2)
    && e.segSeq == some (wordAt ws 3) && e.firstRec == some (dwordAt ws 4) && e.entryChain == some (dwordAt ws 6)
    && recordChain (e.entryChain.getD 0) ws == recordChainField ws

/-- A later slot carries a kind of the stream, and its chain, seeded with the slot before, is right. -/
def slotAgrees (e : SegEntry) (seed : DWord) (ws : List Word) : Bool :=
  (match e.stream, Kind.ofHeader (wordAt ws 0) with
   | some st, some k => st.carries k
   | _, _ => false) && recordChain seed ws == recordChainField ws

/-- What one slot read did to a chain check; a mismatch is that of the slot's record, or of the exit chain beyond it. -/
inductive CheckResult where
  | more (c : ChainCheck)
  | passed
  | mismatch (exit : Bool)
deriving DecidableEq, Repr

/-- Compares the slot read and moves on (R171, R190). -/
def ChainCheck.advance (c : ChainCheck) (e : SegEntry) (ws : List Word) : CheckResult :=
  let agrees := if c.slot = 0 then headerAgrees e ws else slotAgrees e c.chain ws
  if !agrees then .mismatch false
  else if c.slot < c.limit.getD 0 then .more { c with slot := c.slot + 1, chain := recordChainField ws }
  else match c.exit with
    | none => .passed
    | some x => if x = recordChainField ws then .passed else .mismatch true

/-- The limit and the exit chain are fixed when the first burst of the segment is granted (R171, R190; log 21). -/
def ChainCheck.fix (c : ChainCheck) (e : SegEntry) : ChainCheck :=
  match c.limit with
  | some _ => c
  | none =>
    { c with limit := some (e.count.getD 0)
             exit := if e.state = .closed ∨ e.state = .faulted then e.exitChain else none }

/-! ## Ends of a VERIFY (R175) -/

/-- The verify slot becomes EMPTY and OP_DONE is raised (R77, R175). -/
def Part.vacateVerify (p : Part) : Part := { p with verify := none } |> Part.raise causeOpDone

/-- The VERIFY has ended, and the slots move on (R73). -/
def Part.emptyVerify (p : Part) : Part := p.vacateVerify |> Part.slotsChanged p.verifyRunning

/-- The VERIFY has completed (R174, R175). -/
def Part.completeVerify (i : Nat) (p : Part) : Part :=
  p |> Part.modClaim i (fun c => { c with state := .ready }) |> Part.raise causeClaimReady |> Part.emptyVerify

/-- A claim's holds are released and its entry is freed (R177). -/
def Part.freeClaim (i : Nat) (p : Part) : Part :=
  (p.claim i).held.foldl (fun p n => p.modSeg n (fun e => { e with holds := e.holds - 1 })) p
  |> Part.modClaim i (fun _ => Claim.free)

/-- CLAIM CLOSE ends the VERIFY of its claim (R175, R177). -/
def Part.closeVerify (i : Nat) (p : Part) : Part := p |> Part.freeClaim i |> Part.emptyVerify

/-! ## WRITE (R174) -/

/-- The body of EXTRACT_SUMMARY (R174, R212). The compartment's field has four bits (log 55). -/
def summaryBody (i : Nat) (c : Claim) : List Word :=
  [wordOf i ||| (wordOf (c.comp.getD 15 % 16) <<< 3) ||| ((c.integrity.getD .aborted).code <<< 7)
      ||| bit c.retiredRange 10 ||| bit c.listTruncated 11 ||| bit c.proofsOver 12
      ||| ((c.mismatch.map (fun m => m.stream.code)).getD 7 <<< 13)]
    ++ dwords? c.id ++ words32? c.windowStart ++ words32? c.windowEnd ++ dwords? (c.mismatch.bind (fun m => m.seq))
    ++ [wordOf (satAt 2047 (c.samples.getD 0)) ||| (wordOf (c.proofs.getD 0) <<< 11), wordOf (c.gapMinutes.getD 0)]

/-- The body of EXTRACT_PROOF (R174, R212); `k` is the ordinal, from 1. -/
def extractProofBody (i k : Nat) (f : ProofFinding) : List Word :=
  [bytesWord i k] ++ dwords f.seq ++ words32 f.receipt ++ [f.stop, f.word4]

/-- The extract of a claim: the summary, then its proofs in order. -/
def extractsOf (i : Nat) (c : Claim) (proofs : List ProofFinding) : List (Kind × List Word) :=
  (.extractSummary, summaryBody i c) :: proofs.mapIdx (fun k f => (.extractProof, extractProofBody i (k + 1) f))

/-- The WRITE phase begins. -/
def Part.beginWrite (v : Verify) (proofs : List ProofFinding) (p : Part) : Part :=
  { p with verify := some { v with phase := .write, count := 0, extracts := extractsOf v.claim (p.claim v.claim) proofs } }

/-- The next extract record joins the queue; the last one completes the VERIFY (R174). -/
def Part.addExtract (v : Verify) (p : Part) : Part :=
  match v.extracts with
  | [] => p.completeVerify v.claim
  | (k, body) :: rest =>
    let q := { p with verify := some { v with extracts := rest, count := v.count + 1 } } |> Part.addRecord .claim k body
    if rest.isEmpty then q.completeVerify v.claim else q

/-- EXTRACT_RECORD_ADD may come about: five free entries, CLAIM not stalled, a running VERIFY in WRITE (R174). -/
def Part.extractStep (p : Part) : Part :=
  match p.verify with
  | none => p
  | some v =>
    if v.phase = .write ∧ !v.suspended ∧ 5 ≤ p.freeEntries ∧ !(p.stream .claim).stalled then p.addExtract v else p

/-! ## COLLECT (R173) -/

/-- The seconds of a span that lie within the window. -/
def clip (lo hi a b : Nat) : Nat := min b hi - max a lo

/-- Proofs gathered stay in stream order; the first 16 are kept (R173). -/
def Collect.addProof (f : ProofFinding) (x : Collect) : Collect :=
  let all := x.proofs.filter (fun g => g.seq.toNat < f.seq.toNat) ++ [f]
    ++ x.proofs.filter (fun g => f.seq.toNat ≤ g.seq.toNat)
  { x with proofs := all.take 16, more := x.more || decide (16 < all.length) }

/-- A compartment is in the set in the low byte of an OUTAGE's word 8 (R202). -/
def outageHas (ws : List Word) (c : Nat) : Bool := decide (c < 8) && (wordAt ws 8).getLsbD c

/-- The latest record number of the GAP_ENDs met. -/
def laterSeq (o : Option DWord) (s : DWord) : Option DWord :=
  match o with
  | some t => if t.toNat < s.toNat then some s else some t
  | none => some s

/-- One record read by the COLLECT phase (R173; log 23); `lo` to `hi` is the window. -/
def Collect.take (x : Collect) (st : Stream) (seq : DWord) (id : DWord) (comp lo hi : Nat) (ws : List Word) : Collect :=
  let t := recordReceipt ws
  let counts := decide (lo ≤ t ∧ t ≤ hi)
  let own := decide ((wordAt ws 1).toNat = comp)
  match st, Kind.ofHeader (wordAt ws 0) with
  | .sample, some .sample =>
    if counts && decide ((wordAt ws 3).toNat = comp) then { x with samples := sat16 (x.samples + 1) } else x
  | .event, some .gapEnd =>
    if own then
      { x with lastEnd := laterSeq x.lastEnd seq
               gapSecs := if counts then x.gapSecs + clip lo hi (num32At ws 2) (num32At ws 4) else x.gapSecs }
    else x
  | .event, some .gapStart => if own && counts then { x with starts := x.starts ++ [(seq, num32At ws 4)] } else x
  | .event, some .outage =>
    if counts && outageHas ws comp then
      { x with gapSecs := x.gapSecs + min (num32At ws 5) (clip lo hi (num32At ws 1) (num32At ws 3)) }
    else x
  | .delivery, some .proof =>
    if counts && dwordAt ws 1 == id then
      x.addProof { seq := seq, receipt := t, stop := wordAt ws 3, word4 := wordAt ws 4 }
    else x
  | _, _ => x

/-- GAP_STARTs with no later GAP_END contribute to the window end (R173). -/
def Collect.openSecs (x : Collect) (lo hi : Nat) : Nat :=
  (x.starts.map (fun s =>
    let ended := match x.lastEnd with | some e => decide (s.1.toNat < e.toNat) | none => false
    if ended then 0 else clip lo hi s.2 hi)).sum

/-- The integrity as the findings are fixed (R173). -/
def Part.integrityOf (c : Claim) (p : Part) : Integrity :=
  let faulted := c.held.any (fun n => match p.seg n with | some e => e.state == .faulted | none => false)
  if c.mismatch.isSome || faulted then .damaged
  else if c.retiredRange || c.listTruncated then .incomplete
  else .intact

/-- The claim with what the COLLECT phase has gathered (R173): samples, proofs, gap minutes. -/
def Claim.gathered (x : Collect) (c : Claim) : Claim :=
  { c with samples := some x.samples, proofs := some x.proofs.length, proofsOver := x.more
           gapMinutes := some (minutes (x.gapSecs + x.openSecs (c.windowStart.getD 0) (c.windowEnd.getD 0))) }

/-- The COLLECT phase ends and the findings are fixed (R173). -/
def Part.fixFindings (v : Verify) (p : Part) : Part :=
  let q := p.modClaim v.claim (fun c => { c.gathered v.collect with integrity := some (p.integrityOf c) })
  q.beginWrite v v.collect.proofs

/-- The claim of a VERIFY ended early: READY with integrity ABORTED, its holds and the findings gathered so far kept (R175;
log 24). -/
def Part.abortClaim (v : Verify) (p : Part) : Part :=
  p
  |> Part.modClaim v.claim (fun c =>
      { (if v.phase = .collect then c.gathered v.collect else c) with state := .ready, integrity := some .aborted })
  |> Part.raise causeClaimReady

/-- The VERIFY is ended by TERMINATE or by a restart (R76, R175). -/
def Part.abortVerify (p : Part) : Part :=
  match p.verify with
  | none => p
  | some v => (p.abortClaim v).emptyVerify

/-- The COLLECT phase goes on with its next segment, or ends. -/
def Part.collectNext (v : Verify) (p : Part) : Part :=
  match v.collect.todo with
  | [] => p.fixFindings v
  | _ => { p with verify := some v }

/-- The COLLECT phase begins with the segments checked that have slots to read. -/
def Part.beginCollect (v : Verify) (p : Part) : Part :=
  p.collectNext { v with phase := .collect, count := 0,
                         collect := { Collect.start with todo := v.checked.filter (fun c => c.2 != 0) } }

/-- One slot read of the COLLECT phase; `ws` are its words. -/
def Part.collectSlot (v : Verify) (ws : List Word) (p : Part) : Part :=
  match v.collect.todo with
  | [] => p.fixFindings v
  | (n, last) :: rest =>
    let c := p.claim v.claim
    let x := v.collect
    let y := match p.seg n with
      | some e =>
        x.take (e.stream.getD .claim) ((e.seqOf x.slot).getD 0) (c.id.getD 0) (c.comp.getD 0) (c.windowStart.getD 0)
          (c.windowEnd.getD 0) ws
      | none => x
    let z := if x.slot < last then { y with slot := x.slot + 1 } else { y with todo := rest, slot := 1 }
    p.collectNext { v with count := v.count + 1, collect := z }

/-! ## CHECK (R171, R172) -/

/-- The CHECK phase goes on with its next segment, or ends. A COLLECT phase with nothing to read ends in the event that begins it
(log 54). -/
def Part.checkNext (v : Verify) (p : Part) : Part :=
  match v.todo with
  | [] => p.beginCollect v
  | n :: _ => { p with verify := some { v with check := .start n } }

/-- A CHECK phase with no segment to read ends at once, unless its VERIFY is suspended in it (R165; log 54). -/
def Part.passCheck (p : Part) : Part :=
  match p.verify with
  | none => p
  | some v => if v.phase = .check ∧ v.todo = [] ∧ !v.suspended then p.beginCollect v else p

/-- A segment's check has ended; the COLLECT phase may read its slots up to `last`. -/
def Part.checkEnded (v : Verify) (last : Nat) (p : Part) : Part :=
  p.checkNext { v with todo := v.todo.tail, checked := v.checked ++ [(v.check.seg, last)], count := v.count + 1 }

/-- A mismatch at the slot being checked, also one of the exit chain beyond its record (R172). -/
def Part.checkMismatch (v : Verify) (e : SegEntry) (p : Part) : Part :=
  let c := v.check
  p
  |> Part.modClaim v.claim (fun k =>
      if k.mismatch.isSome then k
      else { k with mismatch := some { stream := e.stream.getD .claim, seg := c.seg, slot := c.slot, seq := e.seqOf c.slot } })
  |> Part.checkFault c.seg c.slot (e.seqOf c.slot) causeVerify (wordOf v.claim)
  |> Part.checkEnded v (c.slot - 1)

/-- One slot read of the CHECK phase; `ws` are its words. -/
def Part.checkSlot (v : Verify) (ws : List Word) (p : Part) : Part :=
  match p.seg v.check.seg with
  | none => p.checkEnded v 0
  | some e =>
    match (v.check.fix e).advance e ws with
    | .more c => { p with verify := some { v with check := c } }
    | .passed => p.checkEnded v v.check.slot
    | .mismatch _ => p.checkMismatch v e

/-! ## HOLD (R168 to R170) -/

/-- The segment's span overlaps the window (R168). -/
def SegEntry.overlaps (e : SegEntry) (lo hi : Nat) : Bool :=
  (match e.openTime with | some t => decide (t ≤ hi) | none => false)
    && (e.state == .opened || (match e.closeTime with | some t => decide (lo ≤ t) | none => false))

def SegEntry.isEvidence (e : SegEntry) : Bool :=
  e.stream == some .sample || e.stream == some .event || e.stream == some .delivery

/-- OPEN, CLOSED or FAULTED. -/
def SegState.readable : SegState → Bool
  | .opened => true
  | .closed => true
  | .faulted => true
  | .blank => false
  | .retiring => false
  | .scrap => false

/-- A segment of the batch that is committed to blanking and not yet begun (R169). -/
def Part.committedToBlanking (n : Nat) (p : Part) : Bool :=
  match p.retire.batch with
  | some b => p.retire.state != .collecting && (b.segs.drop b.completed).contains n
  | none => false

/-- A COLLECTING batch gives up a segment; an emptied batch is discarded (R169). -/
def Part.unbatch (n : Nat) (p : Part) : Part :=
  match p.retire.state, p.retire.batch with
  | .collecting, some b =>
    let segs := b.segs.filter (· != n)
    if segs.isEmpty then { p with retire := { p.retire with state := .empty, batch := none } }
    else { p with retire := { p.retire with batch := some { b with segs := segs } } }
  | _, _ => p

/-- Claim `i` considers segment `n` for a hold (R168, R169). -/
def Part.considerHold (i lo hi : Nat) (p : Part) (n : Nat) : Part :=
  match p.seg n with
  | none => p
  | some e =>
    let flag (f : Claim → Claim) : Part := p.modClaim i f
    if !(e.isEvidence && e.overlaps lo hi) then p
    else if !e.state.readable then flag (fun c => { c with retiredRange := true })
    else if (p.claim i).listTruncated then p
    else if p.committedToBlanking n then flag (fun c => { c with retiredRange := true })
    else if 64 ≤ (p.claim i).held.length then flag (fun c => { c with listTruncated := true })
    else
      p
      |> Part.modSeg n (fun e => { e with holds := e.holds + 1 })
      |> Part.unbatch n
      |> Part.modClaim i (fun c => { c with held := c.held ++ [n] })

/-- The held segments of a stream cover the window (R170). -/
def Part.covered (st : Stream) (held : List Nat) (lo : Nat) (p : Part) : Bool :=
  let own := (held.filterMap p.seg).filter (fun e => e.stream == some st)
  let firsts := own.filter (fun e => !own.any (fun f => f.segSeq.map (· + 1) == e.segSeq))
  match own, firsts with
  | [], _ => true
  | _, [e] =>
    (match e.openTime with | some t => decide (t ≤ lo) | none => false)
      || e.segSeq == some 1
      || p.store.segs.any (fun f =>
          f.stream == some st && f.state.readable && f.segSeq.map (· + 1) == e.segSeq
            && (match f.closeTime with | some t => decide (t < lo) | none => false))
  | _, _ => false

/-- The HOLD phase, with the coverage test, leaves the VERIFY at the start of its CHECK phase (R165, R168 to R170). -/
def Part.holdPhase (v : Verify) (p : Part) : Part :=
  let i := v.claim
  let lo := (p.claim i).windowStart.getD 0
  let hi := (p.claim i).windowEnd.getD 0
  let q := p.recordSegs.foldl (Part.considerHold i lo hi) p
  let held := (q.claim i).held
  let r := if [Stream.sample, .event, .delivery].all (fun st => q.covered st held lo) then q
    else q.modClaim i (fun c => { c with retiredRange := true })
  { r with verify := some { v with phase := .check, count := 0, todo := held, checked := [], check := .start (held.headD 0) } }

/-! ## LOCATE (R166, R167) -/

/-- The segment the DELIVERY stream owns with a number, OPEN, CLOSED or FAULTED (R166). -/
def Part.streamSeg (st : Stream) (number : BitVec 16) (p : Part) : Option Nat :=
  p.recordSegs.find? (fun n =>
    match p.seg n with
    | some e => e.stream == some st && e.segSeq == some number && e.state.readable
    | none => false)

/-- The walk ends without an accepted LOAD_ACK: NOT_FOUND, and WRITE follows (R166, R167). -/
def Part.notFound (v : Verify) (number : BitVec 16) (p : Part) : Part :=
  p
  |> Part.modClaim v.claim (fun c =>
      { c with integrity := some .notFound, retiredRange := c.retiredRange || number != 0 })
  |> Part.beginWrite v []

/-- The walk takes the segment with a number, or ends (R166). -/
def Part.walkTo (v : Verify) (number : BitVec 16) (p : Part) : Part :=
  match p.streamSeg .delivery number with
  | some n =>
    { p with verify := some { v with count := v.count + 1,
                                     locate := { v.locate with number := number, seg := n, slot := none } } }
  | none => p.notFound v number

/-- Before a burst of the LOCATE phase the walk has a slot to read: segments without a committed slot are passed over (R166;
log 22). -/
def Part.fixWalk : Nat → Part → Part
  | 0, p => p
  | fuel + 1, p =>
    match p.verify with
    | none => p
    | some v =>
      if v.phase != .locate then p
      else if v.count = 0 then Part.fixWalk fuel (p.walkTo v ((p.stream .delivery).nextSeq - 1))
      else if v.locate.slot.isSome then p
      else
        let limit := match p.seg v.locate.seg with | some e => e.count.getD 0 | none => 0
        if limit = 0 then Part.fixWalk fuel (p.walkTo v (v.locate.number - 1))
        else { p with verify := some { v with locate := { v.locate with slot := some limit } } }

/-- A PROOF of the claim's id with an accepted verdict, CLEAN to CONDEMNED (R167). -/
def isAcceptedProof (id : DWord) (ws : List Word) : Bool :=
  wordAt ws 0 == Kind.proof.headerWord && dwordAt ws 1 == id && decide ((wordAt ws 4 >>> 12).toNat ≤ 6)

/-- An accepted LOAD_ACK of the claim's id (R166). -/
def isAcceptedLoad (id : DWord) (ws : List Word) : Bool :=
  wordAt ws 0 == Kind.loadAck.headerWord && dwordAt ws 1 == id && wordAt ws 3 == LoadOutcome.accepted.code

/-- The request of the PROOF read last is this slot: the tallies take the PROOF (R167). -/
def Locate.settle (x : Locate) (ws : List Word) : Locate :=
  match x.proof with
  | none => x
  | some (t, quantity) =>
    let unload := wordAt ws 0 == Kind.unload.headerWord
    let counted := wordAt ws 0 == Kind.delivery.headerWord
      && (wordAt ws 9 == deliveryFull || wordAt ws 9 == deliveryPartial)
    { x with proof := none
             newest := match x.newest with | some y => some y | none => some (t, unload)
             delivered := if counted then x.delivered + quantity else x.delivered }

/-- The accepted LOAD_ACK is found: compartment and window (R167). A damaged one may name a compartment above 7, which is kept as
it stands (log 55). -/
def Part.located (v : Verify) (x : Locate) (ws : List Word) (p : Part) : Part :=
  let quantity := (wordAt ws 8).toNat
  let windowEnd := match x.newest with
    | some (t, unload) => if unload || decide (quantity ≤ x.delivered) then t else p.clock.now
    | none => p.clock.now
  p
  |> Part.modClaim v.claim (fun c =>
      { c with comp := some (wordAt ws 5).toNat, windowStart := some (recordReceipt ws), windowEnd := some windowEnd })
  |> Part.holdPhase { v with locate := x }

/-- One slot read of the LOCATE phase; `ws` are its words (R166, R167). -/
def Part.locateSlot (v : Verify) (ws : List Word) (p : Part) : Part :=
  let id := (p.claim v.claim).id.getD 0
  let x := v.locate.settle ws
  if isAcceptedLoad id ws then p.located v x ws
  else
    let y := if isAcceptedProof id ws then { x with proof := some (recordReceipt ws, (wordAt ws 5).toNat) } else x
    match v.locate.slot with
    | some (k + 2) => { p with verify := some { v with locate := { y with slot := some (k + 1) } } }
    | _ => p.walkTo { v with locate := y } (y.number - 1)

/-! ## Bursts of a VERIFY -/

/-- The slot the next burst of a running VERIFY reads (R165). -/
def Verify.readAt (v : Verify) : Nat × Nat :=
  match v.phase with
  | .locate => (v.locate.seg, v.locate.slot.getD 0)
  | .check => (v.check.seg, v.check.slot)
  | .collect => ((v.collect.todo.head?.map Prod.fst).getD 0, v.collect.slot)
  | .hold => (0, 0)
  | .write => (0, 0)

/-- The slot read takes effect. -/
def Part.verifySlot (v : Verify) (ws : List Word) (p : Part) : Part :=
  match v.phase with
  | .locate => p.locateSlot v ws
  | .check => p.checkSlot v ws
  | .collect => p.collectSlot v ws
  | .hold => p
  | .write => p

/-- At the grant of its burst a VERIFY fixes what it reads: the walk's slot, or a segment's limit (R166, R171). A walk that
finds no segment ends, and makes no burst. -/
def Part.fixGrant (p : Part) : Part :=
  if p.verifyRunning then
    let q := Part.fixWalk 600 p
    match q.verify with
    | none => q
    | some v =>
      match v.phase with
      | .check =>
        match q.seg v.check.seg with
        | some e => { q with verify := some { v with check := v.check.fix e } }
        | none => q
      | .write => { q with arb := { q.arb with burst := none } } |> Part.arbitrate
      | _ => q
  else p

/-- The arbiter's grant to requester 3 or 4, with what the requester fixes at it (R46, R166, R171). -/
def Part.grantPort (p : Part) : Part :=
  if p.mayGrant then
    match p.lowGrant with
    | none => p
    | some .longOperation => (p.giveBurst .longOperation).fixGrant
    | some b => p.giveBurst b
  else p

/-- A VERIFY that resumes in its LOCATE phase first tests the segment it was reading (R166). -/
def Part.retestWalk (p : Part) : Part :=
  match p.verify with
  | none => p
  | some v =>
    if v.phase = .locate ∧ v.count ≠ 0 ∧ p.streamSeg .delivery v.locate.number ≠ some v.locate.seg then
      p.notFound v v.locate.number
    else p

end Sys2Proof.Machine
end

