-- ==== Sys2Proof/Machine/Scanner.lean ====
section
/-! DEFINITION. The contact scanner (chapter 6): visits, accepted changes, reports, dwell, line watch, starting and stopping. -/

namespace Sys2Proof.Machine

/-- The slots of the scan mode: 16 in STANDARD, 24 in EXTENDED (R117). -/
def Scanner.slotCount (x : Scanner) : Nat := if x.extended then 24 else 16

def Part.slot (p : Part) (k : Nat) : Slot := p.scan.slots.getD k Slot.cold

def Part.modSlot (k : Nat) (f : Slot → Slot) (p : Part) : Part :=
  { p with scan := { p.scan with slots := p.scan.slots.modify k f } }

/-- A consignment is in an enabled compartment that holds the slot (R122, R123, R126). -/
def Part.behindSlot (p : Part) (s : Nat) (k : Consignment) : Bool := (p.sheet.compsHolding s).contains k.comp

/-! ## Records (R134, R212) -/

/-- The body of DOOR_CHANGE and SEAL_CHANGE. -/
def changeBody (s : Nat) (state late : Bool) (changed : Nat) (previous detection : Option Nat)
    (openings comps count : Nat) : List Word :=
  [wordOf s ||| bit state 8 ||| bit late 9] ++ words32 changed ++ words32? previous ++ words32? detection
    ++ [wordOf openings, bytesWord comps (sat8 count)]

/-- The body of DOOR_STATUS; `x` is the slot as the visit leaves it. -/
def statusBody (s : Nat) (x : Slot) (raw rescan audit unconfirmed : Bool) (settled : Option Nat) : List Word :=
  [wordOf s ||| bit x.accepted 8 ||| bit raw 9 ||| (wordOf x.agree <<< 10) ||| bit rescan 12 ||| bit audit 13
      ||| bit unconfirmed 14]
    ++ words32? x.changedAt ++ [wordOf x.openings, wordOf (minutes x.openSecs)] ++ words32? settled

/-! ## Visits (R121 to R123, R130 to R133) -/

/-- The slot after an accepted change at `t`; openings rise on OPEN or BROKEN (R122, R123). -/
def Slot.accept (t : Nat) (x : Slot) : Slot :=
  { x with accepted := !x.accepted, agree := 0, changedAt := some t,
           openings := if x.accepted then x.openings else sat16 (x.openings + 1), dwellReported := false, watch := none }

/-- A change on contact slot `s` is accepted (R122). -/
def Part.acceptContact (s : Nat) (p : Part) : Part :=
  let x := p.slot s
  let y := x.accept p.clock.now
  let count := if y.accepted then p.countLoaded (p.behindSlot s) else 0
  let q := p
    |> Part.modSlot s (Slot.accept p.clock.now)
    |> Part.addRecord .event .doorChange
        (changeBody s y.accepted x.watch.isSome p.clock.now x.changedAt x.watch y.openings
          (compSet (p.sheet.compsHolding s)) count)
    |> Part.tellDoor s
  if y.accepted then q.mapLoaded (p.behindSlot s) (fun k => { k with openings := sat16 (k.openings + 1) }) else q

/-- A change on seal slot `s` is accepted (R123). -/
def Part.acceptSeal (s : Nat) (p : Part) : Part :=
  let x := p.slot s
  let y := x.accept p.clock.now
  let count := if y.accepted then p.countLoaded (fun k => p.behindSlot s k && !k.flags.sealBroken) else 0
  let q := p
    |> Part.modSlot s (Slot.accept p.clock.now)
    |> Part.addRecord .event .sealChange
        (changeBody s y.accepted x.watch.isSome p.clock.now x.changedAt x.watch y.openings
          (compSet (p.sheet.compsHolding s)) count)
  if y.accepted then
    q
    |> Part.mapLoaded (p.behindSlot s) (fun k => { k with flags := { k.flags with sealBroken := true } })
    |> Part.raise causeSealBroken
  else q

/-- The slot after a visit that accepts nothing (R121, R130). -/
def Slot.visited (differs : Bool) (x : Slot) : Slot :=
  if differs then { x with agree := x.agree + 1 } else { x with agree := 0, watch := none }

/-- A DOOR_STATUS of a visit joins the queue, or becomes the owed record (R133). -/
def Part.addStatus (body : List Word) (p : Part) : Part :=
  if 5 ≤ p.freeEntries then p.addRecord .event .doorStatus body
  else { p with scan := { p.scan with owed := some body } }

/-- The judgement of a visit: a third differing sample in a row is accepted (R121). -/
def Part.judgeVisit (s : Nat) (raw : Bool) (p : Part) : Part :=
  let x := p.slot s
  if raw != x.accepted && decide (2 ≤ x.agree) then (if s < 16 then p.acceptContact s else p.acceptSeal s)
  else p.modSlot s (Slot.visited (raw != x.accepted))

/-- A visit of slot `s` with raw level `raw`, made for a RESCAN, for an AUDIT pass, or for neither (R121, R130 to R133;
log 48). -/
def Part.visit (s : Nat) (raw rescan audit : Bool) (p : Part) : Part :=
  let x := p.slot s
  let differs := raw != x.accepted
  let unconfirmed := x.watch.isSome && !differs
  let settled := if differs && x.agree < 2 then none else x.watch
  let q := p.judgeVisit s raw
  if rescan || audit || unconfirmed then q.addStatus (statusBody s (q.slot s) raw rescan audit unconfirmed settled) else q

/-- The next visit of a RUNNING scanner: the rescan slot, or the scan position (R120, R131, R132). -/
def Part.scanVisit (lines : BitVec 24) (p : Part) : Part :=
  let q := { p with pins := { p.pins with lines := lines } }
  match p.scan.rescan with
  | some r => { q with scan := { q.scan with rescan := none } } |> Part.visit r (lines.getLsbD r) true false
  | none =>
    let s := p.scan.position
    let last := decide (p.scan.slotCount ≤ s + 1)
    let inPass := p.scan.audit == .inProgress || (p.scan.audit == .waiting && s == 0)
    let audit := if inPass then (if last then AuditState.none else .inProgress) else p.scan.audit
    { q with scan := { q.scan with position := if last then 0 else s + 1, audit := audit } }
    |> Part.visit s (lines.getLsbD s) false inPass

/-- SCAN_VISIT (R120, R121): a RUNNING scanner with five or more free entries. -/
def execScanVisit (lines : BitVec 24) (s : State) : Host.Outcome State Fault Refusal :=
  s.onRunning (fun p => if p.scan.run = .running ∧ 5 ≤ p.freeEntries then p.scanVisit lines else p)

/-! ## Line watch (R128) -/

/-- A watch sample of every slot of the scan mode. -/
def Part.watchLines (lines : BitVec 24) (p : Part) : Part :=
  { p with
    pins := { p.pins with lines := lines }
    scan := { p.scan with slots := p.scan.slots.mapIdx (fun k x =>
      if k < p.scan.slotCount ∧ lines.getLsbD k ≠ x.accepted ∧ x.watch = none then { x with watch := some p.clock.now }
      else x) } }

/-- LINE_WATCH_SAMPLE (R128): a FROZEN scanner. -/
def execLineWatchSample (lines : BitVec 24) (s : State) : Host.Outcome State Fault Refusal :=
  s.onRunning (fun p => if p.scan.run = .frozen then p.watchLines lines else p)

/-! ## Dwell (R125, R126) -/

/-- The dwell limit of a contact slot, the smallest among the enabled compartments that hold it (R125). -/
def Part.dwellLimit (p : Part) (s : Nat) : Option Nat :=
  if s < 16 then ((p.sheet.compsHolding s).map (fun c => (p.classOfComp c).dwell.toNat)).min? else none

/-- The limit a slot has passed, when it is due (R125). -/
def Part.dwellDue (p : Part) (s : Nat) : Option Nat :=
  let x := p.slot s
  match p.dwellLimit s, x.changedAt with
  | some limit, some c =>
    if x.accepted && !x.dwellReported && decide (limit < p.clock.now - c) then some limit else none
  | _, _ => none

/-- The lowest due slot from slot `n` on, with its limit. -/
def Part.nextDwell (p : Part) (n : Nat) : Option (Nat × Nat) :=
  (List.range 16).findSome? (fun s => if n ≤ s then (p.dwellDue s).map (fun l => (s, l)) else none)

/-- The body of DWELL (R126, R212). -/
def dwellBody (s changed limit comps count : Nat) : List Word :=
  [wordOf s] ++ words32 changed ++ [wordOf limit] ++ words32 (changed + limit + 1) ++ [bytesWord comps (sat8 count)]

/-- A due slot is reported (R126). -/
def Part.reportDwell (s limit : Nat) (p : Part) : Part :=
  p
  |> Part.modSlot s (fun x => { x with dwellReported := true })
  |> Part.addRecord .event .dwell
      (dwellBody s ((p.slot s).changedAt.getD 0) limit (compSet (p.sheet.compsHolding s)) (p.countLoaded (p.behindSlot s)))
  |> Part.raise causeDoorDwell
  |> Part.mapLoaded (p.behindSlot s) (fun k => { k with dwells := sat16 (k.dwells + 1) })

/-- The next report of the dwell test of the last clock advance, or the end of the test (R126; log 33). -/
def Part.dwellStep (p : Part) : Part :=
  match p.scan.dwellTest with
  | none => p
  | some n =>
    match p.nextDwell n with
    | none => { p with scan := { p.scan with dwellTest := none } }
    | some (s, limit) => { p with scan := { p.scan with dwellTest := some (s + 1) } } |> Part.reportDwell s limit

/-- DWELL (R126): a RUNNING scanner with five or more free entries. -/
def execDwell (s : State) : Host.Outcome State Fault Refusal :=
  s.onRunning (fun p => if p.scan.run = .running ∧ 5 ≤ p.freeEntries then p.dwellStep else p)

/-! ## Starting, stopping, restarting (R135 to R137) -/

/-- Scanning starts at the route clock (R135). -/
def Part.startScanning (p : Part) : Part :=
  { p with scan := { p.scan with
      run := .running, extended := p.sheet.isExtended, position := 0, rescan := none, audit := .none, owed := none,
      dwellTest := none,
      slots := p.scan.slots.map (fun x =>
        { x with agree := 0, openings := 0, openSecs := 0, dwellReported := false, watch := none,
                 changedAt := some p.clock.now }) } }
  |> Part.freezeCheck

/-- Scanning stops (R136). -/
def Part.stopScanning (p : Part) : Part :=
  { p with scan := { p.scan with
      run := .stopped, rescan := none, audit := .none, owed := none, dwellTest := none,
      slots := p.scan.slots.map (fun x => { x with agree := 0, watch := none }) } }

/-- The scanner after a warm restart or a reset (R137). -/
def Part.restartScanner (p : Part) : Part :=
  let q : Part := { p with scan := { p.scan with slots := p.scan.slots.map (fun x => { x with agree := 0 }), dwellTest := none } }
  if q.scan.run = .frozen ∧ 5 ≤ q.freeEntries then { q with scan := { q.scan with run := .running } } else q.freezeCheck

end Sys2Proof.Machine
end

