-- ==== Sys2Proof/Machine/Retire.lean ====
section
/-! DEFINITION. The retirement and scrub engine (chapter 9): the collection window, blanking, terminations, scrub steps and
FORMAT. -/

namespace Sys2Proof.Machine

/-! ## The batch -/

/-- The segment the blanking takes next (R182). -/
def Batch.nextSeg (b : Batch) : Option Nat := b.segs[b.completed]?

/-- The collection window expires (R73, R181). -/
def Part.windowExpires (p : Part) : Part :=
  match p.retire.state, p.retire.batch with
  | .collecting, some b =>
    if b.window then
      { p with retire := { p.retire with state := if p.verifyRunning then .waiting else .blanking,
                                         batch := some { b with window := false } } }
      |> Part.slotsChanged false
    else p
  | _, _ => p

/-- A direct write is still to be made into segment `n` (R182, step 1). -/
def Part.directPending (p : Part) (n : Nat) : Bool := p.store.direct.any (fun e => e.seg == n)

/-- The mark of R182: RETIRING, no rewrite owed, a record under assembly in it voided without a VOID write (R11, R43). -/
def Part.markRetiring (n : Nat) (p : Part) : Part :=
  let q := p |> Part.modSeg n (fun e => { e with state := .retiring, owed := .none })
  match q.asm with
  | some a => if a.seg = n then q.voidAssembly q.clock.now false else q
  | none => q

/-- The next segment of the batch becomes current, once its direct writes are done (R182, steps 1 and 2). -/
def Part.takeNextSeg (p : Part) : Part :=
  match p.retire.state, p.retire.batch with
  | .blanking, some b =>
    match b.current, b.nextSeg with
    | none, some n =>
      if p.directPending n then p
      else
        { p with retire := { p.retire with batch := some { b with current := some n, pos := .rewrite } } }
        |> Part.markRetiring n
    | _, _ => p
  | _, _ => p

/-- The condition rewrite that the blanking has still to make (R182, step 3). -/
def Part.retiringRewrite (p : Part) : Option Nat :=
  match p.retire.state, p.retire.batch with
  | .blanking, some b =>
    match b.current, b.pos with
    | some n, .rewrite => some n
    | _, _ => none
  | _, _ => none

/-- The blanking position moves to word `w` of the current segment. -/
def Part.setBlankPos (w : Nat) (p : Part) : Part :=
  { p with retire := { p.retire with batch := p.retire.batch.map (fun b => { b with pos := .word w }) } }

/-- A segment's blanking completes; after the last of the list the batch does (R183). -/
def Part.segBlanked (n : Nat) (p : Part) : Part :=
  let q := p.joinPool n
  match q.retire.batch with
  | none => q
  | some b =>
    let c := { b with current := none, completed := b.completed + 1 }
    if c.completed < c.segs.length then { q with retire := { q.retire with batch := some c } }
    else
      { q with retire := { q.retire with state := .empty, batch := none } } |> Part.raise causeOpDone |> Part.slotsChanged true

/-- A blanking ends by termination (R185). -/
def Part.endBlanking (p : Part) : Part :=
  let q := match p.retire.batch with
    | some b => (match b.current with
      | some n => p.modSeg n (fun e => { e with state := .scrap, holds := 0, owed := .none })
      | none => p)
    | none => p
  { q with retire := { q.retire with state := .empty, batch := none } } |> Part.raise causeOpDone |> Part.slotsChanged true

/-! ## FORMAT (R193 to R196) -/

/-- What a FORMAT does at its start (R193). An OUTAGE record of R93 that waits to join still waits (log 61). -/
def Part.startFormat (code : Nat) (p : Part) : Part :=
  { p with
    store := { p.store with direct := [], segs := p.store.segs.map (fun e => { e with owed := .none }) }
    queue := []
    backup := { p.backup with outage := none, restart := none }
    asm := none
    route := { p.route with closePending := false, closeWait := none, endRecord := none }
    scrub := { p.scrub with step := none }
    retire := { state := .formatRunning, batch := none, fmt := some { code := code, stage := .label } } }
  |> Part.resumeScanner

/-- A ROUTE LOAD read ends with the FORMAT beside it: REFUSED with BUSY, nothing of it installed (R78; log 37). -/
def Part.dropLoad (p : Part) : Part :=
  let q := { p with route := { p.route with load := none } }
  if q.isRunning .routeLoad then q.endRunning .refused .busy [] else q

/-- A LOADED route becomes IDLE as at ROUTE END, with no record, since UNFORMATTED has no route (R78, R95, R136, R158; log 37). -/
def Part.dropRoute (p : Part) : Part :=
  if p.routeLoaded then
    { p with route := { p.route with state := .idle } } |> Part.stopContexts |> Part.stopScanning |> Part.releaseCons
  else p

/-- A FORMAT ends terminated: no store extent, every claim freed, no route (R60, R78, R164, R196). -/
def Part.formatTerminated (p : Part) : Part :=
  { p.dropLoad.dropRoute with
    mode := .unformatted
    store := .absent
    claims := List.replicate 8 Claim.free
    claimQueue := []
    scrub := { p.scrub with due := none }
    retire := { state := .empty, batch := none, fmt := none } }
  |> Part.raise causeOpDone |> Part.slotsChanged true

/-- The unique number as four words, lowest first (R210). -/
def uniqueWords : List Word := (List.range 4).map (fun i => Config.uniqueNumber.extractLsb' (16 * i) 16)

/-- Words 0 to 13 of the store label (R192, R211). -/
def labelHead (code time : Nat) : List Word :=
  [0x6C52, wordOf code] ++ words32 time ++ uniqueWords
    ++ [Config.familyCode, Config.revision, blank, blank, blank, blank]

/-- The chain seed: the CRC of the label's words 0 to 13, seeded with 0 (R192). -/
def labelSeed (head : List Word) : DWord := crcWords 0 head

/-- The 16 words of the store label. -/
def labelWords (code time : Nat) : List Word := labelHead code time ++ dwords (labelSeed (labelHead code time))

/-- An empty store of a size code (R195). -/
def Store.formatted (code time : Nat) (seed : DWord) : Store :=
  { nSeg := segCount code, sizeCode := code, formatTime := some time, seed := seed,
    segs := List.replicate (segCount code - 1) SegEntry.blankEntry,
    pool := (List.range (segCount code - 1)).map (· + 1), streams := .fresh seed, direct := [] }

/-- The end of the label write completes the FORMAT (R78, R195). The route close becomes NONE, and a ROUTE_END record that began to
wait during the FORMAT still waits to join (log 62). -/
def Part.formatComplete (code : Nat) (p : Part) : Part :=
  let t := p.clock.now
  { p with
    mode := .guarded
    store := Store.formatted code t (labelSeed (labelHead code t))
    queue := []
    asm := none
    clock := { p.clock with floor := max p.clock.floor t, mark := none }
    route := { p.route with closePending := false, closeWait := none }
    scrub := { pointer := 1, due := none, owed := 0, step := none }
    retire := { state := .empty, batch := none, fmt := none } }
  |> Part.dropLoad |> Part.rescheduleScrub |> Part.resumeScanner |> Part.raise causeOpDone |> Part.slotsChanged true

/-- Where a segment's blanking by FORMAT goes on after a burst that ended at word `w`, and in which segment (R193). -/
def FormatOp.afterBurst (f : FormatOp) (n w : Nat) : FormatStage :=
  if 16 ≤ w then .segment n (w - 16) else if n + 1 < segCount f.code then .segment (n + 1) 16383 else .write

def Part.setFormatStage (st : FormatStage) (p : Part) : Part :=
  { p with retire := { p.retire with fmt := p.retire.fmt.map (fun f => { f with stage := st }) } }

/-! ## A SUSPEND, TERMINATE or CLAIM CLOSE that waits for the end of a burst (R74, R76, R177) -/

/-- The running blanking or VERIFY is suspended (R74). -/
def Part.suspendNow (p : Part) : Part :=
  if p.retire.state = .blanking then { p with retire := { p.retire with state := .suspended } } |> Part.slotsChanged true
  else
    match p.verify with
    | some v => if v.suspended then p else { p with verify := some { v with suspended := true } } |> Part.slotsChanged true
    | none => p

/-- The running long operation is terminated (R76): a running VERIFY also beside a batch that has not begun to blank (log 65). -/
def Part.terminateNow (p : Part) : Part :=
  if p.retire.state = .blanking then p.endBlanking
  else if p.retire.state = .formatRunning then p.formatTerminated
  else if p.verifyRunning then p.abortVerify
  else p

/-- The claim's VERIFY is still in the verify slot. -/
def Part.verifies (p : Part) (i : Nat) : Bool :=
  match p.verify with
  | some v => v.claim == i
  | none => false

/-- The work of a SUSPEND, TERMINATE or CLAIM CLOSE at the end of the burst; `ended` says that the operation itself has ended
in that burst (log 20). -/
def Part.deferredWork (w : RunningWork) (ended : Bool) (p : Part) : Part :=
  match w with
  | .suspend => if ended then p else p.suspendNow
  | .terminate => if ended then p else p.terminateNow
  | .claimClose i => if p.verifies i then p.closeVerify i else p.freeClaim i
  | _ => p

/-- A burst of the running long operation has ended; a command that waited for it takes effect and is DONE. -/
def Part.afterLongBurst (ended : Bool) (p : Part) : Part :=
  match p.chan.running with
  | none => p
  | some r =>
    match r.work with
    | .suspend => p.deferredWork r.work ended |> Part.endRunning .done .ok []
    | .terminate => p.deferredWork r.work ended |> Part.endRunning .done .ok []
    | .claimClose _ => p.deferredWork r.work ended |> Part.endRunning .done .ok []
    | _ => p

/-! ## Scrub steps (R188 to R191) -/

/-- The scrub step comes due (R188, R189). -/
def Part.stepDue (p : Part) : Part :=
  let q := p.rescheduleScrub
  if q.longRunning ∨ q.scrub.step.isSome then { q with scrub := { q.scrub with owed := sat8 (q.scrub.owed + 1) } }
  else q.beginStep q.scrub.owed

def Part.scrubDue (p : Part) : Bool :=
  match p.scrub.due with
  | some t => decide (t ≤ p.clock.now)
  | none => false

/-- The step has ended; the pointer moves past the segment, and an owed step may begin (R189, R190). -/
def Part.endStep (n : Nat) (p : Part) : Part :=
  { p with scrub := { p.scrub with step := none, pointer := p.segAfter n } } |> Part.scrubTurn true

/-- One slot read of a scrub step; `ws` are its words. A failure of the exit chain has no record sequence number (R190, R191). -/
def Part.scrubSlot (st : ScrubStep) (ws : List Word) (p : Part) : Part :=
  if st.abandoned then
    { p with scrub := { p.scrub with step := none, owed := sat8 (p.scrub.owed + 1) } } |> Part.scrubTurn true
  else
    let c := st.check
    match p.seg c.seg with
    | none => p.endStep c.seg
    | some e =>
      match (c.fix e).advance e ws with
      | .more d => { p with scrub := { p.scrub with step := some { st with check := d } } }
      | .passed => p.endStep c.seg
      | .mismatch exit =>
        p |> Part.checkFault c.seg c.slot (if exit then none else e.seqOf c.slot) causeScrub blank |> Part.endStep c.seg

end Sys2Proof.Machine
end

