-- ==== Sys2Proof/Machine/Route.lean ====
section
/-! DEFINITION. The route controller (chapter 4): install, route end and close, the route clock, held route fields. -/

namespace Sys2Proof.Machine

/-! ## Loading (R83 to R85) -/

/-- The body of ROUTE_START (R85, R212). -/
def routeStartBody (s : Sheet) (check : DWord) : List Word :=
  [s.routeNumber, s.scanMode, wordOf (compSet s.enabledComps)] ++ dwords check

/-- The held route fields are taken; a change of the scrub period hours, from none also, moves the next scrub due time (R88,
R188). -/
def Part.holdFields (h : Held) (p : Part) : Part :=
  let q := { p with route := { p.route with held := some h } }
  if p.route.held.map Held.scrubHours = some h.scrubHours then q else q.rescheduleScrub

/-- A checked sheet is installed (R85). -/
def Part.installSheet (s : Sheet) (check : DWord) (p : Part) : Part :=
  { p with route := { p.route with sheet := some s, check := some check, start := some p.clock.now } }
  |> Part.holdFields s.held
  |> Part.addRecord .event .routeStart (routeStartBody s check)
  |> (fun p => { p with route := { p.route with state := .loaded } })
  |> Part.initContexts
  |> Part.startScanning

/-- The checks of R84 at the end of the read, and the install. -/
def Part.checkSheet (l : LoadRead) (p : Part) : Part :=
  let q := { p with route := { p.route with load := none } }
  let s := Sheet.ofWords l.words
  let failure := if l.disturbed then some { part := 0, entry := 0, field := none } else s.failure l.routeNumber
  match failure with
  | some f => q.endRunning .refused .badParameter f.words
  | none =>
    if q.freeEntries < 5 then q.endRunning .refused .storeFull []
    else q |> Part.installSheet s l.check |> Part.endRunning .done .ok []

/-- One burst of the sheet read: 16 words join the working copy and its check value (R83). -/
def Part.takeSheetBurst (ws : List Word) (p : Part) : Part :=
  match p.route.load with
  | none => p
  | some l =>
    let m := { l with words := l.words ++ ws, check := crcWords l.check ws }
    if 2032 ≤ m.words.length then p.checkSheet m else { p with route := { p.route with load := some m } }

/-- A forwarded write to the sheet disturbs a load read (R82). -/
def Part.disturbLoad (p : Part) : Part :=
  { p with route := { p.route with load := p.route.load.map (fun l => { l with disturbed := true }) } }

/-! ## Ending (R86, R87) -/

/-- The body of ROUTE_END (R86, R158, R212). -/
def Part.routeEndBody (p : Part) : List Word :=
  [p.sheet.routeNumber] ++ words32? p.route.start ++ [wordOf (p.countState .done), wordOf (p.countState .returned)]

/-- A prepared ROUTE_END record joins the queue when five entries are free (R25, R86). -/
def Part.joinRouteEnd (p : Part) : Part :=
  match p.route.endRecord with
  | none => p
  | some body =>
    if 5 ≤ p.freeEntries then
      { p with route := { p.route with endRecord := none } } |> Part.addRecord .event .routeEnd body
    else p

/-- ROUTE END is carried out (R86). -/
def Part.endRoute (p : Part) : Part :=
  { p with route := { p.route with state := .idle, closePending := true, endRecord := some p.routeEndBody } }
  |> Part.stopContexts |> Part.stopScanning |> Part.releaseCons |> Part.joinRouteEnd

/-- One of the three streams at the route close (R24). -/
def Part.closeStream (p : Part) (st : Stream) : Part :=
  match (p.stream st).openSeg with
  | none => p
  | some n =>
    let busy := match p.asm with | some a => a.seg == n | none => false
    if busy then { p with route := { p.route with closeWait := some st } } else p.closeSegment st n

/-- The ROUTE_END record has been written: the open segments close, and the close ends with the last of them (R24, R87). -/
def Part.closeRoute (p : Part) : Part :=
  if p.route.closePending then
    let q := [Stream.sample, .event, .delivery].foldl Part.closeStream p
    { q with route := { q.route with closePending := q.route.closeWait.isSome } }
  else p

/-! ## The route clock (R91, R93) -/

/-- The body of OUTAGE (R202, R212). -/
def outageBody (fail restart secs merged comps count : Nat) : List Word :=
  words32 fail ++ words32 restart ++ words32 secs ++ [wordOf merged, bytesWord comps (sat8 count)]

/-- The route clock takes a value and is valid; the next scrub step is due one interval later (R91, R188). -/
def Part.setClock (v : Nat) (p : Part) : Part :=
  { p with clock := { p.clock with now := v, valid := true } } |> Part.rescheduleScrub

/-- The HALTED route returns to LOADED; the outage runs from the restart mark to the set value `v` (R93). -/
def Part.resumeRoute (v : Nat) (p : Part) : Part :=
  let mark := p.clock.mark.getD v
  let q := { p with route := { p.route with state := .loaded } } |> Part.initContexts
  let comps := q.chargedComps
  let count := q.countLoaded (fun k => comps.contains k.comp)
  q
  |> Part.chargeOutage (v - mark) comps
  |> Part.startScanning
  |> (fun q =>
      { q with route := { q.route with outageRecord := some (outageBody mark v (v - mark) 1 (compSet comps) count) }
               clock := { q.clock with mark := none } })

/-- A prepared OUTAGE record joins the queue when five entries are free (R25, R93). -/
def Part.joinOutage (p : Part) : Part :=
  match p.route.outageRecord with
  | none => p
  | some body =>
    if 5 ≤ p.freeEntries then
      { p with route := { p.route with outageRecord := none } } |> Part.addRecord .event .outage body
    else p

/-! ## SERVICE ENTER (R64, R88) -/

/-- The three held fields in a burst of words 16 to 31 (R211). -/
def Held.ofWords (ws : List Word) : Held :=
  { retentionDays := wordAt ws 1, scrubHours := wordAt ws 2, serviceWord := wordAt ws 3 }

/-- The fields lie in the ranges of R79 (R88). -/
def Held.inRange (h : Held) : Bool := Sys2Proof.Machine.inRange 1 3650 h.retentionDays && Sys2Proof.Machine.inRange 1 168 h.scrubHours

/-- The read of the route fields has ended (R64, R88). -/
def Part.fieldsRead (value : Word) (dock : Bool) (h : Held) (p : Part) : Part :=
  if !dock then p.endRunning .refused .notDocked []
  else if value != h.serviceWord then p.protectError |> Part.endRunning .refused .protectMismatch []
  else
    { p with mode := .service } |> (fun p => if h.inRange then p.holdFields h else p) |> Part.endRunning .done .ok []

end Sys2Proof.Machine
end

