-- ==== Sys2Proof/Machine/Commands.lean ====
section
/-! DEFINITION. The judgement and carrying out of the twenty commands (chapter 3 and the chapters that own their effects). Each
`cmd…` acts on the chip after checks 1 to 3 of R54 have passed. -/

namespace Sys2Proof.Machine

/-! ## Checks 1 to 3 of R54 -/

/-- REPORT, ACKNOWLEDGE, IDENTITY and PROGRESS pass the BUSY check in any case (R54). -/
def Command.passesBusy : Command → Bool
  | .report => true
  | .acknowledge => true
  | .identity => true
  | .progress => true
  | _ => false

/-- The device mode admits the command (R59). -/
def Mode.admits (m : Mode) (c : Command) : Bool :=
  match c with
  | .report => true
  | .acknowledge => true
  | .identity => true
  | .clockSet => m != .foreign
  | .format => m == .unformatted || m == .service
  | .retire => m == .service
  | .routeLoad => m == .guarded
  | _ => m == .guarded || m == .service

/-! ## Commands the recogniser answers itself -/

/-- REPORT's twelve result words (R63). -/
def Part.reportWords (p : Part) : List Word :=
  [p.attention, wordOf p.refusals.count]
    ++ words32? (p.refusals.first.map (fun f => f.1.toNat))
    ++ [(p.refusals.first.map (fun f => f.2.code)).getD blank, wordOf p.chan.protectErrors, p.mode.code, p.route.state.code,
        wordOf (if p.hasExtent then p.store.pool.length else 0)]
    ++ words32 p.clock.now ++ [if p.clock.valid then 1 else 0]

def Part.cmdReport (p : Part) : Part := p.done p.reportWords

def RefusalLog.empty : RefusalLog := { first := none, count := 0 }

/-- The named causes leave the pending set; WRITE_REFUSED also clears the refusal log (R36, R67). -/
def Part.acknowledgeCauses (causes : Word) (p : Part) : Part :=
  { p with attention := p.attention &&& ~~~causes
           refusals := if causes &&& causeWriteRefused != 0 then .empty else p.refusals }

/-- ACKNOWLEDGE (R67). -/
def Part.cmdAcknowledge (causes : Word) (p : Part) : Part :=
  if causes &&& causeUnused != 0 then p.refuseCommand .badParameter
  else
    let q := p.acknowledgeCauses causes
    q.done [q.attention]

/-- The store size code and format time of IDENTITY: none in UNFORMATTED (R65). -/
def Part.labelResults (p : Part) : List Word :=
  if p.mode = .unformatted then [0, blank, blank] else [wordOf p.store.sizeCode] ++ words32? p.store.formatTime

/-- IDENTITY (R65). -/
def Part.cmdIdentity (p : Part) : Part :=
  p.done ([Config.familyCode, Config.revision] ++ uniqueWords ++ p.labelResults ++ [p.mode.code])

/-- WHERE (R66); BUSY while a FORMAT runs (R194; log 19). -/
def Part.cmdWhere (code : Word) (p : Part) : Part :=
  if p.formatRunning then p.refuseCommand .busy
  else
    match Stream.ofCode code with
    | none => p.refuseCommand .badParameter
    | some st =>
      if !(p.stream st).stalled && (p.stream st).openSeg.isNone && p.needWaits st then p.startRunning (.whereIs st)
      else p.decideWhere st Part.conclude

/-! ## Route and clock commands (R68) -/

/-- CLOCK SET (R68, R91, R93). -/
def Part.cmdClockSet (v : Nat) (p : Part) : Part :=
  if !(p.route.state == .idle || (p.route.state == .halted && !p.clock.valid)) then p.refuseCommand .routeState
  else if v < p.clock.floor then p.refuseCommand .badParameter
  else
    let q := p.setClock v
    (if p.route.state = .halted then q.resumeRoute v else q).done []

/-- ROUTE LOAD (R68, R83). -/
def Part.cmdRouteLoad (number : Word) (p : Part) : Part :=
  if p.route.state ≠ .idle then p.refuseCommand .routeState
  else if !p.clock.valid then p.refuseCommand .clockInvalid
  else if p.route.closePending then p.refuseCommand .busy
  else
    { p with route := { p.route with load := some { routeNumber := number, words := [], check := 0, disturbed := false } } }
    |> Part.startRunning .routeLoad

/-- ROUTE END (R68, R86). -/
def Part.cmdRouteEnd (p : Part) : Part :=
  if p.route.state ≠ .loaded then p.refuseCommand .routeState
  else if p.countLoaded (fun _ => true) ≠ 0 then p.refuseCommand .routeState
  else p.endRoute.done []

/-! ## Scan commands (R69) -/

/-- RESCAN (R69, R131). -/
def Part.cmdRescan (slot : Word) (p : Part) : Part :=
  if p.route.state ≠ .loaded then p.refuseCommand .routeState
  else if p.scan.slotCount ≤ slot.toNat then p.refuseCommand .badParameter
  else if p.scan.rescan.isSome then p.refuseCommand .busy
  else { p with scan := { p.scan with rescan := some slot.toNat } } |> Part.done []

/-- AUDIT (R69, R132). -/
def Part.cmdAudit (p : Part) : Part :=
  if p.route.state ≠ .loaded then p.refuseCommand .routeState
  else if p.scan.audit ≠ .none then p.refuseCommand .busy
  else { p with scan := { p.scan with audit := .waiting } } |> Part.done []

/-! ## Claim commands (R70) -/

/-- The free claim entry with the lowest index (R163). -/
def Part.freeClaimSlot (p : Part) : Option Nat := (List.range 8).find? (fun i => !(p.claim i).inUse)

/-- A claim in use names the id (R70). -/
def Part.claimNamed (p : Part) (id : DWord) : Bool := p.claims.any (fun c => c.inUse && c.id == some id)

/-- CLAIM OPEN (R70, R163). -/
def Part.cmdClaimOpen (id : DWord) (p : Part) : Part :=
  if id = 0 then p.refuseCommand .badParameter
  else if p.claimNamed id then p.refuseCommand .already
  else
    match p.freeClaimSlot with
    | none => p.refuseCommand .tableFull
    | some i =>
      { p with claimQueue := p.claimQueue ++ [i] }
      |> Part.modClaim i (fun _ => { Claim.free with state := .queued, id := some id })
      |> Part.slotsChanged false |> Part.done [wordOf i]

/-- An index of a claim in use (R70). -/
def Part.claimIndex (p : Part) (index : Word) : Option Nat :=
  if index.toNat < 8 ∧ (p.claim index.toNat).inUse then some index.toNat else none

/-- CLAIM READ's result words (R176). -/
def Claim.readWords (c : Claim) : List Word :=
  if c.state = .ready then
    [c.state.code] ++ dwords? c.id ++ [(c.comp.map wordOf).getD blank] ++ words32? c.windowStart ++ words32? c.windowEnd
      ++ [(c.integrity.map Integrity.code).getD blank, c.flagsWord, (c.mismatch.map (fun m => m.stream.code)).getD blank,
          (c.mismatch.map (fun m => wordOf m.seg)).getD blank, (c.mismatch.map (fun m => wordOf m.slot)).getD blank]
      ++ dwords? (c.mismatch.bind (fun m => m.seq))
      ++ [wordOf (c.proofs.getD 0), wordOf (c.samples.getD 0), wordOf (c.gapMinutes.getD 0), wordOf c.held.length]
  else [c.state.code]

/-- CLAIM READ (R70, R176). -/
def Part.cmdClaimRead (index : Word) (p : Part) : Part :=
  match p.claimIndex index with
  | none => p.refuseCommand .badParameter
  | some i => p.done (p.claim i).readWords

/-- CLAIM CLOSE (R70, R177). -/
def Part.cmdClaimClose (index : Word) (p : Part) : Part :=
  match p.claimIndex index with
  | none => p.refuseCommand .badParameter
  | some i =>
    if p.verifies i then
      if p.verifyRunning && p.inLongBurst then p.startRunning (.claimClose i) else (p.closeVerify i).done []
    else ({ p with claimQueue := p.claimQueue.filter (· != i) } |> Part.freeClaim i).done []

/-! ## Long operations (R74 to R77) -/

/-- Words 2 to 4 of PROGRESS (R77). -/
def Part.progressRetire (p : Part) : List Word :=
  match p.retire.batch, p.retire.fmt with
  | some b, _ => [wordOf b.segs.length, wordOf b.completed, (b.current.map wordOf).getD blank]
  | none, some f =>
    [wordOf (segCount f.code - 1)]
      ++ (match f.stage with
          | .label => [0, blank]
          | .segment n _ => [wordOf (n - 1), wordOf n]
          | .write => [wordOf (segCount f.code - 1), blank])
  | none, none => [0, 0, blank]

/-- Words 5 to 8 of PROGRESS (R77). -/
def Part.progressVerify (p : Part) : List Word :=
  match p.verify with
  | none => [0, blank, blank, blank]
  | some v => [if v.suspended then 2 else 1, wordOf v.claim, v.phase.code, wordOf v.count]

/-- PROGRESS (R77). -/
def Part.cmdProgress (p : Part) : Part := p.done ([p.retire.state.code] ++ p.progressRetire ++ p.progressVerify)

/-- SUSPEND (R74). -/
def Part.cmdSuspend (p : Part) : Part :=
  if p.formatRunning then p.refuseCommand .busy
  else if !p.longRunning then p.refuseCommand .noOperation
  else if p.inLongBurst then p.startRunning .suspend
  else p.suspendNow.done []

/-- RESUME (R75). -/
def Part.cmdResume (p : Part) : Part :=
  if p.retire.state = .suspended then
    if p.verifyRunning then p.refuseCommand .busy
    else ({ p with retire := { p.retire with state := .blanking } } |> Part.slotsChanged false).done []
  else
    match p.verify with
    | none => p.refuseCommand .noOperation
    | some v =>
      if !v.suspended then p.refuseCommand .noOperation
      else if p.longRunning then p.refuseCommand .busy
      else ({ p with verify := some { v with suspended := false } } |> Part.retestWalk |> Part.passCheck
        |> Part.slotsChanged false).done []

/-- A FORMAT whose label burst has not completed (R196). -/
def Part.labelPending (p : Part) : Bool :=
  p.formatRunning && (match p.retire.fmt with | some f => f.stage == .label | none => false)

/-- TERMINATE (R76, R196): NO_OPERATION only when neither slot has an operation running (R73; log 65). -/
def Part.cmdTerminate (p : Part) : Part :=
  if !p.longRunning then p.refuseCommand .noOperation
  else if p.inLongBurst || p.labelPending then p.startRunning .terminate
  else p.terminateNow.done []

/-! ## Service, RETIRE, FORMAT -/

/-- SERVICE ENTER (R64), also while a FORMAT runs on in GUARDED (log 59). -/
def Part.cmdServiceEnter (value : Word) (dock : Bool) (p : Part) : Part :=
  if p.mode ≠ .guarded then p.refuseCommand .already
  else if !dock then p.refuseCommand .notDocked
  else if p.route.state ≠ .idle then p.refuseCommand .routeState
  else
    match p.route.held with
    | none => p.startRunning (.serviceEnter value)
    | some h =>
      if value ≠ h.serviceWord then p.protectError.refuseCommand .protectMismatch
      else { p with mode := .service } |> Part.done []

/-- SERVICE LEAVE (R62), also while a FORMAT runs, which goes on (log 59). -/
def Part.cmdServiceLeave (p : Part) : Part :=
  if p.mode = .service then p.leaveService.done [] else p.refuseCommand .already

/-- A CLOSED segment is past its retention age (R71). -/
def Part.pastRetention (e : SegEntry) (p : Part) : Bool :=
  match p.route.held, e.closeTime with
  | some h, some t => p.clock.valid && decide (t + h.retentionDays.toNat * 86400 ≤ p.clock.now)
  | _, _ => false

/-- A segment is retirable (R71). -/
def Part.retirable (e : SegEntry) (p : Part) : Bool :=
  match e.state with
  | .faulted => true
  | .scrap => true
  | .closed => p.pastRetention e
  | .blank => false
  | .opened => false
  | .retiring => false

/-- The segment joins the batch, whose window restarts (R180). -/
def Part.joinBatch (n : Nat) (p : Part) : Part :=
  let b := p.retire.batch.getD { segs := [], current := none, pos := .rewrite, completed := 0, window := true }
  { p with retire := { p.retire with state := .collecting, batch := some { b with segs := b.segs ++ [n], window := true } } }

def Part.batchSegs (p : Part) : List Nat := (p.retire.batch.map (fun b => b.segs)).getD []

/-- RETIRE (R71, R180). -/
def Part.cmdRetire (segment : Word) (p : Part) : Part :=
  let n := segment.toNat
  match p.seg n with
  | none => p.refuseCommand .badParameter
  | some e =>
    if !(p.retire.state == .empty || p.retire.state == .collecting) then p.refuseCommand .busy
    else if !p.retirable e then p.refuseCommand .notRetirable
    else if e.holds ≠ 0 then p.refuseCommand .held
    else if p.batchSegs.contains n then p.refuseCommand .already
    else if 32 ≤ p.batchSegs.length then p.refuseCommand .batchFull
    else (p.joinBatch n).done []

/-- FORMAT (R71, R193). -/
def Part.cmdFormat (code : Word) (dock : Bool) (p : Part) : Part :=
  if !dock then p.refuseCommand .notDocked
  else if code.toNat < 1 ∨ 3 < code.toNat then p.refuseCommand .badParameter
  else if p.route.state ≠ .idle then p.refuseCommand .routeState
  else if p.claims.any Claim.inUse then p.refuseCommand .held
  else if p.retire.state ≠ .empty then p.refuseCommand .busy
  else (p.startFormat code.toNat).done []

/-! ## Judging a complete command (R54) -/

/-- A command that has passed checks 1 to 3; `ps` are its parameter words. -/
def Part.carryOut (c : Command) (ps : List Word) (dock : Bool) (p : Part) : Part :=
  match c with
  | .report => p.cmdReport
  | .acknowledge => p.cmdAcknowledge (wordAt ps 0)
  | .identity => p.cmdIdentity
  | .whereIs => p.cmdWhere (wordAt ps 0)
  | .clockSet => p.cmdClockSet (num32At ps 0)
  | .routeLoad => p.cmdRouteLoad (wordAt ps 0)
  | .routeEnd => p.cmdRouteEnd
  | .rescan => p.cmdRescan (wordAt ps 0)
  | .audit => p.cmdAudit
  | .claimOpen => p.cmdClaimOpen (dwordAt ps 0)
  | .claimRead => p.cmdClaimRead (wordAt ps 0)
  | .claimClose => p.cmdClaimClose (wordAt ps 0)
  | .progress => p.cmdProgress
  | .suspend => p.cmdSuspend
  | .resume => p.cmdResume
  | .terminate => p.cmdTerminate
  | .serviceEnter => p.cmdServiceEnter (wordAt ps 0) dock
  | .serviceLeave => p.cmdServiceLeave
  | .retire => p.cmdRetire (wordAt ps 0)
  | .format => p.cmdFormat (wordAt ps 0) dock

/-- A complete command is judged at once; the first check that fails decides the outcome (R54). -/
def Part.judge (c : Command) (ps : List Word) (dock : Bool) (p : Part) : Part :=
  if p.chan.running.isSome && !c.passesBusy then p.refuseCommand .busy
  else if !p.mode.admits c then p.refuseCommand .refusedMode
  else if !c.wellProtected ps then p.protectError.refuseCommand .protectMismatch
  else p.carryOut c ps dock

end Sys2Proof.Machine
end

