-- ==== Sys2Proof/Machine/Upstream.lean ====
section
/-! DEFINITION. The upstream port: the gate (R50 to R53), reads (R45), the write policer (R32 to R36), record words (R38, R39)
and the accesses that wait. A function that may have to wait answers `none` while it does. -/

namespace Sys2Proof.Machine

/-! ## The gate (R51 to R53) -/

/-- A command code is taken at `a` (R52, R53, R55). The outcome of a RUNNING command stands at OK (log 57). -/
def Part.takeCommand (a : Addr) (c : Command) (dock : Bool) (p : Part) : Part :=
  let q := p.present a c.code [] .running .ok
  if c.paramCount = 0 then { q with chan := { q.chan with gate := .idle } } |> Part.judge c [] dock
  else { q with chan := { q.chan with gate := .parameters a c [] } }

/-- A parameter word is collected; the last one completes the command (R53). -/
def Part.takeParameter (a : Addr) (c : Command) (got : List Word) (d : Word) (dock : Bool) (p : Part) : Part :=
  let ps := got ++ [d]
  let q : Part := { p with chan := { p.chan with current := p.chan.current.map (fun r => { r with params := ps }) } }
  if c.paramCount ≤ ps.length then { q with chan := { q.chan with gate := .idle } } |> Part.judge c ps dock
  else { q with chan := { q.chan with gate := .parameters a c ps } }

def Part.setGate (g : Gate) (p : Part) : Part := { p with chan := { p.chan with gate := g } }

/-- The command being collected is abandoned (R53): its record ends REFUSED, its parameter words discarded. -/
def Part.abandon (p : Part) : Part :=
  { p with chan := { p.chan with current := p.chan.current.map (fun r => { r with params := [] }) } }
  |> Part.refuseCommand .abandoned

/-- A write meets the gate: the part after it, and what is handed on (R51 to R53). -/
def Part.gateWrite (a : Addr) (d : Word) (dock : Bool) (p : Part) : Part × List Work :=
  match p.chan.gate with
  | .idle => if d = keyWord1 then (p.setGate (.keyed a), []) else (p, [.police a d none])
  | .keyed k =>
    if a = k ∧ d = keyWord2 then (p.setGate (.gated k), [])
    else (p.setGate .idle, [.police k keyWord1 (some p.mode), .gate a d dock])
  | .gated k =>
    if a = k then
      match Command.ofCode d with
      | some c => (p.takeCommand k c dock, [])
      | none => ((p.setGate .idle).present k d [] .refused .unknownCommand, [])
    else (p.setGate .idle, [.gate a d dock])
  | .parameters k c got =>
    if a = k then (p.takeParameter k c got d dock, []) else ((p.setGate .idle).abandon, [.gate a d dock])

/-- The write is a parameter word or abandons the command being collected, so it ends no presentation (R56). -/
def Part.collecting (p : Part) : Bool :=
  match p.chan.gate with
  | .parameters _ _ _ => true
  | _ => false

/-- A write arrives at the recogniser (R51 to R53, R56). -/
def Part.arrive (a : Addr) (d : Word) (dock : Bool) (p : Part) : Part × List Work :=
  (if p.collecting then p else p.endPresentation).gateWrite a d dock

/-- A read is answered with a word on UD. -/
def State.answerRead (w : Word) (s : State) : State := { s with port := { s.port with readData := some w } }

/-- A read arrives: status presentation, a held K1, the gate, or the device mode (R51 to R53, R56). -/
def State.arriveRead (a : Addr) (s : State) : State × List Work :=
  let p := s.part
  match p.presentedAt a with
  | some c => ({ s.answerRead c.readWord with part := { p with chan := { p.chan with current := some c.afterRead } } }, [])
  | none =>
    match p.chan.gate with
    | .keyed k =>
      if a = k then ({ s with part := p.setGate .idle }, [.police k keyWord1 (some p.mode), .modeRead a]) else (s, [.modeRead a])
    | .gated k => if a = k then (s.answerRead blank, []) else (s, [.modeRead a])
    | _ => (s, [.modeRead a])

/-! ## Where an address lies -/

/-- Records are assembled and writes classified (R31). -/
def Part.policed (p : Part) : Bool := p.mode == .guarded || p.mode == .service

def Part.headerPending (p : Part) (n : Nat) : Bool := p.store.direct.any (fun e => e.kind == .header && e.seg == n)

def Part.voidPending (p : Part) : Bool := p.store.direct.any (fun e => e.kind == .void)

/-- A record segment that reads as blank and refuses writes: RETIRING, or any while a FORMAT runs (R45, R194). -/
def Part.shut (p : Part) (n : Nat) : Bool :=
  p.formatRunning || (match p.seg n with | some e => e.state == .retiring | none => false)

/-! ## Reads (R45) -/

/-- A read handled under the device mode. -/
def State.modeRead (a : Addr) (s : State) : Option State :=
  let p := s.part
  let n := addrSeg a.toNat
  if p.policed && decide (p.store.nSeg ≤ n) then some (s.answerRead blank)
  else if p.policed && n != 0 && p.shut n then some (s.answerRead blank)
  else if p.policed && p.headerPending n then none
  else if p.portFree then some { s.answerRead (s.mem.read a.toNat) with part := p.upstreamGrant }
  else none

/-! ## Writes (R32 to R42) -/

/-- A refused write (R36). -/
def Part.refuseWrite (a : Addr) (c : RefusalCause) (p : Part) : Part :=
  { p with refusals := { first := some (p.refusals.first.getD (a, c)), count := sat16 (p.refusals.count + 1) } }
  |> Part.raise causeWriteRefused

/-- The write is the expected next word of the record under assembly (R37). -/
def Part.expects (p : Part) (a : Addr) : Bool :=
  match p.asm with
  | some x => a.toNat == slotAddr x.seg x.slot + x.next
  | none => false

/-- The write breaks the record under assembly: it is not the expected next word (R42). -/
def Part.breaks (p : Part) (a : Addr) : Bool := p.policed && p.asm.isSome && !p.expects a

/-- A write handed on is taken at the route clock, unless it would break a record while a VOID record is pending (R22, R42). -/
def State.police (a : Addr) (d : Word) (released : Option Mode) (s : State) : Option (State × List Work) :=
  if s.part.breaks a && s.part.voidPending then none else some (s, [.place a d s.part.clock.now released])

/-- A write of one word in memory, when the port is free (R29, R46). -/
def State.forward (a : Addr) (d : Word) (s : State) : Option State :=
  if s.part.portFree then some { s with mem := s.mem.write a.toNat d, part := s.part.upstreamGrant } else none

/-- The word that goes to memory for the next word of a record under assembly, and the context with it; `now` is the route clock
at the word's arrival (R38, R39). -/
def Assembly.takeWord (x : Assembly) (d : Word) (now : Nat) (seed : DWord) : Word × Assembly :=
  if x.next < 12 then (d, { x with words := x.words ++ [d], next := x.next + 1 })
  else if x.next = 12 then
    (loWord now, { x with receipt := some now, chain := some (recordChain seed (x.words ++ words32 now)), next := 13 })
  else
    (wordAt (words32 (x.receipt.getD 0) ++ dwords (x.chain.getD 0)) (x.next - 12), { x with next := x.next + 1 })

/-- The clock floor rises when word 12 gives the receipt time (R39, R90; log 18). -/
def Assembly.noteFloor (x : Assembly) (t : Nat) (p : Part) : Part := if x.next = 12 then p.noteReceipt t else p

/-- The expected next word, which arrived at a route clock, is accepted; word 15 commits the record (R38 to R40). -/
def State.acceptWord (a : Addr) (d : Word) (arrived : Nat) (x : Assembly) (s : State) : Option State :=
  let (w, y) := x.takeWord d arrived (s.part.stream x.stream).running
  match s.forward a w with
  | none => none
  | some t =>
    let q := { x.noteFloor arrived t.part with asm := some y }
    some { t with part := if x.next = 15 then q.commitRecord else q }

/-- The slot is committed or reserved (test 3 of R33). -/
def SegEntry.committed (e : SegEntry) (slot : Nat) : Bool :=
  (e.state == .opened || e.state == .closed || e.state == .faulted) && decide (slot ≤ e.count.getD 0)

/-- The stream whose open segment is `n` with append slot `s`, SAMPLE or DELIVERY (test 4 of R33). -/
def Part.appendStream (p : Part) (n s : Nat) : Option Stream :=
  [Stream.sample, .delivery].find? (fun st => (p.stream st).openSeg == some n && (p.stream st).append == some s)

/-- The word 0 is marked and of a processor-writable kind whose stream is stalled (test 5 of R33). -/
def Part.stalledKind (p : Part) (d : Word) : Bool :=
  match (Kind.ofHeader d).bind Kind.processorStream with
  | some st => (p.stream st).stalled
  | none => false

/-- There is room for the answer of a request in slot `s` (R35). -/
def Part.roomForAnswer (p : Part) (s : Nat) : Bool := decide (s ≤ 1022) || p.mayTake .delivery

/-- The word-0 checks of R34: the refusal, or the kind of the record that begins. -/
def Part.checkWord0 (st : Stream) (s : Nat) (d : Word) (p : Part) : Except RefusalCause Kind :=
  if !marked d then .error .badHeader
  else
    match Kind.ofHeader d with
    | none => .error .wrongStream
    | some k =>
      if k.processorStream != some st then .error .wrongStream
      else if st == .delivery && !p.roomForAnswer s then .error .noRoomForAnswer
      else .ok k

/-- The assembly context at word 0 (R34, R35, R37). -/
def Assembly.begin (n s : Nat) (st : Stream) (k : Kind) (d : Word) : Assembly :=
  { seg := n, slot := s, stream := st, kind := k, next := 1, words := [d], receipt := none, chain := none,
    promise := st == .delivery && s == 1023 }

/-- What the policer decides for a write into a record segment that is not the expected next word (tests 2 to 6 of R33, R34). -/
def Part.placeWrite (a : Addr) (d : Word) (p : Part) : Except RefusalCause Assembly :=
  let n := addrSeg a.toNat
  let slot := addrSlot a.toNat
  let isWord0 := addrWord a.toNat == 0
  if p.shut n then .error .retiring
  else if (match p.seg n with | some e => e.committed slot | none => false) then .error .committed
  else
    match (if isWord0 then p.appendStream n slot else none) with
    | some st =>
      (match p.checkWord0 st slot d with
       | .error c => .error c
       | .ok k => .ok (Assembly.begin n slot st k d))
    | none => if isWord0 && p.stalledKind d then .error .storeFull else .error .notAppendSlot

/-- A write into a record segment (R33, R34); word 0 waits while a VOID record is pending (R22). -/
def State.writeRecord (a : Addr) (d : Word) (t : Nat) (s : State) : Option State :=
  let p := s.part
  match (if p.expects a then p.asm else none) with
  | some x => s.acceptWord a d t x
  | none =>
    match p.placeWrite a d with
    | .error c => some { s with part := p.refuseWrite a c }
    | .ok x =>
      if p.voidPending then none
      else (s.forward a d).map (fun t => { t with part := { t.part with asm := some x } })

/-- A write past the break of R42 is placed by its address (R31, R32): a released K1 under the device mode at its release (R51; log
50), any other write under the mode of that moment, which a burst it was stretched behind may have changed (R47). -/
def State.classify (a : Addr) (d : Word) (t : Nat) (released : Option Mode) (s : State) : Option State :=
  let p := s.part
  let n := addrSeg a.toNat
  let refuse (c : RefusalCause) : Option State := some { s with part := p.refuseWrite a c }
  match released.getD p.mode with
  | .unformatted => s.forward a d
  | .foreign => refuse .foreignStore
  | _ =>
    if n = 0 then
      if a.toNat < 16 then refuse .label
      else if a.toNat < 2048 then
        if p.route.state ≠ .idle then refuse .routeLocked
        else (s.forward a d).map (fun t => { t with part := t.part.disturbLoad })
      else s.forward a d
    else if p.store.nSeg ≤ n then refuse .outOfStore
    else if p.headerPending n then none
    else s.writeRecord a d t

/-- The write waits for what stood before it: a burst, requester 2's turn, or its segment's header (R22, R47, R48). -/
def Part.heldBack (p : Part) (a : Addr) : Bool := !p.portFree || p.headerPending (addrSeg a.toNat)

/-- A write taken at route clock `t` breaks the record under assembly, if it is a break, and is placed. A break whose write
waits for what stood before it is made with the placement; one whose write waits for the break's own VOID or header is made
first (R22, R29, R42; log 17). -/
def State.place (a : Addr) (d : Word) (t : Nat) (released : Option Mode) (s : State) : Option (State × List Work) :=
  if s.part.breaks a then
    let b := { s with part := s.part.voidAssembly t true }
    match b.classify a d t released with
    | some u => some (u, [])
    | none => if s.part.heldBack a then none else some (b, [.place a d t released])
  else (s.classify a d t released).map (fun u => (u, []))

/-! ## Accesses that wait -/

/-- One piece of work of the port: the state after it and the work it hands on, or none while it must wait. -/
def State.tryWork (w : Work) (s : State) : Option (State × List Work) :=
  match w with
  | .write a d dock =>
    let (p, more) := s.part.arrive a d dock
    some ({ s with part := p }, more)
  | .gate a d dock =>
    let (p, more) := s.part.gateWrite a d dock
    some ({ s with part := p }, more)
  | .read a => some (s.arriveRead a)
  | .police a d m => s.police a d m
  | .place a d t m => s.place a d t m
  | .modeRead a => (s.modeRead a).map (fun t => (t, []))

def State.setWaiting (ws : List Work) (s : State) : State := { s with port := { s.port with waiting := ws } }

/-- The accesses at the port are served in order until one must wait (R29, R30). -/
def State.pump : Nat → State → State
  | 0, s => s
  | fuel + 1, s =>
    match s.port.waiting with
    | [] => s
    | w :: rest =>
      match s.tryWork w with
      | none => s
      | some (t, more) => State.pump fuel (t.setWaiting (more ++ rest))

/-- After an event the port serves what waited, and the arbiter grants a free port (R29, R46, R47; log 9). -/
def State.settle (s : State) : State :=
  let t := s.pump (8 * s.port.waiting.length)
  if t.port.waiting.isEmpty then { t with part := t.part.grantPort } else t

/-- An access arrives: served at once while the part runs, held while RESET is asserted or a mount runs, lost without SUPPLY
(R29, R47, R199). -/
def State.access (w : Work) (s : State) : State :=
  let t := s.setWaiting (s.port.waiting ++ [w])
  if s.part.running then t.settle else if s.part.power = .off then s else t

/-- The DOCK pin has a level (section 4). -/
def Part.setDock (dock : Bool) (p : Part) : Part := { p with pins := { p.pins with dock := dock } }

/-- UPSTREAM_WRITE (R30). -/
def execUpstreamWrite (a : Addr) (d : Word) (dock : Bool) (s : State) : Host.Outcome State Fault Refusal :=
  .next (State.access (.write a d dock) { s with part := s.part.setDock dock })

/-- UPSTREAM_READ (R45). -/
def execUpstreamRead (a : Addr) (s : State) : Host.Outcome State Fault Refusal := .next (s.access (.read a))

/-- A command as the writes that give it: K1, K2, the code, the parameter words, all to `a` (R50; log 3). -/
def State.giveCommand (a : Addr) (c : Command) (ps : List Word) (dock : Bool) (s : State) : State :=
  (keyWord1 :: keyWord2 :: c.code :: ps).foldl (fun s d => s.access (.write a d dock))
    { s with part := s.part.setDock dock }

end Sys2Proof.Machine
end

