-- ==== Sys2Proof/Machine/Bursts.lean ====
section
/-! DEFINITION. The rows at which a burst of the part completes, and the rows at which one of its units acts on its own: reads of
the sheet, requester 2's writes, the record joins, the retire batch, FORMAT, VERIFY, scrub and DOCK. -/

namespace Sys2Proof.Machine

/-- A row that comes about only while the part runs and `ready` holds; otherwise nothing changes (log 1). The port and the
arbiter then go on. -/
def State.whenReady (ready : Part → Bool) (f : State → State) (s : State) : Host.Outcome State Fault Refusal :=
  .next (if s.part.running && ready s.part then (f s).settle else s)

/-- A row of that kind that acts on the chip alone. -/
def State.partEvent (ready : Part → Bool) (f : Part → Part) (s : State) : Host.Outcome State Fault Refusal :=
  s.whenReady ready (fun s => { s with part := f s.part })

/-! ## Reads of the route sheet (R64, R83) -/

/-- ROUTE_LOAD_READ_BURST (R83). -/
def State.sheetBurst (s : State) : State :=
  let got := match s.part.route.load with | some l => l.words.length | none => 0
  { s with part := s.part.endBurst.takeSheetBurst (s.mem.readWords (16 + got) 16) }

def execRouteLoadReadBurst (s : State) : Host.Outcome State Fault Refusal :=
  s.whenReady (fun p => p.arb.burst == some .sheetRead) State.sheetBurst

/-- SERVICE_ENTER_READ_END (R64): the burst of words 16 to 31 and the second test of DOCK. -/
def State.fieldBurst (dock : Bool) (s : State) : State :=
  let p := s.part.endBurst.setDock dock
  match p.chan.running with
  | some { work := .serviceEnter value, .. } =>
    { s with part := p.fieldsRead value dock (Held.ofWords (s.mem.readWords 16 16)) }
  | _ => { s with part := p }

def execServiceEnterReadEnd (dock : Bool) (s : State) : Host.Outcome State Fault Refusal :=
  s.whenReady (fun p => p.arb.burst == some .fieldRead) (State.fieldBurst dock)

/-! ## Requester 2 (R22, R26) -/

/-- The answer's slot is no longer reserved once its write has completed (R20). -/
def Part.directDone (e : DirectEntry) (p : Part) : Part :=
  { p with store := { p.store with direct := p.store.direct.drop 1 } }
  |> (fun p => if e.kind = .answer then p.modStream .delivery (fun x => { x with reserved := none }) else p)
  |> Part.grant2

/-- The head of the direct write list is written (R22). -/
def State.writeDirect (s : State) : State :=
  match s.part.store.direct with
  | [] => s
  | e :: _ => { s with mem := s.mem.writeWords (slotAddr e.seg e.slot) e.words, part := s.part.directDone e }

/-- DIRECT_WRITE_COMPLETE (R22). -/
def execDirectWriteComplete (s : State) : Host.Outcome State Fault Refusal :=
  s.whenReady (fun p => p.arb.burst.isNone && !p.store.direct.isEmpty) State.writeDirect

/-- The lowest owed condition rewrite is written (R11, R22). -/
def State.writeCondition (s : State) : State :=
  match s.part.owedRewrite with
  | none => s
  | some (n, w) =>
    { s with mem := s.mem.write (segBase n + 1) w, part := (s.part.modSeg n (fun e => { e with owed := .none })).grant2 }

/-- CONDITION_REWRITE (R11). -/
def execConditionRewrite (s : State) : Host.Outcome State Fault Refusal :=
  s.whenReady (fun p => p.arb.burst.isNone && p.store.direct.isEmpty && p.owedRewrite.isSome) State.writeCondition

def Part.startRecordBurst (t : Taken) (p : Part) : Part :=
  { p.grant2 with arb := { p.grant2.arb with burst := some (.record (slotAddr t.seg t.slot) t.words) } }

/-- The head entry takes slot `s` of segment `n`: sequence number, receipt time and chain (R26). -/
def Part.commitHead (e : QueueEntry) (rest : List QueueEntry) (n s : Nat) (p : Part) : Part :=
  let x := p.stream e.stream
  let words := recordWords e.kind e.body p.clock.now x.running
  let t : Taken := { seg := n, slot := s, seq := x.nextRec, words := words }
  { p with queue := { e with taken := some t } :: rest }
  |> Part.noteReceipt p.clock.now
  |> Part.advanceStream e.stream n (recordChainField words)
  |> Part.slotConsumed e.stream n s true
  |> Part.startRecordBurst t

/-- The head entry is served: its segment is opened if it needs one, or it is committed and its burst begins (R26). An entry
whose burst a restart stopped is written again from its first word (R28). -/
def Part.serveHead (p : Part) : Part :=
  match p.queue with
  | [] => p
  | e :: rest =>
    match e.taken with
    | some t => p.startRecordBurst t
    | none =>
      match (p.stream e.stream).openSeg, (p.stream e.stream).append with
      | some n, some s => p.commitHead e rest n s
      | _, _ => if (p.stream e.stream).stalled then p else p.needSegment e.stream

/-- RECORD_WRITER_SERVE (R26): requester 2 has no direct write or owed rewrite, and no FORMAT runs (R194; log 36). -/
def execRecordWriterServe (s : State) : Host.Outcome State Fault Refusal :=
  s.partEvent (fun p => p.arb.burst.isNone && p.store.direct.isEmpty && p.owedRewrite.isNone && !p.formatRunning)
    Part.serveHead

/-- The head entry leaves the queue at the end of its burst; the scanner may resume, and ROUTE_END closes the route (R26, R87,
R129). -/
def Part.headWritten (p : Part) : Part :=
  match p.queue with
  | [] => p
  | e :: rest =>
    if e.taken.isSome then
      let q := { p with queue := rest } |> Part.resumeScanner
      if e.kind = .routeEnd then q.closeRoute else q
    else p

/-- The record writer's burst is written (R26). -/
def State.writeRecordBurst (s : State) : State :=
  match s.part.arb.burst with
  | some (.record base words) => { s with mem := s.mem.writeWords base words, part := s.part.endBurst.headWritten }
  | _ => s

def Part.inRecordBurst (p : Part) : Bool :=
  match p.arb.burst with
  | some (.record _ _) => true
  | _ => false

/-- RECORD_WRITER_WRITE_COMPLETE (R26). -/
def execRecordWriterWriteComplete (s : State) : Host.Outcome State Fault Refusal :=
  s.whenReady Part.inRecordBurst State.writeRecordBurst

/-! ## Records that wait to join the queue (R86, R93, R201) -/

/-- ROUTE_END_RECORD_JOIN (R86). -/
def execRouteEndRecordJoin (s : State) : Host.Outcome State Fault Refusal := s.onRunning Part.joinRouteEnd

/-- OUTAGE_RECORD_JOIN (R93). -/
def execOutageRecordJoin (s : State) : Host.Outcome State Fault Refusal := s.onRunning Part.joinOutage

/-- The body of the owed OUTAGE record (R201, R212); a count of merged outages past one word is written modulo 65,536 (log 58). -/
def OwedOutage.body (o : OwedOutage) : List Word := outageBody o.fail o.restart o.secs o.merged o.comps.toNat o.count

/-- The body of the owed warm RESTART record (R202, R212; log 47); the count of merged restarts as that of outages (log 58). -/
def OwedRestart.body (o : OwedRestart) : List Word :=
  let claim := match o.ended with | .verify i => i | _ => 255
  [0] ++ words32 o.fail ++ words32 o.restart ++ [wordOf o.merged, bytesWord o.ended.code.toNat claim]
    ++ (match o.voided with
        | some (st, n, s) => [st.code, wordOf n, wordOf s]
        | none => [blank, blank, blank])

def Part.joinOwedOutage (p : Part) : Part :=
  match p.backup.outage with
  | some o =>
    if 5 ≤ p.freeEntries then
      { p with backup := { p.backup with outage := none } } |> Part.addRecord .event .outage o.body
    else p
  | none => p

def Part.joinOwedRestart (p : Part) : Part :=
  match p.backup.outage, p.backup.restart with
  | none, some r =>
    if 5 ≤ p.freeEntries then
      { p with backup := { p.backup with restart := none } } |> Part.addRecord .event .restart r.body
    else p
  | _, _ => p

/-- RESTART_RECORDS_JOIN (R201): OUTAGE first, each when five entries are free. -/
def execRestartRecordsJoin (s : State) : Host.Outcome State Fault Refusal :=
  s.onRunning (fun p => p.joinOwedOutage.joinOwedRestart)

/-! ## The retire batch (R181 to R183) -/

/-- COLLECTION_WINDOW_EXPIRY (R181). -/
def execCollectionWindowExpiry (s : State) : Host.Outcome State Fault Refusal :=
  s.partEvent (fun _ => true) Part.windowExpires

/-- The condition RETIRING is written to a segment's header (R182, step 3). -/
def State.writeRetiring (n : Nat) (s : State) : State :=
  { s with mem := s.mem.write (segBase n + 1) conditionRetiring, part := s.part.setBlankPos 16383 }

/-- A one-word burst of requester 3 can be made at once (log 42). -/
def State.portIdle (s : State) : Bool := s.part.arb.burst.isNone && s.port.waiting.isEmpty && !s.part.req2Waiting

/-- The next segment is marked, and its condition rewritten when the port is free (R182, steps 1 to 3; log 42). -/
def State.markNext (s : State) : State :=
  let t := { s with part := s.part.takeNextSeg }
  match t.part.retiringRewrite with
  | some n => if t.portIdle then t.writeRetiring n else t
  | none => t

/-- BLANKING_MARK (R182). -/
def Part.awaitsMark (p : Part) : Bool :=
  p.retire.state == .blanking && (match p.retire.batch with | some b => b.current.isNone | none => false)

def execBlankingMark (s : State) : Host.Outcome State Fault Refusal := s.whenReady Part.awaitsMark State.markNext

/-- One burst of the blanking: the condition rewrite, or the slot whose highest word is `w` (R182, R183). -/
def State.blankBurst (s : State) : State :=
  let p := s.part.endBurst
  match p.retiringRewrite, p.retire.batch with
  | some n, _ => { { s with part := p }.writeRetiring n with part := (p.setBlankPos 16383).afterLongBurst false }
  | none, some b =>
    (match b.current, b.pos with
     | some n, .word w =>
       { s with
         mem := s.mem.writeWords (segBase n + (w - 15)) (List.replicate 16 blank)
         part := if 16 ≤ w then (p.setBlankPos (w - 16)).afterLongBurst false
                 else (p.segBlanked n).afterLongBurst (p.segBlanked n).retire.batch.isNone }
     | _, _ => { s with part := p })
  | none, none => { s with part := p }

/-- BLANKING_BURST (R182). -/
def execBlankingBurst (s : State) : Host.Outcome State Fault Refusal :=
  s.whenReady (fun p => p.inLongBurst && p.retire.state == .blanking) State.blankBurst

/-! ## FORMAT (R193) -/

/-- One burst of the FORMAT (R193). -/
def State.formatBurst (s : State) : State :=
  let p := s.part.endBurst
  match p.retire.fmt with
  | none => { s with part := p }
  | some f =>
    match f.stage with
    | .label =>
      { s with mem := s.mem.writeWords 0 (List.replicate 16 blank)
               part := (p.setFormatStage (.segment 1 16383)).afterLongBurst false }
    | .segment n w =>
      { s with mem := s.mem.writeWords (segBase n + (w - 15)) (List.replicate 16 blank)
               part := (p.setFormatStage (f.afterBurst n w)).afterLongBurst false }
    | .write =>
      { s with mem := s.mem.writeWords 0 (labelWords f.code p.clock.now)
               part := (p.formatComplete f.code).afterLongBurst true }

/-- FORMAT_BURST (R193). -/
def execFormatBurst (s : State) : Host.Outcome State Fault Refusal :=
  s.whenReady (fun p => p.inLongBurst && p.formatRunning) State.formatBurst

/-! ## VERIFY (R164, R165, R174) -/

/-- VERIFY_START (R164; log 39). -/
def execVerifyStart (s : State) : Host.Outcome State Fault Refusal := s.partEvent (fun _ => true) (Part.slotsChanged false)

/-- One slot read of the running VERIFY; a SUSPEND or TERMINATE that waits acts before the phase it has reached goes on (R165). -/
def State.verifyBurst (s : State) : State :=
  let p := s.part.endBurst
  match p.verify with
  | none => { s with part := p }
  | some v =>
    let (n, k) := v.readAt
    { s with part := ((p.verifySlot v (s.mem.slot n k)).afterLongBurst false).passCheck }

/-- VERIFY_BURST (R165). -/
def execVerifyBurst (s : State) : Host.Outcome State Fault Refusal :=
  s.whenReady (fun p => p.inLongBurst && p.verifyRunning) State.verifyBurst

/-- EXTRACT_RECORD_ADD (R174). -/
def execExtractRecordAdd (s : State) : Host.Outcome State Fault Refusal :=
  s.partEvent (fun _ => true) Part.extractStep

/-! ## Scrub (R188, R190) -/

/-- SCRUB_STEP_DUE (R188). -/
def execScrubStepDue (s : State) : Host.Outcome State Fault Refusal := s.partEvent Part.scrubDue Part.stepDue

/-- One slot read of the scrub step; a step that a FORMAT has dropped reads nothing (R190, R193). -/
def State.scrubBurst (s : State) : State :=
  let p := s.part.endBurst
  match p.scrub.step with
  | none => { s with part := p }
  | some st => { s with part := p.scrubSlot st (s.mem.slot st.check.seg st.check.slot) }

/-- SCRUB_BURST (R190). -/
def execScrubBurst (s : State) : Host.Outcome State Fault Refusal :=
  s.whenReady (fun p => p.arb.burst == some .scrub) State.scrubBurst

/-! ## DOCK (R61) -/

/-- DOCK falls: in SERVICE the mode becomes GUARDED (R61). -/
def Part.dockFalls (p : Part) : Part :=
  let q := p.setDock false
  if q.mode = .service then q.leaveService else q

/-- DOCK_FALL (R61); while RESET is asserted or without SUPPLY only the level changes (log 44). -/
def execDockFall (s : State) : Host.Outcome State Fault Refusal :=
  .next (if s.part.running then State.settle { s with part := s.part.dockFalls }
    else { s with part := s.part.setDock false })

end Sys2Proof.Machine
end

