-- ==== Sys2Proof/Machine/Clock.lean ====
section
/-! DEFINITION. The advance of the route clock (R89, R109, R124, R125). -/

namespace Sys2Proof.Machine

/-- One second of a context: door-open seconds while DOOR_OPEN is set (R109). -/
def Ctx.second (x : Ctx) : Ctx :=
  if x.thermal ≠ .idle ∧ x.doorOpen then { x with doorSecs := sat16 (x.doorSecs + 1) } else x

/-- One second of a slot of the scan mode that stands open (R124). -/
def Slot.second (x : Slot) : Slot := if x.accepted then { x with openSecs := sat32 (x.openSecs + 1) } else x

/-- One second of the scanner: open seconds while it is RUNNING or FROZEN (R124). -/
def Scanner.second (x : Scanner) : Scanner :=
  if x.run = .stopped then x
  else { x with slots := x.slots.mapIdx (fun k y => if k < x.slotCount then y.second else y) }

/-- The dwell test of this advance begins: only while the scanner is RUNNING and RESET is released (R125; log 33). -/
def Scanner.beginDwell (part : Bool) (x : Scanner) : Scanner :=
  { x with dwellTest := if part && x.run == .running then some 0 else none }

/-- The route clock advances by one, and with SUPPLY present the seconds are counted (R89, R109, R124). -/
def Part.advanceClock (p : Part) : Part :=
  let q := { p with clock := { p.clock with now := p.clock.now + 1 } }
  if p.power = .off then q
  else { q with ctxs := q.ctxs.map Ctx.second, scan := q.scan.second.beginDwell p.running }

/-- ROUTE_CLOCK_ADVANCE (R89, R124): not past the largest count, and not while the backup domain is lost (log 38). -/
def execRouteClockAdvance (s : State) : Host.Outcome State Fault Refusal :=
  .next (if s.part.clock.now < max32 ∧ !s.part.backup.lost then { s with part := s.part.advanceClock } else s)

end Sys2Proof.Machine
end

