-- ==== Sys2Proof/Machine/CommandRows.lean ====
section
/-! DEFINITION. The twenty commands of R57 as rows: each is its own sequence of upstream writes (R50; log 3), with the effect
that Part.judge gives it at its last write. The level of DOCK is the last one given, but for SERVICE ENTER and FORMAT, which
test it. -/

namespace Sys2Proof.Machine

/-- REPORT (R63). -/
def execReport (a : Addr) (s : State) : Host.Outcome State Fault Refusal :=
  .next (s.giveCommand a .report [] s.part.pins.dock)

/-- ACKNOWLEDGE (R67). -/
def execAcknowledge (a : Addr) (causes : Word) (s : State) : Host.Outcome State Fault Refusal :=
  .next (s.giveCommand a .acknowledge [causes] s.part.pins.dock)

/-- IDENTITY (R65). -/
def execIdentity (a : Addr) (s : State) : Host.Outcome State Fault Refusal :=
  .next (s.giveCommand a .identity [] s.part.pins.dock)

/-- WHERE (R66). -/
def execWhereIs (a : Addr) (stream : Word) (s : State) : Host.Outcome State Fault Refusal :=
  .next (s.giveCommand a .whereIs [stream] s.part.pins.dock)

/-- CLOCK SET (R91). -/
def execClockSet (a : Addr) (p1 p2 p3 p4 p5 p6 : Word) (s : State) : Host.Outcome State Fault Refusal :=
  .next (s.giveCommand a .clockSet [p1, p2, p3, p4, p5, p6] s.part.pins.dock)

/-- ROUTE LOAD (R83). -/
def execRouteLoad (a : Addr) (p1 p2 p3 : Word) (s : State) : Host.Outcome State Fault Refusal :=
  .next (s.giveCommand a .routeLoad [p1, p2, p3] s.part.pins.dock)

/-- ROUTE END (R86). -/
def execRouteEnd (a : Addr) (s : State) : Host.Outcome State Fault Refusal :=
  .next (s.giveCommand a .routeEnd [] s.part.pins.dock)

/-- RESCAN (R131). -/
def execRescan (a : Addr) (slot : Word) (s : State) : Host.Outcome State Fault Refusal :=
  .next (s.giveCommand a .rescan [slot] s.part.pins.dock)

/-- AUDIT (R132). -/
def execAudit (a : Addr) (s : State) : Host.Outcome State Fault Refusal :=
  .next (s.giveCommand a .audit [] s.part.pins.dock)

/-- CLAIM OPEN (R163). -/
def execClaimOpen (a : Addr) (idLo idHi : Word) (s : State) : Host.Outcome State Fault Refusal :=
  .next (s.giveCommand a .claimOpen [idLo, idHi] s.part.pins.dock)

/-- CLAIM READ (R176). -/
def execClaimRead (a : Addr) (index : Word) (s : State) : Host.Outcome State Fault Refusal :=
  .next (s.giveCommand a .claimRead [index] s.part.pins.dock)

/-- CLAIM CLOSE (R177). -/
def execClaimClose (a : Addr) (index : Word) (s : State) : Host.Outcome State Fault Refusal :=
  .next (s.giveCommand a .claimClose [index] s.part.pins.dock)

/-- PROGRESS (R77). -/
def execProgress (a : Addr) (s : State) : Host.Outcome State Fault Refusal :=
  .next (s.giveCommand a .progress [] s.part.pins.dock)

/-- SUSPEND (R74). -/
def execSuspend (a : Addr) (s : State) : Host.Outcome State Fault Refusal :=
  .next (s.giveCommand a .suspend [] s.part.pins.dock)

/-- RESUME (R75). -/
def execResume (a : Addr) (s : State) : Host.Outcome State Fault Refusal :=
  .next (s.giveCommand a .resume [] s.part.pins.dock)

/-- TERMINATE (R76). -/
def execTerminate (a : Addr) (s : State) : Host.Outcome State Fault Refusal :=
  .next (s.giveCommand a .terminate [] s.part.pins.dock)

/-- SERVICE ENTER (R64). -/
def execServiceEnter (a : Addr) (p1 p2 p3 : Word) (dock : Bool) (s : State) : Host.Outcome State Fault Refusal :=
  .next (s.giveCommand a .serviceEnter [p1, p2, p3] dock)

/-- SERVICE LEAVE (R62). -/
def execServiceLeave (a : Addr) (s : State) : Host.Outcome State Fault Refusal :=
  .next (s.giveCommand a .serviceLeave [] s.part.pins.dock)

/-- RETIRE (R180). -/
def execRetire (a : Addr) (segment : Word) (s : State) : Host.Outcome State Fault Refusal :=
  .next (s.giveCommand a .retire [segment] s.part.pins.dock)

/-- FORMAT (R193). -/
def execFormat (a : Addr) (p1 p2 p3 : Word) (dock : Bool) (s : State) : Host.Outcome State Fault Refusal :=
  .next (s.giveCommand a .format [p1, p2, p3] dock)

end Sys2Proof.Machine
end

