-- ==== Sys2Proof/Machine/Mount.lean ====
section
/-! DEFINITION. The mount of a cold restart (R203 to R209), as one reading of the record memory: the state it leaves and the
words it writes, in order. -/

namespace Sys2Proof.Machine

/-! ## The store label (R192, R203) -/

/-- A valid store label: size code, format time, unique number, chain seed. -/
structure Label where
  code : Nat
  time : Nat
  unique : List Word
  seed : DWord
deriving DecidableEq, Repr

/-- The label in words 0 to 15 of segment 0, when it is valid (R192). -/
def Memory.label (m : Memory) : Option Label :=
  let ws := Memory.readWords m 0 16
  let code := (wordAt ws 1).toNat
  if wordAt ws 0 = 0x6C52 ∧ 1 ≤ code ∧ code ≤ 3 ∧ dwordAt ws 14 = labelSeed (ws.take 14) then
    some { code := code, time := num32At ws 2, unique := (ws.drop 4).take 4, seed := dwordAt ws 14 }
  else none

/-- Mode and store as the label gives them, before any segment has been read (R60, R203). -/
def Label.judge : Option Label → Mode × Store
  | none => (.unformatted, .absent)
  | some l =>
    if l.unique = uniqueWords then
      (.guarded, { Store.absent with nSeg := segCount l.code, sizeCode := l.code, formatTime := some l.time, seed := l.seed })
    else (.foreign, { Store.absent with sizeCode := l.code, formatTime := some l.time })

/-! ## Segments (R204, R205) -/

/-- A record segment with a valid header: what the header says, and its last consumed slot. -/
structure Found where
  number : Nat
  state : SegState
  stream : Stream
  segSeq : BitVec 16
  openTime : Nat
  first : DWord
  entry : DWord
  last : Nat
deriving DecidableEq, Repr

def Memory.slotChain (m : Memory) (n s : Nat) : DWord := recordChainField (Memory.slot m n s)

def Memory.slotMarked (m : Memory) (n s : Nat) : Bool := marked (Memory.read m (slotAddr n s))

/-- The highest slot from 1 to `k` whose word 0 is marked; 0 when there is none. -/
def Memory.lastMarked (m : Memory) (n : Nat) : Nat → Nat
  | 0 => 0
  | k + 1 => if Memory.slotMarked m n (k + 1) then k + 1 else Memory.lastMarked m n k

/-- The state a header's condition gives (R204). -/
def conditionState (w : Word) : SegState :=
  if w = conditionOpen then .opened else if w = conditionClosed then .closed else if w = conditionFaulted then .faulted
  else .scrap

/-- The header in slot 0 of a segment, when it is valid and names a readable state (R204). -/
def Memory.header (m : Memory) (n : Nat) : Option Found :=
  let ws := Memory.slot m n 0
  match Stream.ofCode (wordAt ws 2) with
  | none => none
  | some st =>
    if wordAt ws 0 = Kind.header.headerWord ∧ recordChain (dwordAt ws 6) ws = recordChainField ws
        ∧ (conditionState (wordAt ws 1)).readable then
      some { number := n, state := conditionState (wordAt ws 1), stream := st, segSeq := wordAt ws 3,
             openTime := num32At ws 8, first := dwordAt ws 4, entry := dwordAt ws 6,
             last := Memory.lastMarked m n 1023 }
    else none

def Memory.slotBlank (m : Memory) (n s : Nat) : Bool := (Memory.slot m n s).all (· == blank)

/-- The last slot's tail is valid (R205). -/
def Memory.tailValid (m : Memory) (n s : Nat) : Bool :=
  recordChain (Memory.slotChain m n (s - 1)) (Memory.slot m n s) == Memory.slotChain m n s

/-- The slots of a segment whose writes were cut off, in ascending order (R205; log 49). -/
def Found.cutSlots (h : Found) (m : Memory) : List Nat :=
  ((List.range h.last).map (· + 1)).filter (fun s =>
    if s < h.last then !Memory.slotMarked m h.number s else !Memory.tailValid m h.number s)

/-- The newest receipt time a segment shows: its open time, or that of its last slot with a valid tail (R205; log 25). -/
def Found.newestTime (h : Found) (m : Memory) : Nat :=
  let s := if h.last = 0 then 0
    else if Memory.tailValid m h.number h.last then h.last
    else Memory.lastMarked m h.number (h.last - 1)
  if s = 0 then h.openTime else max h.openTime (recordReceipt (Memory.slot m h.number s))

/-- The route clock of the mount (R205). -/
def mountClock (m : Memory) (hs : List Found) (formatTime : Nat) : Nat :=
  if hs.isEmpty then formatTime else (hs.map (fun h => h.newestTime m)).foldl max 0

/-! ## Tails (R205) -/

/-- A LOAD, DELIVERY or UNLOAD request. -/
def isRequest (ws : List Word) : Bool :=
  match Kind.ofHeader (wordAt ws 0) with
  | some k => k.isRequest
  | none => false

/-- The segment of a stream with the segment sequence number one below (R205). -/
def Found.predecessor (h : Found) (hs : List Found) : Option Found :=
  hs.find? (fun g => g.stream == h.stream && g.segSeq + 1 == h.segSeq)

/-- The request whose answer slot this is, if it is one (R205). -/
def Found.requestBefore (h : Found) (hs : List Found) (m : Memory) (s : Nat) : Option (List Word) :=
  let before := if s = 1 then
      (if h.stream = .delivery then (h.predecessor hs).map (fun g => Memory.slot m g.number 1023) else none)
    else some (Memory.slot m h.number (s - 1))
  before.filter isRequest

/-- The answer RESTART_UNANSWERED to a request (R161, R206; log 29). -/
def unanswered (req : List Word) : Answer :=
  if wordAt req 0 = Kind.load.headerWord then
    { kind := .loadAck, body := loadAckBody (LoadBody.ofWords req) .restartUnanswered blank blank blank }
  else
    let isDelivery := wordAt req 0 = Kind.delivery.headerWord
    let b := DeliveryBody.ofWords req
    { kind := .proof
      body := proofBody b.id (if isDelivery then b.stop else 0) .restartUnanswered Flags.clear 0
        (if isDelivery then b.quantity else 0) none Figures.zero 0 0 }

/-- The mount's work so far: the memory as written, the words written in order, slots voided, a request completed. -/
structure Settling where
  mem : Memory
  writes : List (Nat × Word)
  voided : Nat
  completed : Bool
deriving DecidableEq, Repr

def wordsAt (base : Nat) (ws : List Word) : List (Nat × Word) := ws.mapIdx (fun i w => (base + i, w))

/-- A record is written over a slot. -/
def Settling.put (x : Settling) (n s : Nat) (ws : List Word) : Settling :=
  { x with mem := Memory.writeWords x.mem (slotAddr n s) ws, writes := x.writes ++ wordsAt (slotAddr n s) ws }

/-- One cut-off slot is answered or voided (R205). -/
def Settling.settleSlot (clock : Nat) (hs : List Found) (h : Found) (x : Settling) (s : Nat) : Settling :=
  let seed := Memory.slotChain x.mem h.number (s - 1)
  match h.requestBefore hs x.mem s with
  | some req =>
    let ans := unanswered req
    { x.put h.number s (recordWords ans.kind ans.body clock seed) with completed := true }
  | none =>
    let body := (Memory.slot x.mem h.number s).drop 1
    { x.put h.number s (recordWords .void body clock seed) with voided := x.voided + 1 }

/-- Every cut-off slot of every segment is settled (R205). -/
def settleTails (clock : Nat) (hs : List Found) (m : Memory) : Settling :=
  hs.foldl (fun x h => (h.cutSlots m).foldl (Settling.settleSlot clock hs h) x)
    { mem := m, writes := [], voided := 0, completed := false }

/-! ## Tables (R14, R19, R205) -/

/-- Of two segments of a stream, the one with the higher first record sequence number, then segment sequence number. -/
def Found.newer (a : Option Found) (b : Found) : Option Found :=
  match a with
  | none => some b
  | some a =>
    if a.first.toNat < b.first.toNat ∨ (a.first = b.first ∧ a.segSeq.toNat < b.segSeq.toNat) then some b else some a

def newestOf (hs : List Found) : Option Found := hs.foldl Found.newer none

/-- The stream's segments. -/
def ofStream (hs : List Found) (st : Stream) : List Found := hs.filter (fun h => h.stream == st)

/-- The stream's open segment (R205). -/
def openOf (hs : List Found) (st : Stream) : Option Found :=
  (newestOf ((ofStream hs st).filter (fun h => h.state == .opened))).filter (fun h => h.last < 1023)

/-- The state of a segment once the open segments are resolved (R205). -/
def Found.resolved (h : Found) (hs : List Found) : SegState :=
  if h.state = .opened then
    (if (openOf hs h.stream).map (fun g => g.number) = some h.number then .opened else .closed)
  else h.state

/-- The segment table entry of a valid header (R14); `m` is the memory with the tails settled. -/
def Found.entryOf (h : Found) (hs : List Found) (m : Memory) : SegEntry :=
  let st := h.resolved hs
  { state := st, stream := some h.stream, segSeq := some h.segSeq, openTime := some h.openTime
    closeTime := if st = .opened then none
      else some (if h.last = 0 then h.openTime else recordReceipt (Memory.slot m h.number h.last))
    firstRec := some h.first, count := some h.last, entryChain := some h.entry
    exitChain := if st = .opened then none else some (Memory.slotChain m h.number h.last)
    holds := 0, owed := .none }

/-- A SCRAP entry read at mount (R14). -/
def SegEntry.scrapEntry : SegEntry := { SegEntry.blankEntry with state := .scrap, count := some 0 }

/-- The entry of segment `n` (R14, R204). -/
def mountEntry (hs : List Found) (m : Memory) (n : Nat) : SegEntry :=
  match hs.find? (fun h => h.number == n) with
  | some h => h.entryOf hs m
  | none => if Memory.slotBlank m n 0 then SegEntry.blankEntry else SegEntry.scrapEntry

/-- The sequence number after the last record found of a stream, or 1 when no record of it is found (R19; log 26). -/
def nextRecord (hs : List Found) (st : Stream) : DWord :=
  match newestOf ((ofStream hs st).filter (fun h => h.last != 0)) with
  | none => 1
  | some h => h.first + BitVec.ofNat 32 h.last

/-- The stream table entry of a stream (R19). -/
def mountStream (hs : List Found) (m : Memory) (seed : DWord) (st : Stream) : StreamEntry :=
  let o := openOf hs st
  match newestOf (ofStream hs st) with
  | none => .fresh seed
  | some h =>
    { openSeg := o.map (fun g => g.number), append := o.map (fun g => g.last + 1)
      nextRec := nextRecord hs st, nextSeq := h.segSeq + 1
      running := Memory.slotChain m h.number h.last, reserved := none, stalled := false }

/-- The store as the headers and tails give it. -/
def Store.mounted (base : Store) (hs : List Found) (m : Memory) : Store :=
  let numbers := (List.range (base.nSeg - 1)).map (· + 1)
  let segs := numbers.map (mountEntry hs m)
  { base with
    segs := segs
    pool := numbers.filter (fun n => (mountEntry hs m n).state == .blank)
    streams := { sample := mountStream hs m base.seed .sample, event := mountStream hs m base.seed .event
                 delivery := mountStream hs m base.seed .delivery, claim := mountStream hs m base.seed .claim }
    direct := [] }

/-! ## The newest request (R206) -/

/-- The last record of a segment, or of the nearest one before it in its stream that has a record; `fuel` bounds the segments
looked at. -/
def lastRecord (hs : List Found) : Nat → Found → Option (Nat × Nat)
  | 0, _ => none
  | fuel + 1, h => if h.last ≠ 0 then some (h.number, h.last) else (h.predecessor hs).bind (lastRecord hs fuel)

/-- Where the DELIVERY stream's last committed record stands (R206; log 64). -/
def lastDelivery (hs : List Found) : Option (Nat × Nat) :=
  (newestOf (ofStream hs .delivery)).bind (lastRecord hs hs.length)

/-- The answer takes slot `s` of segment `n`; a segment it fills is CLOSED and owes nothing (R206). Its seed is the running
chain, in slot 1 of a new segment the header's (log 56). -/
def Part.mountAnswer (ans : Answer) (t n s : Nat) (p : Part) : Part :=
  let words := recordWords ans.kind ans.body t (p.stream .delivery).running
  p
  |> Part.advanceStream .delivery n (recordChainField words)
  |> Part.pushDirect { kind := .answer, seg := n, slot := s, words := words }
  |> Part.slotConsumed .delivery n s false
  |> Part.modSeg n (fun e => { e with owed := .none, closeTime := if e.state = .opened then none else some t })

/-- The slot for the answer to a request in slot `s` of segment `n`, opening a segment when it needs one (R206; log 27). -/
def Part.answerSpot (n s : Nat) (p : Part) : Part × Option (Nat × Nat) :=
  if s < 1023 then (p, some (n, s + 1))
  else
    match (p.stream .delivery).openSeg, (p.stream .delivery).append with
    | some m, some a => (p, some (m, a))
    | _, _ =>
      let q := p.openSegment .delivery
      (q, (q.stream .delivery).openSeg.map (fun m => (m, 1)))

/-- The newest request without an answer is completed (R206): the part, and whether it was. -/
def Part.completeNewest (hs : List Found) (m : Memory) (p : Part) : Part × Bool :=
  match lastDelivery hs with
  | none => (p, false)
  | some (n, s) =>
    let req := Memory.slot m n s
    if isRequest req then
      match p.answerSpot n s with
      | (q, some (a, b)) => (q.mountAnswer (unanswered req) (recordReceipt req) a b, true)
      | (q, none) => (q, false)
    else (p, false)

/-- The words of the direct write list, in order: the mount makes these writes itself. -/
def Part.directWrites (p : Part) : List (Nat × Word) :=
  (p.store.direct.map (fun e => wordsAt (slotAddr e.seg e.slot) e.words)).flatten

def Part.clearDirect (p : Part) : Part := { p with store := { p.store with direct := [] } }

/-! ## Walks backward (R207, R208) -/

/-- The slots of a segment from the highest committed down to 1. -/
def Memory.slotsDown (m : Memory) (n : Nat) : Nat → List (List Word)
  | 0 => []
  | k + 1 => Memory.slot m n (k + 1) :: Memory.slotsDown m n k

/-- A stream's records, newest first, by segment sequence number (R166, R207). -/
def Part.walkBack (st : Stream) (m : Memory) (p : Part) : Nat → BitVec 16 → List (List Word)
  | 0, _ => []
  | fuel + 1, number =>
    match p.streamSeg st number with
    | none => []
    | some n =>
      Memory.slotsDown m n (((p.seg n).bind (fun e => e.count)).getD 0) ++ Part.walkBack st m p fuel (number - 1)

def Part.recordsOf (st : Stream) (m : Memory) (p : Part) : List (List Word) :=
  Part.walkBack st m p p.store.nSeg ((p.stream st).nextSeq - 1)

def isKind (k : Kind) (ws : List Word) : Bool := wordAt ws 0 == k.headerWord

/-- The unfinished route: its ROUTE_START and the rebuild bound (R207). -/
def unfinishedRoute (records : List (List Word)) : Option (List Word × Option Nat) :=
  match records.dropWhile (fun ws => !(isKind .routeStart ws || isKind .routeEnd ws)) with
  | [] => none
  | ws :: rest =>
    if isKind .routeStart ws then some (ws, (rest.find? (isKind .routeEnd)).map recordReceipt) else none

/-! ## Rebuilding consignments (R160, R208) -/

/-- The rebuild's walk: accepted PROOFs met, each with its request, newest first; the last index taken; entries; the end. -/
structure Rebuild where
  proofs : List (List Word × List Word)
  last : Option Nat
  entries : List (Nat × Consignment)
  ended : Bool
deriving DecidableEq, Repr

def Rebuild.start : Rebuild := { proofs := [], last := none, entries := [], ended := false }

/-- The quantity an accepted PROOF's request delivered (R160). -/
def deliveredBy (req : List Word) : Nat :=
  let b := DeliveryBody.ofWords req
  if isKind .delivery req && (b.kind == deliveryFull || b.kind == deliveryPartial) then b.quantity else 0

/-- The figures a PROOF records, converted back at 60 per unit (R160). -/
def proofFigures (ws : List Word) : Figures :=
  { excursion := (wordAt ws 7).toNat * 60, excess := (wordAt ws 8).toNat * 60, door := (wordAt ws 9).toNat * 60,
    gap := (wordAt ws 10).toNat * 60 }

/-- The entry that an accepted LOAD_ACK gives (R160). -/
def rebuildEntry (ack : List Word) (proofs : List (List Word × List Word)) : Consignment :=
  let own := proofs.filter (fun x => dwordAt x.1 1 == dwordAt ack 1)
  let loaded := (wordAt ack 8).toNat
  let remaining := loaded - (own.map (fun x => deliveredBy x.2)).sum
  let state : ConsState := if own.any (fun x => isKind .unload x.2) then .returned
    else if remaining = 0 then .done else .loaded
  let newest : Option (List Word) := own.head?.map Prod.fst
  let word4 := (newest.map (fun ws => wordAt ws 4)).getD 0
  let counts := (newest.map (fun ws => wordAt ws 11)).getD 0
  { id := dwordAt ack 1, comp := (wordAt ack 5).toNat, cls := (wordAt ack 6).toNat, loaded := loaded,
    remaining := remaining, loadTime := recordReceipt ack, base := Figures.zero,
    closing := if state = .loaded then none else some ((newest.map proofFigures).getD Figures.zero),
    worst := newest.bind (fun ws => validTemp (wordAt ws 6)), flags := { Flags.ofWord word4 with evidenceReset := true },
    openings := lowByte counts, dwells := highByte counts, drops := (word4 >>> 9).toNat % 8, state := state }

/-- One record of the walk, with the record before it (R208). -/
def Rebuild.take (bound : Option Nat) (x : Rebuild) (r : List Word × List Word) : Rebuild :=
  let ws := r.1
  let early := match bound with | some b => decide (recordReceipt ws < b) | none => false
  if x.ended then x
  else if early then { x with ended := true }
  else if isKind .proof ws && decide ((wordAt ws 4 >>> 12).toNat ≤ 6) then { x with proofs := x.proofs ++ [r] }
  else if isKind .loadAck ws && wordAt ws 3 == LoadOutcome.accepted.code then
    let i := (wordAt ws 4).toNat
    let lower := match x.last with | some j => decide (i < j) | none => true
    if lower then
      { x with last := some i, entries := (i, rebuildEntry ws x.proofs) :: x.entries, ended := i == 0 }
    else { x with ended := true }
  else x

/-- The consignments of the unfinished route (R208). -/
def rebuildCons (bound : Option Nat) (records : List (List Word)) : List (Nat × Consignment) :=
  ((records.zip (records.drop 1 ++ [[]])).foldl (Rebuild.take bound) Rebuild.start).entries

def Part.putCons (es : List (Nat × Consignment)) (p : Part) : Part :=
  { p with cons := es.foldl (fun cs e => cs.set e.1 (some e.2)) p.cons }

/-- What the mount found of the route, for the RESTART record (R202). -/
inductive RouteFound where
  | none
  | halted
  | unrecovered (number : Word)
deriving DecidableEq, Repr

/-- The unfinished route comes back HALTED, if its sheet stands (R207). -/
def Part.recoverRoute (m : Memory) (p : Part) : Part × RouteFound :=
  match unfinishedRoute (p.recordsOf .event m) with
  | none => (p, .none)
  | some (start, bound) =>
    let ws := Memory.readWords m 16 2032
    let sheet := Sheet.ofWords ws
    let check := crcWords 0 ws
    let number := wordAt start 1
    if check = dwordAt start 4 ∧ sheet.failure number = none then
      ({ p with
          route := { p.route with state := .halted, sheet := some sheet, held := some sheet.held, check := some check,
                                  start := some (recordReceipt start) }
          clock := { p.clock with mark := some p.clock.now } }
        |> Part.putCons (rebuildCons bound (p.recordsOf .delivery m)), .halted)
    else (p, .unrecovered number)

/-! ## The end of the mount (R209) -/

/-- How many segments were found in a state (R202; log 28). -/
def countFound (st : SegState) (hs : List Found) (store : Store) : Nat :=
  match st with
  | .scrap => (store.segs.filter (fun e => e.state == .scrap)).length
  | .blank => store.pool.length
  | _ => (hs.filter (fun h => h.state == st)).length

/-- The body of the cold RESTART record (R202, R212; log 28). -/
def coldRestartBody (clock : Nat) (hs : List Found) (store : Store) (voided : Nat) (completed : Bool) (found : RouteFound)
    (rebuilt : Nat) : List Word :=
  let route : Word × Word := match found with
    | .none => (0, blank)
    | .halted => (1, blank)
    | .unrecovered n => (2, n)
  let count (st : SegState) : Nat := sat8 (countFound st hs store)
  [1, blank, blank] ++ words32 clock
    ++ [bytesWord (count .blank) (count .opened), bytesWord (count .closed) (count .faulted),
        bytesWord (count .scrap) (sat8 voided), bit completed 0 ||| (route.1 <<< 8), route.2, wordOf rebuilt]

def Part.inUseCons (p : Part) : Nat := (p.cons.filter Option.isSome).length

/-- What every mount ends with (R209). -/
def Part.mountEnds (p : Part) : Part :=
  { p with backup := { p.backup with mounting := false } }
  |> Part.raise causeRestart |> Part.raise causeClockInvalid |> Part.rescheduleScrub

/-- The state a mount leaves, and the words it writes. -/
structure Mounted where
  part : Part
  writes : List (Nat × Word)
deriving DecidableEq, Repr

/-- The mount of an own store, after its label (R204 to R209). -/
def Part.mountStore (m : Memory) (p : Part) : Mounted :=
  let hs := ((List.range (p.store.nSeg - 1)).map (· + 1)).filterMap (Memory.header m)
  let clock := mountClock m hs (p.store.formatTime.getD 0)
  let x := settleTails clock hs m
  let store := p.store.mounted hs x.mem
  let q := { p with store := store, clock := { now := clock, valid := false, floor := clock, mark := none } }
  let (r, answered) := q.completeNewest hs x.mem
  let writes := x.writes ++ r.directWrites
  let (t, found) := r.clearDirect.recoverRoute (Memory.writeAll x.mem r.directWrites)
  let body := coldRestartBody clock hs store x.voided (x.completed || answered) found t.inUseCons
  let u := if t.store.pool.length ≤ 4 then t.raise causeStoreLow else t
  { part := u.mountEnds |> Part.addRecord .event .restart body, writes := writes }

/-- The mount, from the label the cold restart has judged (R203 to R209). -/
def State.mount (s : State) : Mounted :=
  if s.part.mode = .guarded then s.part.mountStore s.mem
  else
    { part := { s.part with clock := { now := 0, valid := false, floor := 0, mark := none } }.mountEnds, writes := [] }

/-- MOUNT_END (R209): the mount in progress has ended, and stretched accesses are served. -/
def execMountEnd (s : State) : Host.Outcome State Fault Refusal :=
  .next (if s.part.power = .on ∧ s.part.backup.mounting then
      State.settle { s with mem := s.mem.writeAll s.mount.writes, part := s.mount.part }
    else s)

end Sys2Proof.Machine
end

