-- ==== Sys2Proof/Machine/Restart.lean ====
section
/-! DEFINITION. Supplies, RESET and the three restarts (chapter 10). -/

namespace Sys2Proof.Machine

/-! ## Bursts cut off (R198, R199; log 10) -/

/-- Requester 2's burst that could be in progress: the record writer's granted one, or the one it makes next (R22, R46). -/
def Part.recordBurst (p : Part) : Option (Nat × List Word) :=
  match p.arb.burst with
  | some (.record base words) => some (base, words)
  | some _ => none
  | none =>
    match p.store.direct with
    | e :: _ => some (slotAddr e.seg e.slot, e.words)
    | [] =>
      match p.owedRewrite with
      | some (n, w) => some (segBase n + 1, [w])
      | none => (p.queue.head?.bind (fun e => e.taken)).map (fun t => (slotAddr t.seg t.slot, t.words))

/-- The words the running blanking or FORMAT is writing, in the order it writes them (R182, R193). -/
def Part.longBurstWords (p : Part) : List (Nat × Word) :=
  let down (n w : Nat) : List (Nat × Word) := (List.range 16).map (fun i => (segBase n + w - i, blank))
  match p.retire.state, p.retire.batch, p.retire.fmt with
  | .blanking, some b, _ =>
    (match b.current, b.pos with
     | some n, .rewrite => [(segBase n + 1, conditionRetiring)]
     | some n, .word w => down n w
     | none, _ => [])
  | .formatRunning, _, some f =>
    (match f.stage with
     | .label => wordsAt 0 (List.replicate 16 blank)
     | .segment n w => down n w
     | .write => wordsAt 0 (labelWords f.code p.clock.now))
  | _, _, _ => []

/-- The words that reach memory of a burst cut off. -/
def State.cutWords (cut : Cut) (s : State) : List (Nat × Word) :=
  match cut with
  | .clean => []
  | .recordStore n => (match s.part.recordBurst with | some (base, ws) => (wordsAt base ws).take n | none => [])
  | .longOperation n => if s.part.inLongBurst then s.part.longBurstWords.take n else []
  | .mount n => if s.part.backup.mounting then s.mount.writes.take n else []

/-- An access not begun, to be taken as a new access later (R199). -/
def Work.isArrival : Work → Bool
  | .write _ _ _ => true
  | .read _ => true
  | _ => false

/-- Activity stops: the access in progress, the first that waits, is abandoned wherever it stands, those behind it have not
begun, and the burst stops where it stands (R29, R198, R199; log 9). -/
def State.stop (cut : Cut) (power : Power) (s : State) : State :=
  { s with
    mem := s.mem.writeAll (s.cutWords cut)
    port := { s.port with waiting := (s.port.waiting.drop 1).dropWhile (fun w => !w.isArrival) }
    part := { s.part with power := power, arb := { s.part.arb with burst := none } } }

/-- RESET_ASSERT (R199). -/
def execResetAssert (cut : Cut) (s : State) : Host.Outcome State Fault Refusal :=
  .next (if s.part.power = .on then s.stop cut .resetHeld else s)

/-- The retention check over the retention RAM's free words and the supply-fail time, seeded with 0 (R197; log 11). -/
def retentionCheck (k time : Nat) : DWord := crcWords 0 (Config.retentionImage k ++ words32 time)

/-- The supply-fail time is latched and the retention check computed (R197, R198). -/
def Part.latchFailure (p : Part) : Part :=
  { p with
    backup := { p.backup with supplyFail := p.clock.now, check := retentionCheck p.freeCount p.clock.now }
    freeCount := p.freeCount + 1 }

/-- SUPPLY_FAIL (R198). While RESET is asserted no burst is in progress. -/
def execSupplyFail (cut : Cut) (s : State) : Host.Outcome State Fault Refusal :=
  .next (if s.part.power = .off then s
    else
      let t := s.stop (if s.part.power = .on then cut else .clean) .off
      { t with port := { t.port with waiting := [] }, part := t.part.latchFailure })

/-- BACKUP_DOMAIN_LOSS (R197): what the domain held is discarded (log 38). -/
def Part.loseBackup (p : Part) : Part :=
  { Part.cold with
    power := .off, pins := p.pins, freeCount := p.freeCount
    backup := { Part.cold.backup with lost := true } }

def execBackupDomainLoss (s : State) : Host.Outcome State Fault Refusal :=
  .next (if s.part.power = .off then { s with part := s.part.loseBackup } else s)

/-! ## What a warm restart and a reset share (R200) -/

/-- The command channel after a restart (R50, R55, R58). -/
def Part.restartChannel (p : Part) : Part :=
  { p with chan := { gate := .idle, current := none, running := none, protectErrors := 0 }
           arb := { p.arb with burst := none, fairness := 0 }
           route := { p.route with load := none } }

/-- The long operation a restart finds running (R202). -/
def Part.endedByRestart (p : Part) : Ended :=
  if p.retire.state = .blanking then .blanking
  else if p.retire.state = .formatRunning then .format
  else match p.verify with
    | some v => if v.suspended then .none else .verify v.claim
    | none => .none

/-- A scrub step in progress is abandoned and owed (R187). -/
def Part.restartScrub (p : Part) : Part :=
  match p.scrub.step with
  | none => p
  | some _ => { p with scrub := { p.scrub with step := none, owed := sat8 (p.scrub.owed + 1) } }

/-- A COLLECTING batch restarts its window in full (R73, R179). -/
def Part.restartWindow (p : Part) : Part :=
  if p.retire.state = .collecting then
    { p with retire := { p.retire with batch := p.retire.batch.map (fun b => { b with window := true }) } }
  else p

/-- SERVICE with DOCK low becomes GUARDED (R60, R61). -/
def Part.restartMode (dock : Bool) (p : Part) : Part :=
  let q := p.setDock dock
  if q.mode = .service ∧ !dock then { q with mode := .guarded } |> Part.discardCollecting else q

/-- The running long operation is ended as TERMINATE ends it (R200), but that a WAITING batch is kept WAITING when the restart ends
the VERIFY it waits for (R73, R179); it begins to blank when the slots are next tested (log 51). -/
def Part.restartOperation (p : Part) : Part :=
  match p.verify with
  | none => p.terminateNow
  | some v =>
    if p.retire.state = .waiting ∧ !v.suspended then p.abortClaim v |> Part.vacateVerify |> Part.scrubTurn true
    else p.terminateNow

/-- The shared steps of R200, on the chip. The end of the running operation is followed by what R164 and R189 let follow it: an owed
scrub step begins when the restart ends a long operation, and else waits (log 52). -/
def Part.restartShared (dock : Bool) (p : Part) : Part :=
  { p with power := .on }
  |> Part.restartChannel
  |> Part.voidAssembly p.clock.now true
  |> Part.restartScrub
  |> Part.restartWindow
  |> Part.restartMode dock
  |> Part.restartScanner
  |> Part.restartOperation

/-- A FORMAT's label burst that had not completed is made before any upstream access (R196). -/
def State.restartMem (s : State) : Memory :=
  if s.part.labelPending then s.mem.writeWords 0 (List.replicate 16 blank) else s.mem

/-- RESET, the release (R199, R200). -/
def execReset (dock : Bool) (s : State) : Host.Outcome State Fault Refusal :=
  .next (if s.part.power = .resetHeld ∧ !s.part.backup.mounting then
      State.settle { s with mem := s.restartMem, part := s.part.restartShared dock }
    else s)

/-! ## Warm restart (R115, R201, R202) -/

/-- The open intervals of every context are closed at the supply-fail time (R115), from compartment 0 up (log 63). -/
def Part.closeIntervals (p : Part) : Part :=
  (List.range 8).foldl (Part.closeAtRestart p.backup.supplyFail p.clock.now) p

/-- The owed OUTAGE record, merged with an earlier one still owed (R201). -/
def OwedOutage.owe (old : Option OwedOutage) (new : OwedOutage) : OwedOutage :=
  match old with
  | none => new
  | some o =>
    { fail := o.fail, restart := new.restart, secs := sat32 (o.secs + new.secs), merged := o.merged + 1,
      comps := o.comps ||| new.comps, count := sat8 (o.count + new.count) }

/-- The owed RESTART record, merged with an earlier one still owed (R201). -/
def OwedRestart.owe (old : Option OwedRestart) (new : OwedRestart) : OwedRestart :=
  match old with
  | none => new
  | some o => { new with merged := o.merged + 1 }

/-- The outage is charged, and the restart records are owed (R201). -/
def Part.chargeRestart (ended : Ended) (voided : Option (Stream × Nat × Nat)) (p : Part) : Part :=
  let fail := p.backup.supplyFail
  let now := p.clock.now
  let comps := p.chargedComps
  let count := p.countLoaded (fun k => comps.contains k.comp)
  let outage : OwedOutage :=
    { fail := fail, restart := now, secs := now - fail, merged := 1, comps := BitVec.ofNat 8 (compSet comps), count := count }
  let restart : OwedRestart := { fail := fail, restart := now, merged := 1, ended := ended, voided := voided }
  p
  |> Part.chargeOutage (now - fail) comps
  |> (fun q =>
      { q with backup := { q.backup with outage := some (OwedOutage.owe q.backup.outage outage)
                                         restart := some (OwedRestart.owe q.backup.restart restart) } })
  |> Part.raise causeRestart

/-- The record a restart voids: its stream, segment and slot (R202). -/
def Part.voidedByRestart (p : Part) : Option (Stream × Nat × Nat) := p.asm.map (fun a => (a.stream, a.seg, a.slot))

/-- A warm restart, on the chip (R115, R187, R200, R201). -/
def Part.warmRestart (dock : Bool) (p : Part) : Part :=
  p.restartShared dock
  |> Part.closeIntervals
  |> Part.chargeRestart p.endedByRestart p.voidedByRestart
  |> Part.rescheduleScrub

/-- WARM_RESTART (R199, R201): SUPPLY returns, the backup domain is intact and no mount was in progress. -/
def execWarmRestart (dock : Bool) (s : State) : Host.Outcome State Fault Refusal :=
  .next (if s.part.power = .off ∧ !s.part.backup.lost ∧ !s.part.backup.mounting then
      State.settle { s with mem := s.restartMem, part := s.part.warmRestart dock }
    else s)

/-! ## Cold restart (R199, R203) -/

/-- The condition of a cold restart (R199): SUPPLY returns with the domain lost or a mount in progress, or RESET is released
with a mount in progress. -/
def Part.coldDue (checkFails : Bool) (p : Part) : Bool :=
  (p.power == .off && (p.backup.lost || p.backup.mounting || checkFails)) || (p.power == .resetHeld && p.backup.mounting)

/-- The state after the cold restart's first steps: cold values, the mount-in-progress flag, and the label's judgement (R203).
A restart that the flag alone set off keeps the route clock (R199). -/
def Part.coldRestart (checkFails : Bool) (label : Option Label) (p : Part) : Part :=
  let (mode, store) := Label.judge label
  { Part.cold with
    pins := p.pins
    freeCount := p.freeCount
    backup := { Part.cold.backup with mounting := true }
    clock := if p.backup.lost || checkFails then Part.cold.clock else { p.clock with valid := false }
    mode := mode
    store := store }

/-- COLD_RESTART (R203). -/
def execColdRestart (checkFails : Bool) (s : State) : Host.Outcome State Fault Refusal :=
  .next (if s.part.coldDue checkFails then
      { s with part := s.part.coldRestart (checkFails && s.part.power == .off) s.mem.label }
    else s)

end Sys2Proof.Machine
end

