-- ==== Sys2Proof/Machine/Dispatch.lean ====
section
/-! DEFINITION. The meaning of each command: one arm per row of spec/opcode_table.json. -/

namespace Sys2Proof.Machine

def exec (i : Instr) (s : State) : Host.Outcome State Fault Refusal :=
  match i with
  | .upstreamWrite a d dock => Sys2Proof.Machine.execUpstreamWrite a d dock s
  | .upstreamRead a => Sys2Proof.Machine.execUpstreamRead a s
  | .report a => Sys2Proof.Machine.execReport a s
  | .acknowledge a causes => Sys2Proof.Machine.execAcknowledge a causes s
  | .identity a => Sys2Proof.Machine.execIdentity a s
  | .whereIs a stream => Sys2Proof.Machine.execWhereIs a stream s
  | .clockSet a p1 p2 p3 p4 p5 p6 => Sys2Proof.Machine.execClockSet a p1 p2 p3 p4 p5 p6 s
  | .routeLoad a p1 p2 p3 => Sys2Proof.Machine.execRouteLoad a p1 p2 p3 s
  | .routeLoadReadBurst => Sys2Proof.Machine.execRouteLoadReadBurst s
  | .routeEnd a => Sys2Proof.Machine.execRouteEnd a s
  | .routeEndRecordJoin => Sys2Proof.Machine.execRouteEndRecordJoin s
  | .rescan a slot => Sys2Proof.Machine.execRescan a slot s
  | .audit a => Sys2Proof.Machine.execAudit a s
  | .claimOpen a idLo idHi => Sys2Proof.Machine.execClaimOpen a idLo idHi s
  | .claimRead a index => Sys2Proof.Machine.execClaimRead a index s
  | .claimClose a index => Sys2Proof.Machine.execClaimClose a index s
  | .progress a => Sys2Proof.Machine.execProgress a s
  | .suspend a => Sys2Proof.Machine.execSuspend a s
  | .resume a => Sys2Proof.Machine.execResume a s
  | .terminate a => Sys2Proof.Machine.execTerminate a s
  | .serviceEnter a p1 p2 p3 dock => Sys2Proof.Machine.execServiceEnter a p1 p2 p3 dock s
  | .serviceEnterReadEnd dock => Sys2Proof.Machine.execServiceEnterReadEnd dock s
  | .serviceLeave a => Sys2Proof.Machine.execServiceLeave a s
  | .retire a segment => Sys2Proof.Machine.execRetire a segment s
  | .format a p1 p2 p3 dock => Sys2Proof.Machine.execFormat a p1 p2 p3 dock s
  | .formatBurst => Sys2Proof.Machine.execFormatBurst s
  | .directWriteComplete => Sys2Proof.Machine.execDirectWriteComplete s
  | .conditionRewrite => Sys2Proof.Machine.execConditionRewrite s
  | .recordWriterServe => Sys2Proof.Machine.execRecordWriterServe s
  | .recordWriterWriteComplete => Sys2Proof.Machine.execRecordWriterWriteComplete s
  | .withheldSummary => Sys2Proof.Machine.execWithheldSummary s
  | .restartRecordsJoin => Sys2Proof.Machine.execRestartRecordsJoin s
  | .outageRecordJoin => Sys2Proof.Machine.execOutageRecordJoin s
  | .gapTimerExpiry compartment => Sys2Proof.Machine.execGapTimerExpiry compartment s
  | .continuousExcursionDeadline index => Sys2Proof.Machine.execContinuousExcursionDeadline index s
  | .scanVisit lines => Sys2Proof.Machine.execScanVisit lines s
  | .lineWatchSample lines => Sys2Proof.Machine.execLineWatchSample lines s
  | .dwell => Sys2Proof.Machine.execDwell s
  | .collectionWindowExpiry => Sys2Proof.Machine.execCollectionWindowExpiry s
  | .blankingMark => Sys2Proof.Machine.execBlankingMark s
  | .blankingBurst => Sys2Proof.Machine.execBlankingBurst s
  | .verifyStart => Sys2Proof.Machine.execVerifyStart s
  | .verifyBurst => Sys2Proof.Machine.execVerifyBurst s
  | .extractRecordAdd => Sys2Proof.Machine.execExtractRecordAdd s
  | .scrubStepDue => Sys2Proof.Machine.execScrubStepDue s
  | .scrubBurst => Sys2Proof.Machine.execScrubBurst s
  | .dockFall => Sys2Proof.Machine.execDockFall s
  | .resetAssert cut => Sys2Proof.Machine.execResetAssert cut s
  | .reset dock => Sys2Proof.Machine.execReset dock s
  | .supplyFail cut => Sys2Proof.Machine.execSupplyFail cut s
  | .warmRestart dock => Sys2Proof.Machine.execWarmRestart dock s
  | .coldRestart checkFails => Sys2Proof.Machine.execColdRestart checkFails s
  | .mountEnd => Sys2Proof.Machine.execMountEnd s
  | .routeClockAdvance => Sys2Proof.Machine.execRouteClockAdvance s
  | .backupDomainLoss => Sys2Proof.Machine.execBackupDomainLoss s

end Sys2Proof.Machine
end

