-- ==== Sys2Proof/Safety.lean ====
section
/-! DEFINITION. The states the statements speak of: what is sound in every state, when the part is ready for an access, what
the current-command record holds after a command, and the invariants that every step keeps. -/

namespace Sys2Proof.Machine

/-- The record memory is in its canonical form (log 6). -/
abbrev State.memSound (s : State) : Prop := s.mem.wf

/-! ## Readiness -/

/-- The part runs and no access waits at the upstream port (R29, R199). -/
abbrev State.Quiet (s : State) : Prop := s.part.running = true ∧ s.port.waiting = []

/-- The arbiter has no grant to make to requester 3 or 4: a burst is in progress, requester 2 has a write waiting, or
neither requester has a burst to make (R46; log 7). -/
def Part.atRest (p : Part) : Bool := p.arb.burst.isSome || p.req2Waiting || p.lowGrant.isNone

/-- With the part running and no access waiting, the arbiter has made every grant it can make. -/
abbrev State.Rested (s : State) : Prop := s.part.running = true → s.port.waiting = [] → s.part.atRest = true

/-- The part is ready for an access: it runs, no access waits, the gate is IDLE and the arbiter is at rest. -/
abbrev State.Ready (s : State) : Prop := s.Quiet ∧ s.part.chan.gate = .idle ∧ s.part.atRest = true

/-- It is ready, and no command is RUNNING (R54). -/
abbrev State.Free (s : State) : Prop := s.Ready ∧ s.part.chan.running = none

/-- It is free, and the device mode is GUARDED or SERVICE (R59). -/
abbrev State.FreeInStore (s : State) : Prop := s.Free ∧ (s.part.mode = .guarded ∨ s.part.mode = .service)

/-! ## The command channel after a command -/

/-- The command channel when a command given at `a` has its final or RUNNING state: it is the one presented, an earlier
RUNNING command goes on unpresented, and the gate is IDLE (R53, R55, R56). -/
def Part.presents (p : Part) (a : Addr) (c : Command) (ps : List Word) (st : CmdState) (o : CmdOutcome) (rs : List Word) :
    Channel :=
  { gate := .idle
    current := some { echo := c.code, params := ps, state := st, outcome := o, results := rs, toggle := false,
                      addr := some a, readPos := 0 }
    running := p.chan.running.map (fun r => { r with presented := false })
    protectErrors := p.chan.protectErrors }

/-- The part when a command given at `a` is complete and about to be judged (R53, R54). -/
def Part.taken (p : Part) (a : Addr) (c : Command) (ps : List Word) (dock : Bool) : Part :=
  { p with pins := { p.pins with dock := dock }, chan := p.presents a c ps .running .ok [] }

/-- The part when that command is DONE with outcome OK and result words `rs`, and nothing else of it has changed. -/
def Part.answered (p : Part) (a : Addr) (c : Command) (ps : List Word) (rs : List Word) : Part :=
  { p with chan := p.presents a c ps .done .ok rs }

/-- The part when that command stays RUNNING, its work waiting (R54), and nothing else of it has changed. -/
def Part.waitsFor (p : Part) (a : Addr) (c : Command) (ps : List Word) (w : RunningWork) : Part :=
  { p with chan := { p.presents a c ps .running .ok [] with running := some { work := w, presented := true } } }

/-- The part when that command is REFUSED with an outcome and no result words, and nothing else of it has changed. -/
def Part.refusedWith (p : Part) (a : Addr) (c : Command) (ps : List Word) (o : CmdOutcome) : Part :=
  { p with chan := p.presents a c ps .refused o [] }

/-- The part when a processor write has met an IDLE gate: the presentation has ended (R55, R56), and DOCK is at a level. -/
def Part.met (p : Part) (dock : Bool) : Part :=
  { p with
    pins := { p.pins with dock := dock }
    chan := { p.chan with current := p.chan.current.map (fun c => { c with addr := none })
                          running := p.chan.running.map (fun r => { r with presented := false }) } }

/-- The part when the port has granted an upstream access (R48): the fairness count. -/
def Part.granted (p : Part) : Part :=
  { p with arb := { p.arb with fairness := if p.req2Waiting then min 8 (p.arb.fairness + 1) else 0 } }

/-! ## The twenty commands as rows -/

/-- The command a row of R57 gives: its command address, command, parameter words and the level of DOCK at its last write
(logs 3 and 4); none for every other row. -/
def State.given (s : State) (i : Instr) : Option (Addr × Command × List Word × Bool) :=
  let dock := s.part.pins.dock
  match i with
  | .report a => some (a, .report, [], dock)
  | .acknowledge a w => some (a, .acknowledge, [w], dock)
  | .identity a => some (a, .identity, [], dock)
  | .whereIs a w => some (a, .whereIs, [w], dock)
  | .clockSet a p1 p2 p3 p4 p5 p6 => some (a, .clockSet, [p1, p2, p3, p4, p5, p6], dock)
  | .routeLoad a p1 p2 p3 => some (a, .routeLoad, [p1, p2, p3], dock)
  | .routeEnd a => some (a, .routeEnd, [], dock)
  | .rescan a w => some (a, .rescan, [w], dock)
  | .audit a => some (a, .audit, [], dock)
  | .claimOpen a lo hi => some (a, .claimOpen, [lo, hi], dock)
  | .claimRead a w => some (a, .claimRead, [w], dock)
  | .claimClose a w => some (a, .claimClose, [w], dock)
  | .progress a => some (a, .progress, [], dock)
  | .suspend a => some (a, .suspend, [], dock)
  | .resume a => some (a, .resume, [], dock)
  | .terminate a => some (a, .terminate, [], dock)
  | .serviceEnter a p1 p2 p3 d => some (a, .serviceEnter, [p1, p2, p3], d)
  | .serviceLeave a => some (a, .serviceLeave, [], dock)
  | .retire a w => some (a, .retire, [w], dock)
  | .format a p1 p2 p3 d => some (a, .format, [p1, p2, p3], d)
  | _ => none

/-! ## The record writer queue -/

/-- A record has joined the queue; a RUNNING scanner is FROZEN when that leaves fewer than five free entries (R25, R127). -/
def Part.joined (p : Part) (st : Stream) (k : Kind) (body : List Word) : Part :=
  let full := p.scan.run = .running ∧ 11 ≤ p.queue.length
  { p with
    queue := p.queue ++ [{ stream := st, kind := k, body := body, taken := none }]
    scan := if full then { p.scan with run := .frozen, dwellTest := none,
                                       slots := p.scan.slots.map (fun x => { x with agree := 0 }) }
      else p.scan
    attention := if full then p.attention ||| causeScanFrozen else p.attention }

/-- A record about compartment `c` joins the queue, or with no free entry is withheld: counted, a summary owed, and
`events_withheld` set on the LOADED consignments of the compartment (R111, R112). -/
def Part.recorded (p : Part) (c : Nat) (k : Kind) (body : List Word) : Part :=
  if p.queue.length ≤ 15 then p.joined .event k body
  else
    { p with
      ctxs := p.ctxs.modify c (fun x => { x with withheld := min 255 (x.withheld + 1), summaryOwed := true })
      cons := p.cons.map (fun o => o.map (fun k =>
        if k.state = .loaded ∧ k.comp = c then { k with flags := { k.flags with eventsWithheld := true } } else k)) }

/-- A FAULT record joins the queue, or with no free entry is withheld against every compartment in use: counted, a summary owed,
and `events_withheld` set on the LOADED consignments (R27, R112; log 31). -/
def Part.faultReported (p : Part) (body : List Word) : Part :=
  if p.queue.length ≤ 15 then p.joined .event .fault body
  else
    { p with
      ctxs := p.ctxs.map (fun x =>
        if x.thermal = .idle then x else { x with withheld := min 255 (x.withheld + 1), summaryOwed := true })
      cons := p.cons.map (fun o => o.map (fun k =>
        if k.state = .loaded then { k with flags := { k.flags with eventsWithheld := true } } else k)) }

/-- A chain check has faulted segment `n`, whose entry was `e` of stream `st`, OPEN or CLOSED (R12, R157, R172, R178, R191): the segment,
its stream when it was OPEN, the FAULT record, EVIDENCE_FAULT, the LOADED consignments, and the claims whose findings are fixed. -/
def Part.faultFound (p : Part) (n : Nat) (e : SegEntry) (st : Stream) (body : List Word) : Part :=
  let own := p.store.streams.get st
  let building := match p.asm with | some a => a.seg == n | none => false
  let wasOpen := e.state == .opened
  let closeTime := if wasOpen then p.clock.now else e.closeTime.getD p.clock.now
  let q := Part.faultReported { p with
    store := { p.store with
      segs := p.store.segs.modify (n - 1) (fun g =>
        if wasOpen then { g with state := .faulted, closeTime := some p.clock.now, owed := .faulted
                                 exitChain := if building then none else some own.running }
        else { g with state := .faulted, owed := .faulted })
      streams := if wasOpen then p.store.streams.set st { own with openSeg := none, append := none } else p.store.streams } } body
  { q with
    attention := q.attention ||| causeEvidenceFault
    cons := if st = .sample ∨ st = .event then q.cons.map (fun o => o.map (fun g =>
        if g.state = .loaded ∧ g.loadTime ≤ closeTime ∧ p.compEnabled g.comp = true then
          { g with flags := { g.flags with evidenceFault := true } } else g))
      else q.cons
    claims := q.claims.mapIdx (fun i c =>
      if c.held.contains n && (c.state == .ready || (c.state == .verifying && (match p.verify with
          | some v => v.claim == i && v.phase == .write
          | none => false)))
      then { c with laterFault := true } else c) }

/-! ## Invariants -/

/-- The totals and counts of a context (R94). -/
abbrev Ctx.countsInRange (x : Ctx) : Prop :=
  x.excursionSecs ≤ 4294967295 ∧ x.excess ≤ 4294967295 ∧ x.doorExcess ≤ 4294967295 ∧ x.gapSecs ≤ 4294967295
    ∧ x.episodes ≤ 65535 ∧ x.doorSecs ≤ 65535 ∧ x.withheld ≤ 255 ∧ x.invalid ≤ 65535 ∧ x.skewed ≤ 65535

/-- The counts of a contact table slot (R118). -/
abbrev Slot.countsInRange (x : Slot) : Prop := x.agree ≤ 2 ∧ x.openings ≤ 65535 ∧ x.openSecs ≤ 4294967295

/-- The counts of a consignment table entry in use (R139). -/
abbrev Consignment.countsInRange (k : Consignment) : Prop := k.openings ≤ 65535 ∧ k.dwells ≤ 65535 ∧ k.drops ≤ 65535

/-- Every saturating count of the part lies within its range (R36, R48, R58, R94, R118, R139, R187). -/
def Part.countsInRange (p : Part) : Prop :=
  p.arb.fairness ≤ 8 ∧ p.chan.protectErrors ≤ 255 ∧ p.refusals.count ≤ 65535 ∧ p.scrub.owed ≤ 255
    ∧ (∀ x ∈ p.ctxs, x.countsInRange) ∧ (∀ x ∈ p.scan.slots, x.countsInRange)
    ∧ (∀ o ∈ p.cons, ∀ k, o = some k → k.countsInRange)

/-- The tables have the sizes the spec gives them: 8 contexts, 24 slots, 32 entries, 8 claims (R94, R118, R139, R162). -/
abbrev Part.tablesSized (p : Part) : Prop :=
  p.ctxs.length = 8 ∧ p.scan.slots.length = 24 ∧ p.cons.length = 32 ∧ p.claims.length = 8

/-- The pending cause set has no bit in its unused position (R213). -/
abbrev Part.causesInRange (p : Part) : Prop := p.attention &&& causeUnused = 0

/-- Segment `n` is BLANK. -/
def Part.isBlank (p : Part) (n : Nat) : Bool :=
  match p.seg n with
  | some e => e.state == .blank
  | none => false

/-- A segment that a batch may hold and has not begun to blank (R179). -/
def SegState.retirable (s : SegState) : Prop := s = .closed ∨ s = .faulted ∨ s = .scrap

/-- The segments of a batch that are not begun are CLOSED, FAULTED or SCRAP, none twice, and the current one is RETIRING
(R179, R182). -/
def Part.batchSound (p : Part) (b : Batch) : Prop :=
  let later := b.segs.drop (b.completed + (if b.current.isSome then 1 else 0))
  later.Nodup
    ∧ (∀ n ∈ later, ∃ e, p.seg n = some e ∧ e.state.retirable)
    ∧ (∀ n, b.current = some n → n ∉ later ∧ ∃ e, p.seg n = some e ∧ e.state = .retiring)

/-- The free pool holds exactly the BLANK segments, in ascending order and none twice (R15), with what this rests on: a stream's
open segment is its own and OPEN (R19), the batch is sound, and a mount finds no batch. -/
def Part.poolSound (p : Part) : Prop :=
  p.store.pool = p.recordSegs.filter p.isBlank
    ∧ (∀ st n, (p.stream st).openSeg = some n → ∃ e, p.seg n = some e ∧ e.state = .opened ∧ e.stream = some st)
    ∧ (∀ b, p.retire.batch = some b → p.batchSound b)
    ∧ (p.retire.state = .empty ∨ p.retire.state = .formatRunning → p.retire.batch = none)
    ∧ (p.backup.mounting = true → p.retire.batch = none)

/-- At most one long operation is running (R73), with what this rests on: no VERIFY while a FORMAT runs, and a VERIFY is always
that of a claim in use; claim indices name table entries. -/
def Part.oneLongOperation (p : Part) : Prop :=
  (p.retire.state = .blanking → p.verifyRunning = false)
    ∧ (p.retire.state = .formatRunning → p.verify = none)
    ∧ (∀ v, p.verify = some v → v.claim < p.claims.length ∧ (p.claim v.claim).inUse = true)
    ∧ (∀ i ∈ p.claimQueue, i < p.claims.length)
    ∧ p.claims.length = 8

end Sys2Proof.Machine
end

