-- ==== Sys2Proof/Certificates/Slice0/Obligations.lean ====
section
/-! DEFINITION. The statements for the provers. They speak of a part that is ready (State.Ready, State.Free) through what the
row leaves: where a row answers `.next` of an explicit state, every field that the state does not name is unchanged. A grant of the
arbiter that may follow a row is written Part.grantPort; ArbiterGrantChangesOnlyItsOwn says what it may change. -/

open Sys2Proof Sys2Proof.Machine

/-! ## The machine -/

/-- The block rule: the command at the front of the queue runs on the state with the queue's rest. -/
def Obligations.StepRunsTheFrontCommand : Prop :=
  ∀ (c : Instr) (rest : List Instr) (s : State), s.pending = c :: rest → step s = exec c { s with pending := rest }

/-- No command stops the part, and none touches the queue (R29, R36, R54: refusals and errors are state). -/
def Obligations.EveryCommandAnswersNextAndKeepsTheQueue : Prop :=
  ∀ (c : Instr) (s : State), ∃ t, exec c s = .next t ∧ t.pending = s.pending

/-- Every step keeps the record memory in its canonical form (log 6). -/
def Obligations.EveryStepKeepsTheMemoryCanonical : Prop :=
  ∀ s t : State, s.memSound → step s = .next t → t.memSound

/-- Every step leaves the arbiter with no grant it could make while no access waits (R46). -/
def Obligations.EveryStepLeavesTheArbiterAtRest : Prop :=
  ∀ s t : State, s.Rested → step s = .next t → t.Rested

/-- At most one long operation is running at any time (R73). -/
def Obligations.EveryStepKeepsOneLongOperation : Prop :=
  ∀ s t : State, s.part.oneLongOperation → step s = .next t → t.part.oneLongOperation

/-- Every saturating count stays in its range, the tables keep their sizes, and the pending set never has its unused bit (R36, R48,
R58, R94, R118, R139, R162, R187, R213). -/
def Obligations.EveryStepKeepsCountsInRange : Prop :=
  ∀ s t : State, s.part.countsInRange ∧ s.part.tablesSized ∧ s.part.causesInRange → step s = .next t →
    t.part.countsInRange ∧ t.part.tablesSized ∧ t.part.causesInRange

/-- The free pool holds exactly the BLANK segments, ascending and none twice, in every state that a step leaves, with what this
rests on (R15, R19, R179). -/
def Obligations.EveryStepKeepsThePoolAscending : Prop :=
  ∀ s t : State, s.part.poolSound → step s = .next t → t.part.poolSound

/-- The five invariants hold at reset. The values the spec gives for the state after a cold restart whose mount finds no valid label
(R49, R50, R55, R58, R60, R72, R78, R89, R95, R138, R159, R162, R187, R203): pending set RESTART and CLOCK_INVALID, all tables
empty. -/
def Obligations.ResetHoldsTheInvariantsAndColdValues : Prop :=
  (State.reset.memSound ∧ State.reset.Rested ∧ State.reset.part.oneLongOperation
      ∧ State.reset.part.countsInRange ∧ State.reset.part.tablesSized ∧ State.reset.part.causesInRange
      ∧ State.reset.part.poolSound)
  ∧ (let p := State.reset.part
    p.mode = .unformatted ∧ p.attention = causeRestart ||| causeClockInvalid ∧ p.refusals = { first := none, count := 0 }
      ∧ p.chan = { gate := .idle, current := none, running := none, protectErrors := 0 }
      ∧ p.arb.burst = none ∧ p.arb.fairness = 0
      ∧ p.clock = { now := 0, valid := false, floor := 0, mark := none }
      ∧ p.route.state = .idle ∧ p.route.sheet = none ∧ p.route.held = none ∧ p.route.closePending = false
      ∧ (∀ x ∈ p.ctxs, x.thermal = .idle ∧ x.gap = false ∧ x.doorOpen = false ∧ x.excess = 0 ∧ x.gapSecs = 0)
      ∧ p.scan.run = .stopped ∧ p.scan.extended = false ∧ p.scan.slots.length = 24
      ∧ (∀ x ∈ p.scan.slots, x.accepted = false ∧ x.agree = 0 ∧ x.changedAt = none ∧ x.watch = none)
      ∧ (∀ k ∈ p.cons, k = none) ∧ (∀ c ∈ p.claims, c.state = .closed) ∧ p.claimQueue = [] ∧ p.verify = none
      ∧ p.retire = { state := .empty, batch := none, fmt := none }
      ∧ p.scrub = { pointer := 1, due := none, owed := 0, step := none }
      ∧ p.asm = none ∧ p.queue = [] ∧ p.backup.mounting = false)

/-! ## The record store and the arbiter (chapters 1 and 2) -/

/-- R15 and R21: a stream's segment is the first of the pool, the lowest (EveryStepKeepsThePoolAscending); its header record joins the
direct write list at its end; the next segment sequence number and the running chain move on. R16 and R35: which streams may take a
segment. -/
def Obligations.OpeningTakesTheLowestBlankSegment : Prop :=
  (∀ (st : Stream) (n : Nat) (rest : List Nat) (p : Part), p.store.pool = (n + 1) :: rest →
      let e := p.store.streams.get st
      let now := p.clock.now
      let head : List Word := [0xC510, 1, st.code, e.nextSeq] ++ dwords e.nextRec ++ dwords e.running ++ words32 now
        ++ [blank, blank] ++ words32 now
      let chain := recordChain e.running head
      p.openSegment st = { p with
        attention := if rest.length ≤ 4 then p.attention ||| causeStoreLow else p.attention
        clock := { p.clock with floor := max p.clock.floor now }
        store := { p.store with
          pool := rest
          segs := p.store.segs.modify n (fun _ =>
            { state := .opened, stream := some st, segSeq := some e.nextSeq, openTime := some now, closeTime := none,
              firstRec := some e.nextRec, count := some 0, entryChain := some e.running, exitChain := none, holds := 0,
              owed := .none })
          streams := p.store.streams.set st
            { e with openSeg := some (n + 1), append := some 1, nextSeq := e.nextSeq + 1, running := chain, stalled := false }
          direct := p.store.direct ++ [{ kind := .header, seg := n + 1, slot := 0, words := head ++ dwords chain }] } })
  ∧ (∀ (st : Stream) (p : Part),
      let blanks : Nat := (match p.asm with
        | some a => if a.promise = true ∧ st ≠ .delivery then p.store.pool.length - 1 else p.store.pool.length
        | none => p.store.pool.length)
      p.mayTake st = true ↔ (p.mode = .guarded ∨ p.mode = .service)
        ∧ (if st = .event ∨ st = .delivery then 1 ≤ blanks else 3 ≤ blanks))

/-- R11, R20 and R22: requester 2's writes. The head of the direct write list is written in one burst and leaves the list; an answer's
slot is then no longer reserved. With the list empty, the lowest segment that owes a condition rewrite has word 1 of its header
rewritten, CLOSED or FAULTED. R26: then the record writer serves the head of its queue. With an open segment the record takes its
slot and sequence number, is stamped with the route clock and the chain, and its burst begins (slot 1,023:
TheLastSlotClosesTheSegment); with none it is given a segment, or its stream is stalled (R16, R21). -/
def Obligations.Requester2WritesInOrder : Prop :=
  ((∀ (e : DirectEntry) (rest : List DirectEntry) (s : State), s.Quiet → s.part.arb.burst = none →
        s.part.store.direct = e :: rest →
        let p := s.part
        let x := p.store.streams.delivery
        exec .directWriteComplete s = .next { s with
          mem := s.mem.writeWords (e.seg * 16384 + 16 * e.slot) e.words
          part := (Part.grantPort { p with
            arb := { p.arb with fairness := 0 }
            store := { p.store with
              direct := rest
              streams := { p.store.streams with
                delivery := if e.kind = .answer then { x with reserved := none } else x } } }) })
    ∧ (∀ (n : Nat) (e : SegEntry) (s : State), s.Quiet → s.part.arb.burst = none → s.part.store.direct = [] →
        s.part.store.segs[n]? = some e → e.owed ≠ .none → (s.part.store.segs.take n).all (fun g => g.owed == .none) = true →
        let p := s.part
        exec .conditionRewrite s = .next { s with
          mem := s.mem.write ((n + 1) * 16384 + 1) (if e.owed = .closed then 2 else 3)
          part := (Part.grantPort { p with
            arb := { p.arb with fairness := 0 }
            store := { p.store with segs := p.store.segs.modify n (fun g => { g with owed := .none }) } }) }))
  ∧ (∀ (q : QueueEntry) (rest : List QueueEntry) (n k : Nat) (t : Taken) (s : State), s.Quiet → s.part.arb.burst = none →
      s.part.store.direct = [] → s.part.owedRewrite = none → s.part.retire.state ≠ .formatRunning → s.part.asm = none →
      s.part.queue = q :: rest →
      let p := s.part
      let x := p.store.streams.get q.stream
      let now := p.clock.now
      let head : List Word := (0xC500 ||| q.kind.code) :: (q.body ++ List.replicate 11 blank).take 11 ++ words32 now
      let chain := recordChain x.running head
      let words := head ++ dwords chain
      let burst := some (Burst.record (n * 16384 + 16 * k) words)
      (q.taken = none → x.openSeg = some n → x.append = some k → 1 ≤ n →
          let took := Part.slotConsumed q.stream n k true { p with
            queue := { q with taken := some { seg := n, slot := k, seq := x.nextRec, words := words } } :: rest
            clock := { p.clock with floor := max p.clock.floor now }
            store := { p.store with
              segs := p.store.segs.modify (n - 1) (fun g => { g with count := some (g.count.getD 0 + 1) })
              streams := p.store.streams.set q.stream { x with nextRec := x.nextRec + 1, running := chain } } }
          exec .recordWriterServe s = .next { s with part := { took with
            arb := { p.arb with fairness := 0, burst := burst } } })
        ∧ (q.taken = none → x.openSeg = none → x.stalled = false → p.mayTake q.stream = true →
        exec .recordWriterServe s = .next { s with part := p.openSegment q.stream })
      ∧ (q.taken = none → x.openSeg = none → x.stalled = false → p.mayTake q.stream = false →
        exec .recordWriterServe s = .next { s with part :=
          (Part.grantPort { p with
            attention := p.attention ||| causeStoreFull
            store := { p.store with streams := p.store.streams.set q.stream { x with stalled := true } } }) })
      ∧ (q.taken = some t →
        exec .recordWriterServe s = .next { s with part :=
          { p with arb := { p.arb with fairness := 0, burst := some (.record (t.seg * 16384 + 16 * t.slot) t.words) } } }))

/-- R24, R26, R87 and R129: the end of the record writer's burst. The record is in memory and the head leaves the queue. With
ROUTE_END written the open segments of SAMPLE, EVENT and DELIVERY close, and the route close ends. A FROZEN scanner resumes when
this frees a fifth entry; a DOOR_STATUS it owes joins the queue first, and it stays FROZEN if that leaves fewer than five. R86, R93,
R113 and R201: records that wait for room join the queue, ROUTE_END, OUTAGE and RESTART when five entries are free, the withheld
summary when one is. -/
def Obligations.RecordsLeaveAndJoinTheQueue : Prop :=
  ((∀ (base : Nat) (words : List Word) (q : QueueEntry) (rest : List QueueEntry) (s : State), s.Quiet →
        s.part.arb.burst = some (.record base words) → s.part.queue = q :: rest → q.taken ≠ none → s.part.scan.run ≠ .frozen →
        s.part.asm = none →
        [Stream.sample, .event, .delivery].all (fun st => (s.part.store.streams.get st).openSeg != some 0) = true →
        let p := s.part
        let close (x : Store) (st : Stream) : Store := match (x.streams.get st).openSeg with
          | none => x
          | some n =>
            { x with
              segs := x.segs.modify (n - 1) (fun e =>
                { e with state := .closed, closeTime := some p.clock.now, exitChain := some (x.streams.get st).running,
                         owed := .closed })
              streams := x.streams.set st { x.streams.get st with openSeg := none, append := none } }
        let left : Part := { p with arb := { p.arb with burst := none }, queue := rest }
        ((q.kind ≠ .routeEnd ∨ p.route.closePending = false) →
          exec .recordWriterWriteComplete s = .next { s with mem := s.mem.writeWords base words, part := left.grantPort })
        ∧ (q.kind = .routeEnd → p.route.closePending = true → p.route.closeWait = none →
          exec .recordWriterWriteComplete s = .next { s with
            mem := s.mem.writeWords base words
            part := (Part.grantPort { left with
              store := [Stream.sample, .event, .delivery].foldl close p.store
              route := { p.route with closePending := false } }) }))
    ∧ (∀ (base : Nat) (words body : List Word) (q : QueueEntry) (rest : List QueueEntry) (s : State), s.Quiet →
        s.part.arb.burst = some (.record base words) → s.part.queue = q :: rest → q.taken ≠ none → q.kind ≠ .routeEnd →
        s.part.scan.run = .frozen →
        let p := s.part
        let left : Part := { p with arb := { p.arb with burst := none }, queue := rest }
        (11 < rest.length →
          exec .recordWriterWriteComplete s = .next { s with mem := s.mem.writeWords base words, part := left.grantPort })
        ∧ (rest.length ≤ 11 → p.scan.owed = none →
          exec .recordWriterWriteComplete s = .next { s with
            mem := s.mem.writeWords base words
            part := (Part.grantPort { left with scan := { p.scan with run := .running } }) })
        ∧ (rest.length ≤ 11 → p.scan.owed = some body →
          exec .recordWriterWriteComplete s = .next { s with
            mem := s.mem.writeWords base words
            part := (Part.grantPort { left with
              queue := rest ++ [{ stream := .event, kind := .doorStatus, body := body, taken := none }]
              scan := { p.scan with owed := none, run := if rest.length ≤ 10 then .running else .frozen } }) })))
  ∧ (∀ (body : List Word) (o : OwedOutage) (r : OwedRestart) (c : Nat) (s : State), s.part.running = true →
      let p := s.part
      let outage : List Word := words32 o.fail ++ words32 o.restart ++ words32 o.secs
        ++ [BitVec.ofNat 16 o.merged, BitVec.ofNat 16 (o.comps.toNat + 256 * min 255 o.count)]
      let restart : List Word := ([0] : List Word) ++ words32 r.fail ++ words32 r.restart ++ [BitVec.ofNat 16 r.merged]
        ++ [BitVec.ofNat 16 (match r.ended with
            | .none => 0xFF00
            | .blanking => 0xFF01
            | .format => 0xFF02
            | .verify i => 3 + 256 * (i % 256))]
        ++ (match r.voided with
            | some (st, n, k) => [st.code, BitVec.ofNat 16 n, BitVec.ofNat 16 k]
            | none => [blank, blank, blank])
      let x := p.ctxs.getD c Ctx.cold
      (p.queue.length ≤ 11 → p.route.endRecord = some body →
        exec .routeEndRecordJoin s = .next { s with part :=
          (Part.joined { p with route := { p.route with endRecord := none } } .event .routeEnd body) })
      ∧ (p.queue.length ≤ 11 → p.route.outageRecord = some body →
        exec .outageRecordJoin s = .next { s with part :=
          (Part.joined { p with route := { p.route with outageRecord := none } } .event .outage body) })
      ∧ (p.queue.length ≤ 10 → p.backup.outage = some o → p.backup.restart = some r →
        exec .restartRecordsJoin s = .next { s with part :=
          ((Part.joined { p with backup := { p.backup with outage := none, restart := none } } .event .outage outage).joined
            .event .restart restart) })
      ∧ (p.queue.length = 11 → p.backup.outage = some o →
        exec .restartRecordsJoin s = .next { s with part :=
          (Part.joined { p with backup := { p.backup with outage := none } } .event .outage outage) })
      ∧ (p.queue.length ≤ 11 → p.backup.outage = none → p.backup.restart = some r →
        exec .restartRecordsJoin s = .next { s with part :=
          (Part.joined { p with backup := { p.backup with restart := none } } .event .restart restart) })
      ∧ (p.queue.length ≤ 15 → c < 8 → c < p.ctxs.length → x.summaryOwed = true → x.thermal ≠ .idle →
          (p.ctxs.take c).all (fun y => !(y.summaryOwed && y.thermal != .idle)) = true →
        exec .withheldSummary s = .next { s with part :=
          (Part.joined { p with ctxs := p.ctxs.set c { x with summaryOwed := false } } .event .alert
            [0, 0, BitVec.ofNat 16 c, 0x2000, blank, blank, BitVec.ofNat 16 x.withheld]) }))

/-- R46: the arbiter grants a free port to requester 3, whose long operation and sheet read take turns, before requester 4, and to
neither while requester 2 has a write; with the grant it changes only what the VERIFY fixes then. -/
def Obligations.ArbiterGrantChangesOnlyItsOwn : Prop :=
  ∀ (b : Burst) (p : Part),
    (p.running = false ∨ p.arb.burst ≠ none ∨ p.req2Waiting = true ∨ p.lowGrant = none → p.grantPort = p)
    ∧ (p.running = true → p.arb.burst = none → p.req2Waiting = false → p.readBurst = some b →
        (p.longHasBurst = false ∨ p.arb.lastWasRead = false) →
      p.grantPort = { p with arb := { p.arb with burst := some b, lastWasRead := true } })
    ∧ (p.running = true → p.arb.burst = none → p.req2Waiting = false → p.readBurst = none → p.longHasBurst = false →
        p.scrub.step ≠ none →
      p.grantPort = { p with arb := { p.arb with burst := some .scrub } })
    ∧ (p.running = true → p.arb.burst = none → p.req2Waiting = false → p.longHasBurst = true →
        (p.readBurst = none ∨ p.arb.lastWasRead = true) → p.verifyRunning = false →
      p.grantPort = { p with arb := { p.arb with burst := some .longOperation, lastWasRead := false } })
    ∧ p.grantPort = { p with arb := p.grantPort.arb, verify := p.grantPort.verify, claims := p.grantPort.claims }

/-- R73, R164 and R189: what follows when a long-operation slot or the claim queue has changed; `ended` says that a long operation has
stopped running. A WAITING batch begins to blank, then the claim at the head of the queue starts its VERIFY, where the other slot
permits; a scrub step in progress gives way to a running long operation. With none running, and one just ended, an owed step begins
with the first CLOSED segment from the pointer on. -/
def Obligations.SlotChangesStartWhatWaits : Prop :=
  ∀ (i n : Nat) (rest : List Nat) (e : SegEntry) (ended : Bool) (p : Part),
    let permits := p.retire.state = .empty ∨ p.retire.state = .collecting ∨ p.retire.state = .suspended
    let q := p.slotsChanged ended
    (p.retire.state = .waiting → p.verifyRunning = false →
      q.retire = { p.retire with state := .blanking } ∧ q.verify = p.verify)
    ∧ ((p.retire.state ≠ .waiting ∨ p.verifyRunning = true) → q.retire = p.retire)
    ∧ (p.verify = none → p.claimQueue = i :: rest → permits →
      q.verify = some (Verify.start i) ∧ q.claimQueue = rest
        ∧ q.claims = p.claims.modify i (fun c => { c with state := .verifying }))
    ∧ ((p.verify ≠ none ∨ p.claimQueue = [] ∨ ¬permits) →
      q.verify = p.verify ∧ q.claimQueue = p.claimQueue ∧ q.claims = p.claims)
    ∧ (q.longRunning = true → p.scrub.step ≠ none → p.arb.burst ≠ some .scrub →
      q.scrub = { p.scrub with step := none, owed := min 255 (p.scrub.owed + 1) })
    ∧ (q.longRunning = true → p.scrub.step = none → q.scrub = p.scrub)
    ∧ (q.longRunning = false → ended = true → p.scrub.step = none → 0 < p.scrub.owed → p.store.segs[n]? = some e →
        e.state = .closed → p.scrub.pointer ≤ n + 1 →
        ((p.store.segs.take n).drop (p.scrub.pointer - 1)).all (fun g => g.state != .closed) = true →
      q.scrub = { p.scrub with
        pointer := n + 1, owed := p.scrub.owed - 1
        step := some { check := { seg := n + 1, slot := 0, limit := none, exit := none, chain := 0 }, abandoned := false } })
    ∧ (q.longRunning = false → (ended = false ∨ p.scrub.step ≠ none ∨ p.scrub.owed = 0) → q.scrub = p.scrub)
    ∧ q = { p with retire := q.retire, verify := q.verify, claimQueue := q.claimQueue, claims := q.claims, scrub := q.scrub }

/-! ## The upstream port and the write policer (chapter 2) -/

/-- R51 to R53: the gate. K1 is held without reaching memory; K2 at its address gates it; a known code is taken, an unknown one
answered there; parameter words are collected, and the last one brings the judgement of R54 (Part.judge); an abandoned command is
REFUSED, and its parameter words are discarded. R44: a held K1 that a write elsewhere or a read of its address releases is written
ahead of that access, shown in UNFORMATTED. -/
def Obligations.TheGateConsumesTheKeySequence : Prop :=
  ∀ (a b : Addr) (d : Word) (dock : Bool) (c : Command) (got : List Word) (r : CurrentCommand) (s : State), s.Quiet → s.part.atRest = true →
    let p := s.part
    let met := p.met dock
    let plain := p.mode = .unformatted ∧ p.arb.burst = none ∧ p.req2Waiting = false
    (p.chan.gate = .idle →
      exec (.upstreamWrite a 0x5AC3 dock) s = .next { s with part := { met with chan := { met.chan with gate := .keyed a } } })
    ∧ (p.chan.gate = .keyed a →
      exec (.upstreamWrite a 0xA53C dock) s = .next { s with part := { met with chan := { met.chan with gate := .gated a } } })
    ∧ (p.chan.gate = .gated a → Command.ofCode d = none →
      exec (.upstreamWrite a d dock) s = .next { s with part := { met with chan := { met.chan with
        gate := .idle
        current := some { echo := d, params := [], state := .refused, outcome := .unknownCommand, results := [],
                          toggle := false, addr := some a, readPos := 0 } } } })
    ∧ (p.chan.gate = .gated a → p.chan.current = none →
      exec (.upstreamRead a) s = .next { s with port := { s.port with readData := some 0xFFFF } })
    ∧ (p.chan.gate = .parameters b c got → p.chan.current = some r → b ≠ a →
      exec (.upstreamWrite a 0x5AC3 dock) s = .next { s with part :=
        { p.setDock dock with chan := { p.chan with
          gate := .keyed a
          current := some { r with params := [], state := .refused, outcome := .abandoned, results := [], readPos := 0 } } } })
    ∧ (p.chan.gate = .gated a → Command.ofCode d = some c → c.paramCount = 0 →
      exec (.upstreamWrite a d dock) s = .next { s with part := (Part.judge c [] dock (p.taken a c [] dock)).grantPort })
    ∧ (p.chan.gate = .gated a → Command.ofCode d = some c → c.paramCount ≠ 0 →
      exec (.upstreamWrite a d dock) s = .next { s with part :=
        { p.taken a c [] dock with chan := { p.presents a c [] .running .ok [] with gate := .parameters a c [] } } })
    ∧ (p.chan.gate = .parameters a c got → p.chan.current = some r → got.length + 1 < c.paramCount →
      exec (.upstreamWrite a d dock) s = .next { s with part :=
        { p.setDock dock with chan := { p.chan with
          gate := .parameters a c (got ++ [d]), current := some { r with params := got ++ [d] } } } })
    ∧ (p.chan.gate = .parameters a c got → p.chan.current = some r → c.paramCount ≤ got.length + 1 →
      exec (.upstreamWrite a d dock) s = .next { s with part := (Part.judge c (got ++ [d]) dock
        { p.setDock dock with chan := { p.chan with
          gate := .idle, current := some { r with params := got ++ [d] } } }).grantPort })
    ∧ (plain → p.chan.gate = .keyed b → b ≠ a → d ≠ 0x5AC3 →
      exec (.upstreamWrite a d dock) s = .next { s with
        mem := (s.mem.write b.toNat 0x5AC3).write a.toNat d
        part := { met.granted.granted with chan := { met.chan with gate := .idle } } })
    ∧ (plain → p.chan.gate = .keyed b → b ≠ a →
      exec (.upstreamWrite a 0x5AC3 dock) s = .next { s with
        mem := s.mem.write b.toNat 0x5AC3
        part := { met.granted with chan := { met.chan with gate := .keyed a } } })
    ∧ (plain → p.chan.gate = .keyed a →
        (match p.chan.current with | some c => c.addr == some a | none => false) = false →
      exec (.upstreamRead a) s = .next { s with
        mem := s.mem.write a.toNat 0x5AC3
        port := { s.port with readData := some ((s.mem.write a.toNat 0x5AC3).read a.toNat) }
        part := { p.granted.granted with chan := { p.chan with gate := .idle } } })

/-- R31, R32, R33, R34 and R36: with no record under assembly, the first test that applies names the cause of a refusal; the refusal
is logged and raises WRITE_REFUSED, and nothing else changes. `e` is the entry of the record segment the write falls in. -/
def Obligations.RefusedWritesAreLoggedWithTheirCause : Prop :=
  ∀ (a : Addr) (d : Word) (dock : Bool) (e : SegEntry) (k : Kind) (cause : RefusalCause) (s : State), s.Ready →
    s.part.asm = none → d ≠ 0x5AC3 →
    let p := s.part
    let n := a.toNat / 16384
    let slot := a.toNat % 16384 / 16
    let first : Bool := a.toNat % 16 == 0
    let inStore := (p.mode = .guarded ∨ p.mode = .service) ∧ 1 ≤ n ∧ n < p.store.nSeg ∧ p.store.segs[n - 1]? = some e
      ∧ p.store.direct.all (fun x => x.kind != .header || x.seg != n) = true
    let closedTo : Prop := p.retire.state = .formatRunning ∨ e.state = .retiring
    let taken : Prop := (e.state = .opened ∨ e.state = .closed ∨ e.state = .faulted) ∧ slot ≤ e.count.getD 0
    let appendsTo (st : Stream) : Bool :=
      first && (p.store.streams.get st).openSeg == some n && (p.store.streams.get st).append == some slot
    let stalled : Bool := match Kind.ofHeader d with
      | some .sample => p.store.streams.sample.stalled
      | some .load => p.store.streams.delivery.stalled
      | some .delivery => p.store.streams.delivery.stalled
      | some .unload => p.store.streams.delivery.stalled
      | _ => false
    let why : Prop :=
      (cause = .foreignStore ∧ p.mode = .foreign)
      ∨ (cause = .label ∧ (p.mode = .guarded ∨ p.mode = .service) ∧ a.toNat < 16)
      ∨ (cause = .routeLocked ∧ (p.mode = .guarded ∨ p.mode = .service) ∧ 16 ≤ a.toNat ∧ a.toNat < 2048 ∧ p.route.state ≠ .idle)
      ∨ (cause = .outOfStore ∧ (p.mode = .guarded ∨ p.mode = .service) ∧ 1 ≤ n ∧ p.store.nSeg ≤ n)
      ∨ (cause = .retiring ∧ inStore ∧ closedTo)
      ∨ (cause = .committed ∧ inStore ∧ ¬closedTo ∧ taken)
      ∨ (cause = .storeFull ∧ inStore ∧ ¬closedTo ∧ ¬taken ∧ appendsTo .sample = false ∧ appendsTo .delivery = false
          ∧ first = true ∧ stalled = true)
      ∨ (cause = .notAppendSlot ∧ inStore ∧ ¬closedTo ∧ ¬taken ∧ appendsTo .sample = false ∧ appendsTo .delivery = false
          ∧ (first = false ∨ stalled = false))
      ∨ (cause = .badHeader ∧ inStore ∧ ¬closedTo ∧ ¬taken ∧ (appendsTo .sample = true ∨ appendsTo .delivery = true)
          ∧ d.toNat / 256 ≠ 0xC5)
      ∨ (cause = .wrongStream ∧ inStore ∧ ¬closedTo ∧ ¬taken ∧ d.toNat / 256 = 0xC5
          ∧ ((appendsTo .sample = true ∧ d ≠ 0xC501)
              ∨ (appendsTo .sample = false ∧ appendsTo .delivery = true ∧ d ∉ [0xC502, 0xC503, 0xC504])))
      ∨ (cause = .noRoomForAnswer ∧ inStore ∧ ¬closedTo ∧ ¬taken ∧ appendsTo .sample = false ∧ appendsTo .delivery = true
          ∧ k ∈ [.load, .delivery, .unload] ∧ d = k.headerWord ∧ slot = 1023 ∧ p.store.pool = [])
    why → exec (.upstreamWrite a d dock) s = .next { s with part :=
      { p.met dock with
        attention := p.attention ||| causeWriteRefused
        refusals := { first := some (match p.refusals.first with | some f => f | none => (a, cause)),
                      count := min 65535 (p.refusals.count + 1) } } }

/-- R31, R32 and R82: a write that is forwarded reaches memory as written, and one into the route sheet disturbs a ROUTE LOAD read in
progress. A write to the record memory changes the word at its address and no other, and keeps the canonical form (log 6). -/
def Obligations.ForwardedWritesReachMemory : Prop :=
  (∀ (a : Addr) (d : Word) (dock : Bool) (s : State), s.Ready → s.part.asm = none → d ≠ 0x5AC3 →
      s.part.arb.burst = none → (s.part.arb.fairness < 8 ∨ s.part.req2Waiting = false) →
      let p := s.part
      let plain := p.mode = .unformatted ∨ ((p.mode = .guarded ∨ p.mode = .service) ∧ 2048 ≤ a.toNat ∧ a.toNat < 16384)
      let sheet := (p.mode = .guarded ∨ p.mode = .service) ∧ 16 ≤ a.toNat ∧ a.toNat < 2048 ∧ p.route.state = .idle
      (plain → exec (.upstreamWrite a d dock) s = .next { s with mem := s.mem.write a.toNat d, part := (p.met dock).granted })
      ∧ (sheet → exec (.upstreamWrite a d dock) s = .next { s with
          mem := s.mem.write a.toNat d
          part := { (p.met dock).granted with
                    route := { p.route with load := p.route.load.map (fun l => { l with disturbed := true }) } } }))
  ∧ (∀ (m : Memory) (a b : Nat) (d : Word), m.wf →
      (m.write a d).wf ∧ (m.write a d).read a = d ∧ (b ≠ a → (m.write a d).read b = m.read b))

/-- R34 and R37: word 0 of an append slot begins a record; the append slot does not move. A request in slot 1,023 has an answer
promise (R35). R38 and R39: the expected next word of a record, before word 15. Words 1 to 11 are forwarded as written and kept;
word 12 fixes the receipt time and the pending chain value, and the part's words 12 to 14 replace the processor's. -/
def Obligations.ARecordIsTakenWordByWord : Prop :=
  (∀ (a : Addr) (dock : Bool) (st : Stream) (k : Kind) (e : SegEntry) (n slot : Nat) (s : State), s.Ready →
      s.part.asm = none → (s.part.mode = .guarded ∨ s.part.mode = .service) → s.part.retire.state ≠ .formatRunning →
      s.part.arb.burst = none → (s.part.arb.fairness < 8 ∨ s.part.req2Waiting = false) →
      s.part.store.direct.all (fun x => x.kind != .void && (x.kind != .header || x.seg != n)) = true →
      let p := s.part
      (st = .sample ∧ k = .sample) ∨ (st = .delivery ∧ k ∈ [.load, .delivery, .unload] ∧ (slot < 1023 ∨ p.mayTake .delivery = true)
          ∧ ¬(p.store.streams.sample.openSeg = some n ∧ p.store.streams.sample.append = some slot)) →
      1 ≤ n → n < p.store.nSeg → slot < 1024 → a.toNat = n * 16384 + 16 * slot → p.store.segs[n - 1]? = some e →
      e.state = .opened → e.count.getD 0 < slot → (p.store.streams.get st).openSeg = some n →
      (p.store.streams.get st).append = some slot →
      exec (.upstreamWrite a k.headerWord dock) s = .next { s with
        mem := s.mem.write a.toNat k.headerWord
        part := (Part.grantPort { (p.met dock).granted with
          asm := some { seg := n, slot := slot, stream := st, kind := k, next := 1, words := [k.headerWord], receipt := none,
                        chain := none, promise := st == .delivery && slot == 1023 } }) })
  ∧ (∀ (a : Addr) (d : Word) (dock : Bool) (x : Assembly) (s : State), s.Ready → s.part.asm = some x →
      (s.part.mode = .guarded ∨ s.part.mode = .service) → d ≠ 0x5AC3 →
      s.part.arb.burst = none → (s.part.arb.fairness < 8 ∨ s.part.req2Waiting = false) →
      1 ≤ x.seg → x.seg < s.part.store.nSeg → x.slot < 1024 → 1 ≤ x.next → a.toNat = x.seg * 16384 + 16 * x.slot + x.next →
      s.part.store.direct.all (fun y => y.kind != .header || y.seg != x.seg) = true →
      let p := s.part
      let now := p.clock.now
      let taken (w : Word) (y : Assembly) : State :=
        { s with mem := s.mem.write a.toNat w, part := { (p.met dock).granted with asm := some y } }
      (x.next < 12 → exec (.upstreamWrite a d dock) s = .next (taken d { x with words := x.words ++ [d], next := x.next + 1 }))
      ∧ (x.next = 12 → exec (.upstreamWrite a d dock) s = .next { s with
          mem := s.mem.write a.toNat (BitVec.ofNat 16 now)
          part := { (p.met dock).granted with
            clock := { p.clock with floor := max p.clock.floor now }
            asm := some { x with
              next := 13, receipt := some now
              chain := some (recordChain (p.store.streams.get x.stream).running (x.words ++ words32 now)) } } })
      ∧ (x.next = 13 → exec (.upstreamWrite a d dock) s = .next
          (taken (BitVec.ofNat 16 (x.receipt.getD 0 / 65536)) { x with next := 14 }))
      ∧ (x.next = 14 → exec (.upstreamWrite a d dock) s = .next
          (taken (BitVec.ofNat 16 ((x.chain.getD 0).toNat)) { x with next := 15 })))

/-- R20, R40, R41 and R143: word 15 commits the record. The stream's counter, chain, segment count and append slot move on
(Part.slotConsumed, which TheLastSlotClosesTheSegment states). A SAMPLE is handed to the exposure engine (Part.consumeSample, which
ASampleIsTaken states). A request, here below slot 1,023, is answered in the next slot: the answer, which Part.answerRequest gives
(LoadsAreJudged, DeliveriesAndUnloadsAreJudged), takes its place in the chain and on the direct write list, and its slot is
reserved. -/
def Obligations.Word15CommitsTheRecord : Prop :=
  (∀ (a : Addr) (d : Word) (dock : Bool) (x : Assembly) (chain : DWord) (t : Nat) (s : State), s.Ready → s.part.asm = some x →
      (s.part.mode = .guarded ∨ s.part.mode = .service) → d ≠ 0x5AC3 →
      s.part.arb.burst = none → (s.part.arb.fairness < 8 ∨ s.part.req2Waiting = false) →
      x.kind = .sample → x.stream = .sample → x.next = 15 → x.chain = some chain → x.receipt = some t →
      1 ≤ x.seg → x.seg < s.part.store.nSeg → x.slot < 1024 → a.toNat = x.seg * 16384 + 16 * x.slot + 15 →
      s.part.store.direct.all (fun y => y.kind != .header || y.seg != x.seg) = true →
      s.part.store.streams.sample.openSeg = some x.seg → s.part.route.closeWait = none → s.part.chan.running = none →
      let p := s.part
      let e := p.store.streams.sample
      exec (.upstreamWrite a d dock) s = .next { s with
        mem := s.mem.write a.toNat (BitVec.ofNat 16 (chain.toNat / 65536))
        part := (Part.consumeSample x.words t (Part.slotConsumed .sample x.seg x.slot true { (p.met dock).granted with
          asm := none
          store := { p.store with
            segs := p.store.segs.modify (x.seg - 1) (fun g => { g with count := some (g.count.getD 0 + 1) })
            streams := { p.store.streams with
              sample := { e with nextRec := e.nextRec + 1, running := chain } } } })).grantPort })
  ∧ (∀ (a : Addr) (d : Word) (dock : Bool) (x : Assembly) (chain : DWord) (t : Nat) (s : State), s.Ready → s.part.asm = some x →
      (s.part.mode = .guarded ∨ s.part.mode = .service) → d ≠ 0x5AC3 →
      s.part.arb.burst = none → (s.part.arb.fairness < 8 ∨ s.part.req2Waiting = false) →
      x.kind ≠ .sample → x.stream = .delivery → x.next = 15 → x.chain = some chain → x.receipt = some t →
      1 ≤ x.seg → x.seg < s.part.store.nSeg → x.slot < 1023 → a.toNat = x.seg * 16384 + 16 * x.slot + 15 →
      s.part.store.direct.all (fun y => y.kind != .header || y.seg != x.seg) = true →
      s.part.store.streams.delivery.openSeg = some x.seg → s.part.route.closeWait = none → s.part.chan.running = none →
      let p := { (s.part.met dock).granted with asm := none }
      let answered := p.answerRequest x.kind x.words t
      let words := recordWords answered.1.kind answered.1.body t chain
      let q := answered.2
      let e := q.store.streams.delivery
      exec (.upstreamWrite a d dock) s = .next { s with
        mem := s.mem.write a.toNat (BitVec.ofNat 16 (chain.toNat / 65536))
        part := Part.slotConsumed .delivery x.seg (x.slot + 1) true { q with
          store := { q.store with
            segs := q.store.segs.modify (x.seg - 1) (fun g => { g with count := some (g.count.getD 0 + 1 + 1) })
            streams := { q.store.streams with
              delivery := { e with nextRec := e.nextRec + 1 + 1, running := recordChainField words
                                   reserved := some (x.seg, x.slot + 1) } }
            direct := q.store.direct ++ [{ kind := .answer, seg := x.seg, slot := x.slot + 1, words := words }] } } })

/-- R42 and R36: a write that is not the expected next word voids the record under assembly and is then treated on its own merits;
here it is one into the store label. The VOID record keeps the words received, and its slot is consumed (Part.slotConsumed, which
TheLastSlotClosesTheSegment states). -/
def Obligations.ABreakingWriteVoidsTheRecord : Prop :=
  ∀ (a : Addr) (d : Word) (dock : Bool) (x : Assembly) (s : State), s.Ready → s.part.asm = some x →
    (s.part.mode = .guarded ∨ s.part.mode = .service) → d ≠ 0x5AC3 → a.toNat < 16 → 1 ≤ x.seg →
    s.part.store.direct.all (fun y => y.kind != .void) = true →
    (s.part.store.streams.get x.stream).openSeg = some x.seg → s.part.route.closeWait = none → s.part.chan.running = none →
    let p := s.part
    let e := p.store.streams.get x.stream
    let now := p.clock.now
    let head : List Word := 0xC511 :: (x.words.drop 1 ++ List.replicate 11 blank).take 11 ++ words32 now
    let chain := recordChain e.running head
    let voided := Part.slotConsumed x.stream x.seg x.slot true { p.met dock with
      asm := none
      clock := { p.clock with floor := max p.clock.floor now }
      store := { p.store with
        segs := p.store.segs.modify (x.seg - 1) (fun g => { g with count := some (g.count.getD 0 + 1) })
        streams := p.store.streams.set x.stream { e with nextRec := e.nextRec + 1, running := chain }
        direct := p.store.direct ++ [{ kind := .void, seg := x.seg, slot := x.slot, words := head ++ dwords chain }] } }
    exec (.upstreamWrite a d dock) s = .next { s with part := { voided with
      attention := voided.attention ||| causeRecordBroken ||| causeWriteRefused
      refusals := { first := some (match p.refusals.first with | some f => f | none => (a, .label)),
                    count := min 65535 (p.refusals.count + 1) } } }

/-- R12, R16, R20, R21 and R23: a slot consumed in a stream's open segment moves the append slot on; slot 1,023 closes the segment,
which then owes its CLOSED rewrite, and the stream is given a new segment or is stalled. In a segment that is no longer the open one
the exit chain takes the running chain. A request in slot 1,023 has its answer in slot 1 of a new DELIVERY segment, whose header
stands before it on the direct write list; its seed is the running chain, then the header's (the model's reading, log 56). -/
def Obligations.TheLastSlotClosesTheSegment : Prop :=
  (∀ (st : Stream) (n k : Nat) (needs : Bool) (p : Part),
      let e := p.store.streams.get st
      let closed : Part := { p with store := { p.store with
        segs := p.store.segs.modify n (fun g =>
          { g with state := .closed, closeTime := some p.clock.now, exitChain := some e.running, owed := .closed })
        streams := p.store.streams.set st { e with openSeg := none, append := none } } }
      let waits := p.retire.state = .formatRunning
        ∨ (match p.asm with | some a => a.stream == st | none => false) = true
      (e.openSeg = some (n + 1) → k < 1023 →
        p.slotConsumed st (n + 1) k needs
          = { p with store := { p.store with streams := p.store.streams.set st { e with append := some (k + 1) } } })
      ∧ (e.openSeg = some (n + 1) → 1023 ≤ k → (needs = false ∨ waits) → p.slotConsumed st (n + 1) k needs = closed)
      ∧ (e.openSeg = some (n + 1) → 1023 ≤ k → needs = true → ¬waits → p.mayTake st = true →
        p.slotConsumed st (n + 1) k needs = closed.openSegment st)
      ∧ (e.openSeg = some (n + 1) → 1023 ≤ k → needs = true → ¬waits → p.mayTake st = false →
        p.slotConsumed st (n + 1) k needs = { closed with
          attention := p.attention ||| causeStoreFull
          store := { closed.store with
            streams := p.store.streams.set st { e with openSeg := none, append := none, stalled := true } } })
      ∧ (e.openSeg ≠ some (n + 1) →
        p.slotConsumed st (n + 1) k needs = { p with store := { p.store with
          segs := p.store.segs.modify n (fun g => { g with exitChain := some e.running }) } }))
  ∧ (∀ (a : Addr) (d : Word) (dock : Bool) (x : Assembly) (chain : DWord) (t m : Nat) (rest : List Nat) (s : State), s.Ready →
      s.part.asm = some x → (s.part.mode = .guarded ∨ s.part.mode = .service) → d ≠ 0x5AC3 →
      s.part.arb.burst = none → (s.part.arb.fairness < 8 ∨ s.part.req2Waiting = false) →
      x.kind ≠ .sample → x.stream = .delivery → x.next = 15 → x.chain = some chain → x.receipt = some t →
      1 ≤ x.seg → x.seg < s.part.store.nSeg → x.slot = 1023 → a.toNat = x.seg * 16384 + 16383 →
      s.part.store.direct.all (fun y => y.kind != .header || y.seg != x.seg) = true →
      s.part.store.streams.delivery.openSeg = some x.seg → s.part.route.closeWait = none → s.part.chan.running = none →
      s.part.store.pool = (m + 1) :: rest →
      let p := { (s.part.met dock).granted with asm := none }
      let answered := p.answerRequest x.kind x.words t
      let q := answered.2
      let e := q.store.streams.delivery
      let closed : Part := { q with store := { q.store with
        segs := q.store.segs.modify (x.seg - 1) (fun g => { g with
          count := some (g.count.getD 0 + 1), state := .closed, closeTime := some q.clock.now, exitChain := some chain
          owed := .closed })
        streams := { q.store.streams with
          delivery := { e with nextRec := e.nextRec + 1, running := chain, openSeg := none, append := none } } } }
      let new := closed.openSegment .delivery
      let f := new.store.streams.delivery
      let words := recordWords answered.1.kind answered.1.body t f.running
      exec (.upstreamWrite a d dock) s = .next { s with
        mem := s.mem.write a.toNat (BitVec.ofNat 16 (chain.toNat / 65536))
        part := { new with store := { new.store with
          segs := new.store.segs.modify m (fun g => { g with count := some (g.count.getD 0 + 1) })
          streams := { new.store.streams with
            delivery := { f with nextRec := f.nextRec + 1, running := recordChainField words, append := some 2
                                 reserved := some (m + 1, 1) } }
          direct := new.store.direct ++ [{ kind := .answer, seg := m + 1, slot := 1, words := words }] } } })

/-- R31, R45 and R56: reads. At the presentation address a read returns the status word, its toggle changing while RUNNING, or after
the end the status word and the result words in turn. Out of the store or in a RETIRING segment it returns the blank pattern without
a downstream cycle; any other returns memory and changes nothing else but the fairness count. -/
def Obligations.ReadsReturnMemoryBlankOrStatus : Prop :=
  (∀ (a : Addr) (e : SegEntry) (s : State), s.Ready →
      (match s.part.chan.current with | some c => c.addr == some a | none => false) = false →
      let p := s.part
      let n := a.toNat / 16384
      let inStore := p.mode = .guarded ∨ p.mode = .service
      let shut := p.retire.state = .formatRunning ∨ e.state = .retiring
      let free := p.arb.burst = none ∧ (p.arb.fairness < 8 ∨ p.req2Waiting = false)
      ((inStore ∧ (p.store.nSeg ≤ n ∨ (1 ≤ n ∧ p.store.segs[n - 1]? = some e ∧ shut))) →
        exec (.upstreamRead a) s = .next { s with port := { s.port with readData := some 0xFFFF } })
      ∧ ((¬inStore ∨ (n = 0 ∧ 1 ≤ p.store.nSeg)
            ∨ (1 ≤ n ∧ n < p.store.nSeg ∧ p.store.segs[n - 1]? = some e ∧ ¬shut
                ∧ p.store.direct.all (fun x => x.kind != .header || x.seg != n) = true)) → free →
          (n = 0 → p.store.direct.all (fun x => x.seg != 0) = true) →
        exec (.upstreamRead a) s = .next { s with
          port := { s.port with readData := some (s.mem.read a.toNat) }
          part := p.granted }))
  ∧ (∀ (a : Addr) (c : CurrentCommand) (k : Nat) (w : Word) (s : State), s.Ready → s.part.chan.current = some c → c.addr = some a →
      let status : Word := (c.echo &&& 0x00FF) ||| (c.state.code <<< 8) ||| (if c.toggle then 0x0400 else 0)
        ||| (c.outcome.code <<< 11)
      let answer (w : Word) (after : CurrentCommand) : State :=
        { s with port := { s.port with readData := some w },
                 part := { s.part with chan := { s.part.chan with current := some after } } }
      (c.state = .running → exec (.upstreamRead a) s = .next (answer status { c with toggle := !c.toggle }))
      ∧ (c.state ≠ .running → c.readPos = 0 →
        exec (.upstreamRead a) s = .next (answer status { c with readPos := if c.results = [] then 0 else 1 }))
      ∧ (c.state ≠ .running → c.readPos = k + 1 → c.results[k]? = some w →
        exec (.upstreamRead a) s = .next
          (answer w { c with readPos := if k + 1 < c.results.length then k + 2 else 0 })))

/-- R22, R29, R47, R48 and R199: an access that must wait. A burst in progress, requester 2's turn or a header on the direct write
list of its segment holds back an access that needs the port; a VOID on the list holds back a write that would break a record and a
word 0 that would begin one. An access behind one that waits, and one that comes while RESET is asserted or a mount runs, waits
untouched; one without SUPPLY is lost. What waits is served by the row that ends the wait, with the state that row has left, word 12
with the time of its arrival (R39): the write of a header, or of a VOID record, lets a write be judged by its place, a break be made
and a read be answered. That a write held by a pending VOID leaves the record unbroken until then, and that the clock floor takes
word 12's arrival time when the word is accepted, are the model's readings (logs 17 and 18). R51: a K1 released meanwhile is treated
under the mode at its release, also when the burst it waits for is the label write that ends a FORMAT (log 50). -/
def Obligations.StretchedAccessesWaitAndAreServed : Prop :=
  (∀ (a : Addr) (d : Word) (dock : Bool) (x : Assembly) (asm : Assembly) (s : State), s.Quiet → s.part.chan.gate = .idle →
      s.part.atRest = true → d ≠ 0x5AC3 →
      let p := s.part
      let n := a.toNat / 16384
      let inStore := (p.mode = .guarded ∨ p.mode = .service) ∧ 1 ≤ n ∧ n < p.store.nSeg
      let held := p.arb.burst ≠ none ∨ (8 ≤ p.arb.fairness ∧ p.req2Waiting = true)
      let headed : Bool := p.store.direct.any (fun e => e.kind == .header && e.seg == n)
      let voids : Bool := p.store.direct.any (fun e => e.kind == .void)
      let waiting (w : Work) : State := { s with port := { s.port with waiting := [w] } }
      let unshown : Bool := match p.chan.current with | some c => c.addr != some a | none => true
      let placed : State := { waiting (.place a d p.clock.now none) with part := p.met dock }
      (held → (p.mode = .unformatted
          ∨ ((p.mode = .guarded ∨ p.mode = .service) ∧ 2048 ≤ a.toNat ∧ a.toNat < 16384)
          ∨ (inStore ∧ p.asm = some x ∧ a.toNat = x.seg * 16384 + 16 * x.slot + x.next)) →
          (p.asm = none ∨ (inStore ∧ p.asm = some x ∧ a.toNat = x.seg * 16384 + 16 * x.slot + x.next)) →
        exec (.upstreamWrite a d dock) s = .next placed)
      ∧ (inStore → headed = true → voids = false → exec (.upstreamWrite a d dock) s = .next placed)
      ∧ (inStore → p.asm = some x → a.toNat ≠ x.seg * 16384 + 16 * x.slot + x.next → voids = true →
        exec (.upstreamWrite a d dock) s = .next { waiting (.police a d none) with part := p.met dock })
      ∧ (inStore → p.asm = none → voids = true → p.placeWrite a d = .ok asm →
        exec (.upstreamWrite a d dock) s = .next placed)
      ∧ (unshown = true → held → p.mode = .unformatted → exec (.upstreamRead a) s = .next (waiting (.modeRead a)))
      ∧ (unshown = true → inStore → p.shut n = false → headed = true →
        exec (.upstreamRead a) s = .next (waiting (.modeRead a))))
  ∧ (∀ (a : Addr) (d : Word) (dock : Bool) (w : Work) (rest : List Work) (s : State),
      let p := s.part
      let behind (v : Work) (q : Part) : State := { s with port := { s.port with waiting := s.port.waiting ++ [v] }, part := q }
      (p.running = true → s.port.waiting = w :: rest → ({ s with part := p.setDock dock } : State).tryWork w = none →
        exec (.upstreamWrite a d dock) s = .next (behind (.write a d dock) (p.setDock dock)))
      ∧ (p.running = true → s.port.waiting = w :: rest → s.tryWork w = none →
        exec (.upstreamRead a) s = .next (behind (.read a) p))
      ∧ ((p.power = .resetHeld ∨ (p.power = .on ∧ p.backup.mounting = true)) →
        exec (.upstreamWrite a d dock) s = .next (behind (.write a d dock) (p.setDock dock))
        ∧ exec (.upstreamRead a) s = .next (behind (.read a) p))
      ∧ (p.power = .off →
        exec (.upstreamWrite a d dock) s = .next { s with part := p.setDock dock } ∧ exec (.upstreamRead a) s = .next s))
  ∧ (∀ (a : Addr) (d : Word) (dock : Bool) (b : Addr) (f : FormatOp) (t : Nat) (s : State), s.part.running = true →
      s.part.arb.burst = some .longOperation →
      let p := s.part
      (s.port.waiting = [] → p.chan.gate = .keyed b → b ≠ a → p.mode = .unformatted →
        exec (.upstreamWrite a d dock) s = .next { s with
          port := { s.port with waiting := [.place b 0x5AC3 p.clock.now (some .unformatted), .gate a d dock] }
          part := { p.met dock with chan := { (p.met dock).chan with gate := .idle } } })
      ∧ (s.port.waiting = [.place a 0x5AC3 t (some .unformatted)] → p.retire.state = .formatRunning → p.retire.fmt = some f →
          f.stage = .write → p.arb.fairness < 8 →
        ∃ u, exec .formatBurst s = .next u ∧ u.port.waiting = [] ∧ u.part.mode = .guarded
          ∧ u.mem = (s.mem.writeWords 0 (labelWords f.code p.clock.now)).write a.toNat 0x5AC3))
  ∧ (∀ (a : Addr) (d : Word) (t base : Nat) (words : List Word) (e : DirectEntry) (more : List DirectEntry) (x : Assembly)
        (q : QueueEntry) (rest : List QueueEntry) (c : RefusalCause) (s : State), s.part.running = true →
      let p := s.part
      let n := a.toNat / 16384
      let served : Port := { s.port with waiting := [] }
      let wrote : Part := { p with
        arb := { p.arb with burst := none, fairness := 0 }
        store := { p.store with
          direct := more
          streams := { p.store.streams with
            delivery := if e.kind = .answer then { p.store.streams.delivery with reserved := none } else p.store.streams.delivery } } }
      let mem := s.mem.writeWords (e.seg * 16384 + 16 * e.slot) e.words
      let writes := p.arb.burst = none ∧ p.store.direct = e :: more
      let policed := p.mode = .guarded ∨ p.mode = .service
      let inStore := policed ∧ 1 ≤ n ∧ n < p.store.nSeg ∧ more.all (fun y => y.kind != .header || y.seg != n) = true
      let refused (q : Part) (c : RefusalCause) : Part := { q with
        attention := q.attention ||| causeWriteRefused
        refusals := { first := some (match p.refusals.first with | some f => f | none => (a, c)),
                      count := min 65535 (p.refusals.count + 1) } }
      let chain := recordChain (wrote.store.streams.get x.stream).running
        (0xC511 :: (x.words.drop 1 ++ List.replicate 11 blank).take 11 ++ words32 p.clock.now)
      let voided := Part.slotConsumed x.stream x.seg x.slot true { wrote with
        asm := none
        clock := { p.clock with floor := max p.clock.floor p.clock.now }
        store := { wrote.store with
          segs := p.store.segs.modify (x.seg - 1) (fun g => { g with count := some (g.count.getD 0 + 1) })
          streams := wrote.store.streams.set x.stream { wrote.store.streams.get x.stream with
            nextRec := (wrote.store.streams.get x.stream).nextRec + 1, running := chain }
          direct := more ++ [{ kind := .void, seg := x.seg, slot := x.slot, words :=
            (0xC511 :: (x.words.drop 1 ++ List.replicate 11 blank).take 11 ++ words32 p.clock.now) ++ dwords chain }] } }
      (s.port.waiting = [.place a d t none] → writes →
          (p.mode = .unformatted ∨ (policed ∧ p.asm = none ∧ 2048 ≤ a.toNat ∧ a.toNat < 16384)) →
        exec .directWriteComplete s = .next { s with mem := mem.write a.toNat d, port := served, part := wrote.granted.grantPort })
      ∧ (s.port.waiting = [.modeRead a] → writes → (p.mode = .unformatted ∨ (inStore ∧ p.shut n = false)) →
        exec .directWriteComplete s = .next { s with
          mem := mem, port := { served with readData := some (mem.read a.toNat) }, part := wrote.granted.grantPort })
      ∧ (s.port.waiting = [.place a d t none] → writes → inStore → p.asm = none → wrote.placeWrite a d = .error c →
        exec .directWriteComplete s = .next { s with mem := mem, port := served, part := (refused wrote c).grantPort })
      ∧ (s.port.waiting = [.place a d t none] → writes → inStore → p.asm = none → wrote.placeWrite a d = .ok x →
          more.all (fun y => y.kind != .void) = true →
        exec .directWriteComplete s = .next { s with
          mem := mem.write a.toNat d, port := served, part := (Part.grantPort { wrote.granted with asm := some x }) })
      ∧ (s.port.waiting = [.police a d none] → writes → policed → more.all (fun y => y.kind != .void) = true → p.asm = some x →
          1 ≤ x.seg → a.toNat < 16 → (p.store.streams.get x.stream).openSeg = some x.seg → p.route.closeWait = none →
          p.chan.running = none →
        exec .directWriteComplete s = .next { s with
          mem := mem, port := served
          part := refused { voided with attention := voided.attention ||| causeRecordBroken } .label })
      ∧ (s.port.waiting = [.place a d t none] → p.arb.burst = some (.record base words) → p.queue = q :: rest →
          q.taken ≠ none → q.kind ≠ .routeEnd → p.scan.run ≠ .frozen → (p.mode = .guarded ∨ p.mode = .service) →
          p.asm = some x → x.next = 12 → x.slot < 1024 → a.toNat = x.seg * 16384 + 16 * x.slot + 12 → 1 ≤ x.seg →
          x.seg < p.store.nSeg → p.store.direct.all (fun y => y.kind != .header || y.seg != x.seg) = true →
          p.arb.fairness < 8 →
        let left : Part := { p with arb := { p.arb with burst := none }, queue := rest }
        exec .recordWriterWriteComplete s = .next { s with
          mem := (s.mem.writeWords base words).write a.toNat (BitVec.ofNat 16 t)
          port := served
          part := (Part.grantPort { left.granted with
            clock := { p.clock with floor := max p.clock.floor t }
            asm := some { x with
              next := 13, receipt := some t
              chain := some (recordChain (p.store.streams.get x.stream).running (x.words ++ words32 t)) } }) }))

/-! ## The twenty commands (chapter 3) -/

/-- R59: which commands each device mode admits, read off the table. R58: a protected parameter is well formed when its second part is
the complement of its first and its third its first, a 32-bit one word by word. Checks 1 to 3 of R54 on every row that gives a
command: BUSY, REFUSED_MODE, PROTECT_MISMATCH with its count and cause; nothing else changes. -/
def Obligations.TheFirstThreeChecksOfACommand : Prop :=
  ((∀ (m : Mode) (c : Command),
        m.admits c = true ↔
          (c = .report ∨ c = .acknowledge ∨ c = .identity)
            ∨ (c = .clockSet ∧ m ≠ .foreign)
            ∨ (c = .format ∧ (m = .unformatted ∨ m = .service))
            ∨ (c = .retire ∧ m = .service)
            ∨ (c = .routeLoad ∧ m = .guarded)
            ∨ (c ∉ [.clockSet, .format, .retire, .routeLoad] ∧ (m = .guarded ∨ m = .service)))
    ∧ ((∀ a b c : Word, (Command.wellProtected .routeLoad [a, b, c] = true ↔ b = ~~~a ∧ c = a)
          ∧ (Command.wellProtected .serviceEnter [a, b, c] = true ↔ b = ~~~a ∧ c = a)
          ∧ (Command.wellProtected .format [a, b, c] = true ↔ b = ~~~a ∧ c = a))
        ∧ (∀ a b c d e f : Word,
            Command.wellProtected .clockSet [a, b, c, d, e, f] = true ↔ c = ~~~a ∧ d = ~~~b ∧ e = a ∧ f = b)))
  ∧ (∀ (i : Instr) (s : State) (a : Addr) (c : Command) (ps : List Word) (dock : Bool),
      s.Ready → s.given i = some (a, c, ps, dock) →
      let p := s.part.setDock dock
      (s.part.chan.running.isSome = true → c ∉ [.report, .acknowledge, .identity, .progress] →
        exec i s = .next { s with part := p.refusedWith a c ps .busy })
      ∧ ((s.part.chan.running = none ∨ c ∈ [.report, .acknowledge, .identity, .progress]) → s.part.mode.admits c = false →
        exec i s = .next { s with part := p.refusedWith a c ps .refusedMode })
      ∧ ((s.part.chan.running = none ∨ c ∈ [.report, .acknowledge, .identity, .progress]) → s.part.mode.admits c = true →
          c.wellProtected ps = false →
        exec i s = .next { s with part :=
          { p.refusedWith a c ps .protectMismatch with
            chan := { p.presents a c ps .refused .protectMismatch [] with
                        protectErrors := min 255 (s.part.chan.protectErrors + 1) }
            attention := s.part.attention ||| causeProtectError } }))

/-- R63: REPORT. -/
def Obligations.ReportReturnsItsTwelveWords : Prop :=
  ∀ (a : Addr) (s : State), s.Ready →
    let p := s.part
    let results : List Word :=
      [p.attention, BitVec.ofNat 16 p.refusals.count]
        ++ (match p.refusals.first with
            | some (w, cause) => words32 w.toNat ++ [cause.code]
            | none => [blank, blank, blank])
        ++ [BitVec.ofNat 16 p.chan.protectErrors, p.mode.code, p.route.state.code,
            if p.mode = .guarded ∨ p.mode = .service then BitVec.ofNat 16 p.store.pool.length else 0]
        ++ words32 p.clock.now ++ [if p.clock.valid then 1 else 0]
    exec (.report a) s = .next { s with part := p.answered a .report [] results }

/-- R67: ACKNOWLEDGE. -/
def Obligations.AcknowledgeRemovesTheNamedCauses : Prop :=
  ∀ (a : Addr) (w : Word) (s : State), s.Ready →
    (w.getLsbD 15 = true → exec (.acknowledge a w) s = .next { s with part := s.part.refusedWith a .acknowledge [w] .badParameter })
    ∧ (w.getLsbD 15 = false →
        exec (.acknowledge a w) s = .next { s with part :=
          { s.part.answered a .acknowledge [w] [s.part.attention &&& ~~~w] with
            attention := s.part.attention &&& ~~~w
            refusals := if w.getLsbD 0 then { first := none, count := 0 } else s.part.refusals } })

/-- R65: IDENTITY. R77, its second part: PROGRESS returns the states of the two long-operation slots. Neither changes anything else.
-/
def Obligations.IdentityAndProgressReturnTheirWords : Prop :=
  (∀ (a : Addr) (s : State), s.Ready →
      let results : List Word :=
        ([0x1A20, 0x0002] : List Word)
          ++ [Config.uniqueNumber.extractLsb' 0 16, Config.uniqueNumber.extractLsb' 16 16,
              Config.uniqueNumber.extractLsb' 32 16, Config.uniqueNumber.extractLsb' 48 16]
          ++ (if s.part.mode = .unformatted then [0, blank, blank]
              else BitVec.ofNat 16 s.part.store.sizeCode ::
                (match s.part.store.formatTime with
                 | some t => words32 t
                 | none => [blank, blank]))
          ++ [s.part.mode.code]
      exec (.identity a) s = .next { s with part := s.part.answered a .identity [] results })
  ∧ (∀ (a : Addr) (s : State), s.Ready → (s.part.mode = .guarded ∨ s.part.mode = .service) →
      let p := s.part
      let results : List Word :=
        [p.retire.state.code]
          ++ (match p.retire.batch, p.retire.fmt with
              | some b, _ => [BitVec.ofNat 16 b.segs.length, BitVec.ofNat 16 b.completed,
                  (match b.current with | some n => BitVec.ofNat 16 n | none => blank)]
              | none, some f =>
                BitVec.ofNat 16 (segCount f.code - 1) ::
                  (match f.stage with
                   | .label => [0, blank]
                   | .segment n _ => [BitVec.ofNat 16 (n - 1), BitVec.ofNat 16 n]
                   | .write => [BitVec.ofNat 16 (segCount f.code - 1), blank])
              | none, none => [0, 0, blank])
          ++ (match p.verify with
              | none => [0, blank, blank, blank]
              | some v => [if v.suspended then 2 else 1, BitVec.ofNat 16 v.claim, v.phase.code, BitVec.ofNat 16 v.count])
      exec (.progress a) s = .next { s with part := p.answered a .progress [] results })

/-- R16, R66 and R194: WHERE. A segment is opened by Part.openSegment, which OpeningTakesTheLowestBlankSegment states. -/
def Obligations.WhereFindsOrOpensTheSegment : Prop :=
  ∀ (a : Addr) (w : Word) (st : Stream) (n k : Nat) (s : State), s.FreeInStore →
    let p := s.part
    let mine := match p.asm with | some x => x.stream == st | none => false
    let e := p.store.streams.get st
    let answer (q : Part) : Part := q.answered a .whereIs [w]
      (match (q.store.streams.get st).openSeg, (q.store.streams.get st).append with
       | some n, some k => words32 (n * 16384 + 16 * k) ++ words32 (q.store.streams.get st).nextRec.toNat ++ [BitVec.ofNat 16 n]
       | _, _ => [])
    (p.retire.state = .formatRunning →
      exec (.whereIs a w) s = .next { s with part := p.refusedWith a .whereIs [w] .busy })
    ∧ (p.retire.state ≠ .formatRunning → 3 < w.toNat →
      exec (.whereIs a w) s = .next { s with part := p.refusedWith a .whereIs [w] .badParameter })
    ∧ (p.retire.state ≠ .formatRunning → w = st.code → e.stalled = true →
      exec (.whereIs a w) s = .next { s with part := p.refusedWith a .whereIs [w] .storeFull })
    ∧ (p.retire.state ≠ .formatRunning → w = st.code → e.stalled = false → e.openSeg = some n → e.append = some k →
      exec (.whereIs a w) s = .next { s with part := answer p })
    ∧ (p.retire.state ≠ .formatRunning → w = st.code → e.stalled = false → e.openSeg = none → mine = true →
      exec (.whereIs a w) s = .next { s with part := p.waitsFor a .whereIs [w] (.whereIs st) })
    ∧ (p.retire.state ≠ .formatRunning → w = st.code → e.stalled = false → e.openSeg = none → mine = false →
        p.mayTake st = true →
      exec (.whereIs a w) s = .next { s with part := answer (p.openSegment st) })
    ∧ (p.retire.state ≠ .formatRunning → w = st.code → e.stalled = false → e.openSeg = none → mine = false →
        p.mayTake st = false →
      exec (.whereIs a w) s = .next { s with part :=
        { p.refusedWith a .whereIs [w] .storeFull with
          store := { p.store with streams := p.store.streams.set st { e with stalled := true } }
          attention := p.attention ||| causeStoreFull } })

/-- R91: CLOCK SET with the route IDLE, and its admission from R68; the next scrub step is due one interval later (R188). R93: CLOCK
SET out of HALTED, with room in the queue: the outage since the restart mark is charged to the enabled compartments that hold a
LOADED consignment, and its OUTAGE record is prepared. -/
def Obligations.ClockSetSetsTheClockOrResumesTheRoute : Prop :=
  (∀ (a : Addr) (lo hi : Word) (s : State), s.Free → s.part.mode ≠ .foreign →
      let p := s.part
      let ps : List Word := [lo, hi, ~~~lo, ~~~hi, lo, hi]
      let v := hi.toNat * 65536 + lo.toNat
      let due : Option Nat := match p.route.held with
        | some h => if p.mode = .guarded ∨ p.mode = .service then some (v + h.scrubHours.toNat * 3600 / (p.store.nSeg - 1)) else none
        | none => none
      ((p.route.state = .loaded ∨ (p.route.state = .halted ∧ p.clock.valid = true)) →
        exec (.clockSet a lo hi (~~~lo) (~~~hi) lo hi) s = .next { s with part := p.refusedWith a .clockSet ps .routeState })
      ∧ ((p.route.state = .idle ∨ (p.route.state = .halted ∧ p.clock.valid = false)) → v < p.clock.floor →
        exec (.clockSet a lo hi (~~~lo) (~~~hi) lo hi) s = .next { s with part := p.refusedWith a .clockSet ps .badParameter })
      ∧ (p.route.state = .idle → p.clock.floor ≤ v →
        exec (.clockSet a lo hi (~~~lo) (~~~hi) lo hi) s = .next { s with part :=
          { p.answered a .clockSet ps [] with clock := { p.clock with now := v, valid := true }
                                              scrub := { p.scrub with due := due } } }))
  ∧ (∀ (a : Addr) (lo hi : Word) (mark : Nat) (s : State), s.FreeInStore → s.part.route.state = .halted →
      s.part.clock.valid = false → s.part.clock.mark = some mark → s.part.queue.length ≤ 11 →
      let p := s.part
      let v := hi.toNat * 65536 + lo.toNat
      let carries (c : Nat) (o : Option Consignment) : Bool :=
        match o with | some k => k.state == .loaded && k.comp == c | none => false
      let charged := (List.range 8).filter (fun c => (p.sheet.comp c).enabled == 1 && p.cons.any (carries c))
      let affected (o : Option Consignment) : Bool := charged.any (fun c => carries c o)
      p.clock.floor ≤ v →
      exec (.clockSet a lo hi (~~~lo) (~~~hi) lo hi) s = .next { s with part :=
        { p.answered a .clockSet [lo, hi, ~~~lo, ~~~hi, lo, hi] [] with
          clock := { p.clock with now := v, valid := true, mark := none }
          scrub := { p.scrub with due := p.scrubInterval.map (fun i => v + i) }
          route := { p.route with
            state := .loaded
            outageRecord := some (words32 mark ++ words32 v ++ words32 (v - mark)
              ++ [1, BitVec.ofNat 16 ((charged.map (fun c => 2 ^ c)).sum + 256 * min 255 (p.cons.filter affected).length)]) }
          ctxs := (List.range 8).map (fun c =>
            if (p.sheet.comp c).enabled = 1 then
              { Ctx.cold with
                thermal := .inSpec, doorOpen := p.anyContactOpen c, intervalStart := some v,
                gapExpiry := some (v + (p.classOfComp c).gap.toNat * 60),
                gapSecs := if charged.contains c then min (v - mark) 4294967295 else 0 }
            else Ctx.cold)
          cons := p.cons.map (fun o => o.map (fun k =>
            if affected (some k) then { k with flags := { k.flags with gapSeen := true } } else k))
          scan := { p.scan with
            run := .running, extended := p.sheet.isExtended, position := 0, rescan := none, audit := .none, owed := none,
            dwellTest := none,
            slots := p.scan.slots.map (fun x =>
              { x with agree := 0, openings := 0, openSecs := 0, dwellReported := false, watch := none,
                       changedAt := some v }) } } })

/-- R83 and the admission of ROUTE LOAD from R68: it stays RUNNING while the sheet is read; the arbiter may grant its first burst.
R83: each burst of the ROUTE LOAD read adds 16 words of the sheet, in order from word 16, to the working copy and its check value.
R84, its first check, and R55: a sheet disturbed during its read is refused with the failure's place, and nothing of it is
installed. -/
def Obligations.RouteLoadReadsTheSheet : Prop :=
  (∀ (a : Addr) (w : Word) (s : State), s.Free → s.part.mode = .guarded →
      let p := s.part
      let ps : List Word := [w, ~~~w, w]
      (p.route.state ≠ .idle →
        exec (.routeLoad a w (~~~w) w) s = .next { s with part := p.refusedWith a .routeLoad ps .routeState })
      ∧ (p.route.state = .idle → p.clock.valid = false →
        exec (.routeLoad a w (~~~w) w) s = .next { s with part := p.refusedWith a .routeLoad ps .clockInvalid })
      ∧ (p.route.state = .idle → p.clock.valid = true → p.route.closePending = true →
        exec (.routeLoad a w (~~~w) w) s = .next { s with part := p.refusedWith a .routeLoad ps .busy })
      ∧ (p.route.state = .idle → p.clock.valid = true → p.route.closePending = false →
        exec (.routeLoad a w (~~~w) w) s = .next { s with part :=
          { p.waitsFor a .routeLoad ps .routeLoad with
            route := { p.route with load := some { routeNumber := w, words := [], check := 0, disturbed := false } } }.grantPort }))
  ∧ ((∀ (l : LoadRead) (s : State), s.Quiet → s.part.arb.burst = some .sheetRead → s.part.route.load = some l →
        l.words.length + 16 < 2032 →
        let p := s.part
        let got := (List.range 16).map (fun i => s.mem.read (16 + l.words.length + i))
        exec .routeLoadReadBurst s = .next { s with part :=
          (Part.grantPort { p with
            arb := { p.arb with burst := none }
            route := { p.route with load := some { l with words := l.words ++ got, check := crcWords l.check got } } }) })
    ∧ (∀ (l : LoadRead) (c : CurrentCommand) (s : State), s.Quiet → s.part.arb.burst = some .sheetRead →
        s.part.route.load = some l → l.words.length = 2016 → l.disturbed = true →
        s.part.chan.current = some c → s.part.chan.running = some { work := .routeLoad, presented := true } →
        let p := s.part
        exec .routeLoadReadBurst s = .next { s with part :=
          (Part.grantPort { p with
            arb := { p.arb with burst := none }
            route := { p.route with load := none }
            chan := { p.chan with
              running := none
              current := some { c with state := .refused, outcome := .badParameter, results := [0, blank], readPos := 0 } } }) }))

/-- R84 and R85: a sheet that passes its checks, with room in the queue, is installed: the route is LOADED, its fields held,
ROUTE_START queued, the contexts of the enabled compartments IN_SPEC (R96) and the scanner RUNNING, or FROZEN when ROUTE_START
leaves fewer than five free entries (R127, R135). R188: only a change of the held scrub period hours moves the next scrub due time.
-/
def Obligations.ACheckedSheetIsInstalled : Prop :=
  ∀ (l : LoadRead) (c : CurrentCommand) (s : State), s.Quiet → s.part.arb.burst = some .sheetRead →
    s.part.route.load = some l → l.words.length = 2016 → l.disturbed = false → s.part.queue.length ≤ 11 →
    s.part.chan.current = some c → s.part.chan.running = some { work := .routeLoad, presented := true } →
    s.part.scan.run = .stopped →
    let p := s.part
    let got := (List.range 16).map (fun i => s.mem.read (2032 + i))
    let sheet := Sheet.ofWords (l.words ++ got)
    let check := crcWords l.check got
    let now := p.clock.now
    let enabled (k : Nat) : Bool := (sheet.comp k).enabled == 1
    sheet.failure l.routeNumber = none →
    exec .routeLoadReadBurst s = .next { s with part :=
      (Part.grantPort { p with
        arb := { p.arb with burst := none }
        route := { p.route with
          state := .loaded, sheet := some sheet, check := some check, start := some now, load := none
          held := some { retentionDays := sheet.retentionDays, scrubHours := sheet.scrubHours,
                         serviceWord := sheet.serviceWord } }
        scrub := { p.scrub with
          due := if p.route.held.map Held.scrubHours = some sheet.scrubHours then p.scrub.due
            else if p.mode = .guarded ∨ p.mode = .service then
              some (now + sheet.scrubHours.toNat * 3600 / (p.store.nSeg - 1)) else none }
        queue := p.queue ++ [{ stream := .event, kind := .routeStart, taken := none, body :=
          [sheet.routeNumber, sheet.scanMode,
            BitVec.ofNat 16 (((List.range 8).filter enabled).map (fun k => 2 ^ k)).sum] ++ dwords check }]
        ctxs := (List.range 8).map (fun k =>
          if enabled k then
            { Ctx.cold with
              thermal := .inSpec, intervalStart := some now, gapExpiry := some (now + (sheet.classOfComp k).gap.toNat * 60),
              doorOpen := (List.range 16).any (fun j => (sheet.comp k).contacts.getLsbD j && p.slotAccepted j) }
          else Ctx.cold)
        scan := { p.scan with
          run := if p.queue.length ≤ 10 then .running else .frozen, extended := sheet.scanMode == 1, position := 0, rescan := none, audit := .none, owed := none,
          dwellTest := none,
          slots := p.scan.slots.map (fun x =>
            { x with agree := 0, openings := 0, openSecs := 0, dwellReported := false, watch := none,
                     changedAt := some now }) }
        attention := if p.queue.length ≤ 10 then p.attention else p.attention ||| causeScanFrozen
        chan := { p.chan with
          running := none
          current := some { c with state := .done, outcome := .ok, results := [], readPos := 0 } } }) }

/-- R79, R80, R81 and R84, its checks 2 to 4: the first field out of its range, in the order of the sheet, is the failure. R84,
checks 2 to 5: a sheet that fails ends the ROUTE LOAD with BAD_PARAMETER and the failure's place, one that finds fewer than five
free entries with STORE_FULL, and nothing of it is installed. -/
def Obligations.TheSheetCheckNamesTheFirstFailure : Prop :=
  (∀ (number : Word) (s : Sheet),
      let off (lo hi : Nat) (w : Word) : Bool := decide (w.toNat < lo ∨ hi < w.toNat)
      let cold (w : Word) : Bool := decide (w.toInt < -600 ∨ 600 < w.toInt)
      let fail (part entry field : Nat) : SheetFailure := { part := part, entry := entry, field := some field }
      let route : List (Bool × SheetFailure) :=
        [(s.routeNumber != number || s.routeNumber == 0xFFFF, fail 1 0 0), (off 1 3650 s.retentionDays, fail 1 0 1),
          (off 1 168 s.scrubHours, fail 1 0 2), (off 0 3600 s.skew, fail 1 0 4), (off 0 1 s.scanMode, fail 1 0 5),
          ((List.range 8).all (fun c => (s.comp c).enabled != 1), { part := 2, entry := 0, field := none })]
      let comp (c : Nat) : List (Bool × SheetFailure) :=
        let e := s.comp c
        let on := e.enabled == 1
        let n := e.cls.toNat
        let k := s.cls n
        [(off 0 1 e.enabled, fail 3 c 0), (on && off 0 15 e.cls, fail 3 c 1), (on && off 1 4 e.probe, fail 3 c 2),
          (on && decide (255 < e.seals.toNat ∨ (s.scanMode ≠ 1 ∧ e.seals ≠ 0)), fail 3 c 4),
          (on && cold k.hold, fail 4 n 1),
          (on && (cold k.soft || decide (k.soft.toInt ≤ k.hold.toInt)), fail 4 n 2),
          (on && (cold k.melt || decide (k.melt.toInt ≤ k.soft.toInt)), fail 4 n 3),
          (on && k.budget == 0, fail 4 n 4), (on && off 1 1440 k.maxExcursion, fail 4 n 5), (on && off 10 3600 k.dwell, fail 4 n 6),
          (on && off 0 1 k.refreeze, fail 4 n 7), (on && off 1 120 k.gap, fail 4 n 8)]
      s.failure number = ((route ++ (List.range 8).flatMap comp).find? (fun x => x.1)).map (fun x => x.2))
  ∧ (∀ (l : LoadRead) (c : CurrentCommand) (f : SheetFailure) (s : State), s.Quiet → s.part.arb.burst = some .sheetRead →
      s.part.route.load = some l → l.words.length = 2016 → l.disturbed = false →
      s.part.chan.current = some c → s.part.chan.running = some { work := .routeLoad, presented := true } →
      let p := s.part
      let sheet := Sheet.ofWords (l.words ++ (List.range 16).map (fun i => s.mem.read (2032 + i)))
      let refused (o : CmdOutcome) (rs : List Word) : State := { s with part := (Part.grantPort { p with
        arb := { p.arb with burst := none }
        route := { p.route with load := none }
        chan := { p.chan with
          running := none
          current := some { c with state := .refused, outcome := o, results := rs, readPos := 0 } } }) }
      (sheet.failure l.routeNumber = some f →
        exec .routeLoadReadBurst s = .next (refused .badParameter
          [BitVec.ofNat 16 (f.entry % 256 + 256 * (f.part % 256)),
            (match f.field with | some o => BitVec.ofNat 16 o | none => blank)]))
      ∧ (sheet.failure l.routeNumber = none → 12 ≤ p.queue.length →
        exec .routeLoadReadBurst s = .next (refused .storeFull [])))

/-- R86, R95, R136 and R158: ROUTE END. Contexts and scanner stop, every entry is freed, and the ROUTE_END record joins the queue at
once when five entries are free, else waits. That GAP, its mark, DOOR_OPEN and the last valid sample of a context stay as they stand
is the model's choice (log 60). -/
def Obligations.RouteEndStopsTheRoute : Prop :=
  ∀ (a : Addr) (s : State), s.FreeInStore →
    let p := s.part
    let inState (st : ConsState) (o : Option Consignment) : Bool := match o with | some k => k.state == st | none => false
    let body : List Word := [p.sheet.routeNumber]
      ++ (match p.route.start with | some t => words32 t | none => [blank, blank])
      ++ [BitVec.ofNat 16 (p.cons.filter (inState .done)).length, BitVec.ofNat 16 (p.cons.filter (inState .returned)).length]
    let room := p.queue.length ≤ 11
    ((p.route.state ≠ .loaded ∨ p.cons.any (inState .loaded) = true) →
      exec (.routeEnd a) s = .next { s with part := p.refusedWith a .routeEnd [] .routeState })
    ∧ (p.route.state = .loaded → p.cons.any (inState .loaded) = false →
      exec (.routeEnd a) s = .next { s with part :=
        { p.answered a .routeEnd [] [] with
          route := { p.route with state := .idle, closePending := true, endRecord := if room then none else some body }
          queue := if room then p.queue ++ [{ stream := .event, kind := .routeEnd, body := body, taken := none }] else p.queue
          ctxs := p.ctxs.map (fun x =>
            { x with thermal := .idle, intervalStart := none, episodeStart := none, episodePeak := none, gapExpiry := none,
                     summaryOwed := false })
          scan := { p.scan with
            run := .stopped, rescan := none, audit := .none, owed := none, dwellTest := none,
            slots := p.scan.slots.map (fun x => { x with agree := 0, watch := none }) }
          cons := List.replicate 32 none } })

/-- R69, R131 and R132: RESCAN and AUDIT ask for their visits and change nothing else. -/
def Obligations.RescanAndAuditAskForVisits : Prop :=
  ∀ (a : Addr) (w : Word) (s : State), s.FreeInStore →
    let p := s.part
    let limit := if p.scan.extended then 24 else 16
    (p.route.state ≠ .loaded →
      exec (.rescan a w) s = .next { s with part := p.refusedWith a .rescan [w] .routeState }
      ∧ exec (.audit a) s = .next { s with part := p.refusedWith a .audit [] .routeState })
    ∧ (p.route.state = .loaded → limit ≤ w.toNat →
      exec (.rescan a w) s = .next { s with part := p.refusedWith a .rescan [w] .badParameter })
    ∧ (p.route.state = .loaded → w.toNat < limit → p.scan.rescan ≠ none →
      exec (.rescan a w) s = .next { s with part := p.refusedWith a .rescan [w] .busy })
    ∧ (p.route.state = .loaded → w.toNat < limit → p.scan.rescan = none →
      exec (.rescan a w) s = .next { s with part :=
        { p.answered a .rescan [w] [] with scan := { p.scan with rescan := some w.toNat } } })
    ∧ (p.route.state = .loaded → p.scan.audit ≠ .none →
      exec (.audit a) s = .next { s with part := p.refusedWith a .audit [] .busy })
    ∧ (p.route.state = .loaded → p.scan.audit = .none →
      exec (.audit a) s = .next { s with part :=
        { p.answered a .audit [] [] with scan := { p.scan with audit := .waiting } } })

/-- R163 and the admission of CLAIM OPEN from R70: the lowest free entry is QUEUED; what follows when the queue changes is
SlotChangesStartWhatWaits. R177 and the admission of CLAIM CLOSE from R70. A claim's holds are released and its entry freed; a
VERIFY of it in the slot ends first, at the end of a burst of its own that is in progress. -/
def Obligations.ClaimsAreOpenedAndClosed : Prop :=
  (∀ (a : Addr) (lo hi : Word) (i : Nat) (c : Claim) (s : State), s.FreeInStore →
      let p := s.part
      let id : DWord := BitVec.ofNat 32 (hi.toNat * 65536 + lo.toNat)
      let used (c : Claim) : Bool := c.state != .closed
      let named := p.claims.any (fun c => used c && c.id == some id)
      (id = 0 → exec (.claimOpen a lo hi) s = .next { s with part := p.refusedWith a .claimOpen [lo, hi] .badParameter })
      ∧ (id ≠ 0 → named = true →
        exec (.claimOpen a lo hi) s = .next { s with part := p.refusedWith a .claimOpen [lo, hi] .already })
      ∧ (id ≠ 0 → named = false → p.claims.length = 8 → p.claims.all used = true →
        exec (.claimOpen a lo hi) s = .next { s with part := p.refusedWith a .claimOpen [lo, hi] .tableFull })
      ∧ (id ≠ 0 → named = false → i < 8 → p.claims[i]? = some c → used c = false →
          (p.claims.take i).all used = true →
        exec (.claimOpen a lo hi) s = .next { s with part :=
          (Part.slotsChanged false
            { p.answered a .claimOpen [lo, hi] [BitVec.ofNat 16 i] with
              claimQueue := p.claimQueue ++ [i]
              claims := p.claims.set i { Claim.free with state := .queued, id := some id } }).grantPort }))
  ∧ (∀ (a : Addr) (w : Word) (c : Claim) (s : State), s.FreeInStore →
      let p := s.part
      let i := w.toNat
      let mine := match p.verify with | some v => v.claim == i | none => false
      let released (n : Nat) (e : SegEntry) : SegEntry := { e with holds := e.holds - c.held.count (n + 1) }
      let freed (q : Part) : Part :=
        { q with store := { q.store with segs := q.store.segs.mapIdx released }, claims := q.claims.set i Claim.free }
      ((8 ≤ i ∨ (p.claims[i]? = some c ∧ c.state = .closed)) →
        exec (.claimClose a w) s = .next { s with part := p.refusedWith a .claimClose [w] .badParameter })
      ∧ (i < 8 → p.claims[i]? = some c → c.state ≠ .closed → mine = false →
        exec (.claimClose a w) s = .next { s with part :=
          { freed (p.answered a .claimClose [w] []) with claimQueue := p.claimQueue.filter (fun j => j != i) } })
      ∧ (i < 8 → p.claims[i]? = some c → c.state ≠ .closed → mine = true → p.verifyRunning = true → p.arb.burst = some .longOperation →
        exec (.claimClose a w) s = .next { s with part := p.waitsFor a .claimClose [w] (.claimClose i) })
      ∧ (i < 8 → p.claims[i]? = some c → c.state ≠ .closed → mine = true →
          (p.verifyRunning = false ∨ p.arb.burst ≠ some .longOperation) →
        exec (.claimClose a w) s = .next { s with part :=
          (Part.slotsChanged p.verifyRunning
            { freed (p.answered a .claimClose [w] []) with
              verify := none, attention := p.attention ||| causeOpDone }).grantPort }))

/-- R176: CLAIM READ, with its admission from R70. -/
def Obligations.ClaimReadReturnsTheFindings : Prop :=
  ∀ (a : Addr) (w : Word) (s : State) (c : Claim), s.Free → (s.part.mode = .guarded ∨ s.part.mode = .service) →
    let findings : List Word :=
      ([3] : List Word)
        ++ (match c.id with | some v => words32 v.toNat | none => [blank, blank])
        ++ [match c.comp with | some n => BitVec.ofNat 16 n | none => blank]
        ++ (match c.windowStart with | some t => words32 t | none => [blank, blank])
        ++ (match c.windowEnd with | some t => words32 t | none => [blank, blank])
        ++ [match c.integrity with | some g => g.code | none => blank,
            (if c.retiredRange then 1 else 0) ||| (if c.listTruncated then 2 else 0) ||| (if c.proofsOver then 4 else 0)
              ||| (if c.laterFault then 8 else 0)]
        ++ (match c.mismatch with
            | some m => [m.stream.code, BitVec.ofNat 16 m.seg, BitVec.ofNat 16 m.slot]
                ++ (match m.seq with | some q => words32 q.toNat | none => [blank, blank])
            | none => [blank, blank, blank, blank, blank])
        ++ [BitVec.ofNat 16 (c.proofs.getD 0), BitVec.ofNat 16 (c.samples.getD 0), BitVec.ofNat 16 (c.gapMinutes.getD 0),
            BitVec.ofNat 16 c.held.length]
    ((8 ≤ w.toNat ∨ (s.part.claims[w.toNat]? = some c ∧ c.state = .closed)) →
      exec (.claimRead a w) s = .next { s with part := s.part.refusedWith a .claimRead [w] .badParameter })
    ∧ (w.toNat < 8 → s.part.claims[w.toNat]? = some c → c.state = .queued →
      exec (.claimRead a w) s = .next { s with part := s.part.answered a .claimRead [w] [1] })
    ∧ (w.toNat < 8 → s.part.claims[w.toNat]? = some c → c.state = .verifying →
      exec (.claimRead a w) s = .next { s with part := s.part.answered a .claimRead [w] [2] })
    ∧ (w.toNat < 8 → s.part.claims[w.toNat]? = some c → c.state = .ready →
      exec (.claimRead a w) s = .next { s with part := s.part.answered a .claimRead [w] findings })

/-- R74, R75 and R194: SUSPEND holds the running blanking or VERIFY with its progress, at the end of a burst in progress; RESUME
continues it. A suspended VERIFY in its LOCATE phase first tests its segment again (R166). -/
def Obligations.SuspendAndResumeHoldTheOperation : Prop :=
  (∀ (a : Addr) (v : Verify) (s : State), s.FreeInStore →
      let p := s.part
      let done := p.answered a .suspend [] []
      (p.retire.state = .formatRunning →
        exec (.suspend a) s = .next { s with part := p.refusedWith a .suspend [] .busy })
      ∧ (p.longRunning = false →
        exec (.suspend a) s = .next { s with part := p.refusedWith a .suspend [] .noOperation })
      ∧ (p.longRunning = true → p.retire.state ≠ .formatRunning → p.arb.burst = some .longOperation →
        exec (.suspend a) s = .next { s with part := p.waitsFor a .suspend [] .suspend })
      ∧ (p.retire.state = .blanking → p.arb.burst ≠ some .longOperation →
        exec (.suspend a) s = .next { s with part :=
          (Part.slotsChanged true { done with retire := { p.retire with state := .suspended } }).grantPort })
      ∧ (p.retire.state ≠ .blanking → p.retire.state ≠ .formatRunning → p.verify = some v → v.suspended = false →
          p.arb.burst ≠ some .longOperation →
        exec (.suspend a) s = .next { s with part :=
          (Part.slotsChanged true { done with verify := some { v with suspended := true } }).grantPort }))
  ∧ (∀ (a : Addr) (v : Verify) (s : State), s.FreeInStore →
      let p := s.part
      let done := p.answered a .resume [] []
      let suspendedVerify := match p.verify with | some w => w.suspended | none => false
      (p.retire.state ≠ .suspended → suspendedVerify = false →
        exec (.resume a) s = .next { s with part := p.refusedWith a .resume [] .noOperation })
      ∧ (p.retire.state = .suspended → p.verifyRunning = true →
        exec (.resume a) s = .next { s with part := p.refusedWith a .resume [] .busy })
      ∧ ((p.retire.state = .blanking ∨ p.retire.state = .formatRunning) → suspendedVerify = true →
        exec (.resume a) s = .next { s with part := p.refusedWith a .resume [] .busy })
      ∧ (p.retire.state = .suspended → p.verifyRunning = false →
        exec (.resume a) s = .next { s with part :=
          (Part.slotsChanged false { done with retire := { p.retire with state := .blanking } }).grantPort })
      ∧ (p.retire.state ≠ .suspended → p.retire.state ≠ .blanking → p.retire.state ≠ .formatRunning → p.verify = some v →
          v.suspended = true →
          (v.phase ≠ .locate ∨ v.count = 0 ∨ p.streamSeg .delivery v.locate.number = some v.locate.seg) →
          (v.phase ≠ .check ∨ v.todo ≠ []) →
        exec (.resume a) s = .next { s with part :=
          (Part.slotsChanged false { done with verify := some { v with suspended := false } }).grantPort })
      ∧ (p.retire.state ≠ .suspended → p.retire.state ≠ .blanking → p.retire.state ≠ .formatRunning → p.verify = some v →
          v.suspended = true → v.phase = .check → v.todo = [] →
        exec (.resume a) s = .next { s with part :=
          (Part.slotsChanged false (Part.passCheck { done with verify := some { v with suspended := false } })).grantPort }))

/-- R60, R76, R78, R175, R185 and R196: TERMINATE. A blanking ends with its segment SCRAP, a VERIFY with integrity ABORTED, its
claim READY with the findings gathered so far, a FORMAT without a store, without claims and without a route (the end of a LOADED
route is the model's choice, log 37, its contexts as at ROUTE END, log 60); OP_DONE is raised. The gap minutes so far count the
GAP_STARTs met without an end (log 24). A VERIFY that runs beside a batch that is WAITING, COLLECTING or SUSPENDED is ended as R76
says, although R185 has such a TERMINATE refused (the model's choice, log 65). -/
def Obligations.TerminateEndsTheRunningOperation : Prop :=
  ∀ (a : Addr) (v : Verify) (b : Batch) (n : Nat) (f : FormatOp) (s : State), s.FreeInStore →
    let p := s.part
    let done := p.answered a .terminate [] []
    let idle : RetireSlot := { state := .empty, batch := none, fmt := none }
    let onRoad := p.route.state = .loaded
    let x := v.collect
    (p.longRunning = false →
      exec (.terminate a) s = .next { s with part := p.refusedWith a .terminate [] .noOperation })
    ∧ (p.longRunning = true → p.arb.burst = some .longOperation →
      exec (.terminate a) s = .next { s with part := p.waitsFor a .terminate [] .terminate })
    ∧ (p.retire.state = .formatRunning → p.retire.fmt = some f → f.stage = .label → p.arb.burst ≠ some .longOperation →
      exec (.terminate a) s = .next { s with part := (p.waitsFor a .terminate [] .terminate).grantPort })
    ∧ (p.retire.state = .blanking → p.retire.batch = some b → b.current = some (n + 1) → p.arb.burst ≠ some .longOperation →
      exec (.terminate a) s = .next { s with part :=
        (Part.slotsChanged true
          { done with
            retire := { idle with fmt := p.retire.fmt }
            attention := p.attention ||| causeOpDone
            store := { p.store with
              segs := p.store.segs.modify n (fun e => { e with state := .scrap, holds := 0, owed := .none }) } }).grantPort })
    ∧ (p.retire.state = .blanking → p.retire.batch = some b → b.current = none → p.arb.burst ≠ some .longOperation →
      exec (.terminate a) s = .next { s with part :=
        (Part.slotsChanged true
          { done with retire := { idle with fmt := p.retire.fmt }, attention := p.attention ||| causeOpDone }).grantPort })
    ∧ (p.retire.state = .formatRunning → p.retire.fmt = some f → f.stage ≠ .label → p.arb.burst ≠ some .longOperation →
      exec (.terminate a) s = .next { s with part :=
        (Part.slotsChanged true
          { done with
            mode := .unformatted, store := .absent, claims := List.replicate 8 Claim.free, claimQueue := [], retire := idle
            scrub := { p.scrub with due := none }, attention := p.attention ||| causeOpDone
            route := { p.route with load := none, state := if onRoad then .idle else p.route.state }
            ctxs := if onRoad then p.ctxs.map (fun x =>
                { x with thermal := .idle, intervalStart := none, episodeStart := none, episodePeak := none,
                         gapExpiry := none, summaryOwed := false })
              else p.ctxs
            scan := if onRoad then { p.scan with
                run := .stopped, rescan := none, audit := .none, owed := none, dwellTest := none
                slots := p.scan.slots.map (fun x => { x with agree := 0, watch := none }) }
              else p.scan
            cons := if onRoad then List.replicate 32 none else p.cons }).grantPort })
    ∧ (p.retire.state ≠ .blanking → p.retire.state ≠ .formatRunning → p.verify = some v → v.suspended = false →
        p.arb.burst ≠ some .longOperation →
      exec (.terminate a) s = .next { s with part :=
        (Part.slotsChanged true
          { done with
            verify := none, attention := p.attention ||| causeClaimReady ||| causeOpDone
            claims := p.claims.modify v.claim (fun c =>
              if v.phase = .collect then { c with
                state := .ready, integrity := some .aborted, samples := some x.samples, proofs := some x.proofs.length
                proofsOver := x.more
                gapMinutes := some (min 65535
                  ((x.gapSecs + x.openSecs (c.windowStart.getD 0) (c.windowEnd.getD 0)) / 60)) }
              else { c with state := .ready, integrity := some .aborted }) }).grantPort })

/-- R74, R76 and R177: a SUSPEND, TERMINATE or CLAIM CLOSE that waits takes effect at the end of the burst and is then DONE: a
blanking is held with its position or ends with its segment SCRAP, a FORMAT whose label burst this was ends in UNFORMATTED (R196), a
VERIFY is held, ABORTED or closed with its claim's holds released. R165: a VERIFY suspended at the end of the LOCATE phase's last
burst, which found the consignment, stands in CHECK with count 0, whether or not a segment is held. With the operation itself ended
in that burst, SUSPEND and TERMINATE do no more (the model's reading, log 20). -/
def Obligations.WaitingCommandsActAtTheEndOfTheBurst : Prop :=
  ∀ (shown : Bool) (c : CurrentCommand) (b : Batch) (f : FormatOp) (v : Verify) (k : Claim) (e : SegEntry) (st : Stream) (n w : Nat)
    (s : State), s.Quiet → s.part.arb.burst = some .longOperation → s.part.chan.current = some c → 1 ≤ n →
    let p := s.part
    let cut := List.replicate 16 (0xFFFF : Word)
    let runs (work : RunningWork) : Prop := p.chan.running = some { work := work, presented := shown }
    let free : Part := { p with
      arb := { p.arb with burst := none }
      chan := { p.chan with
        running := none
        current := some (if shown then { c with state := .done, outcome := .ok, results := [], readPos := 0 } else c) } }
    let blanks := p.retire.state = .blanking ∧ p.retire.batch = some b ∧ b.current = some n ∧ b.pos = .word w ∧ 16 ≤ w
    let blanked (q : Part) : State := { s with mem := s.mem.writeWords (n * 16384 + (w - 15)) cut, part := q.grantPort }
    let read := (List.range 16).map (fun i => s.mem.read (v.check.seg * 16384 + 16 * v.check.slot + i))
    let chain : DWord := BitVec.ofNat 32 ((read.getD 15 0).toNat * 65536 + (read.getD 14 0).toNat)
    let agrees : Bool := (match Kind.ofHeader (read.getD 0 0) with | some kd => st.carries kd | none => false)
      && recordChain v.check.chain read == chain
    let checks := p.verify = some v ∧ v.suspended = false ∧ v.phase = .check ∧ 1 ≤ v.check.seg
      ∧ p.retire.state ≠ .blanking ∧ p.retire.state ≠ .formatRunning
      ∧ p.store.segs[v.check.seg - 1]? = some e ∧ e.stream = some st ∧ 0 < v.check.slot
      ∧ v.check.limit = some (v.check.slot + 1) ∧ agrees = true ∧ p.claims[v.claim]? = some k
    let moved : Verify := { v with check := { v.check with slot := v.check.slot + 1, chain := chain } }
    (blanks → runs .suspend →
      exec .blankingBurst s = .next (blanked (Part.slotsChanged true { free with
        retire := { p.retire with state := .suspended, batch := some { b with pos := .word (w - 16) } } })))
    ∧ (blanks → runs .terminate →
      exec .blankingBurst s = .next (blanked (Part.slotsChanged true { free with
        retire := { p.retire with state := .empty, batch := none }
        attention := p.attention ||| causeOpDone
        store := { p.store with
          segs := p.store.segs.modify (n - 1) (fun e => { e with state := .scrap, holds := 0, owed := .none }) } })))
    ∧ (p.retire.state = .formatRunning → p.retire.fmt = some f → f.stage = .label → p.route.state ≠ .loaded → runs .terminate →
      exec .formatBurst s = .next { s with
        mem := s.mem.writeWords 0 cut
        part := (Part.slotsChanged true { free with
          mode := .unformatted, store := .absent, claims := List.replicate 8 Claim.free, claimQueue := []
          retire := { state := .empty, batch := none, fmt := none }
          route := { p.route with load := none }
          scrub := { p.scrub with due := none }, attention := p.attention ||| causeOpDone }).grantPort })
    ∧ (checks → runs .suspend →
      exec .verifyBurst s = .next { s with part :=
        (Part.slotsChanged true { free with verify := some { moved with suspended := true } }).grantPort })
    ∧ (checks → runs .terminate →
      exec .verifyBurst s = .next { s with part := (Part.slotsChanged true { free with
        verify := none, attention := p.attention ||| causeClaimReady ||| causeOpDone
        claims := p.claims.set v.claim { k with state := .ready, integrity := some .aborted } }).grantPort })
    ∧ (checks → runs (.claimClose v.claim) →
      exec .verifyBurst s = .next { s with part := (Part.slotsChanged true { free with
        verify := none, attention := p.attention ||| causeOpDone
        store := { p.store with
          segs := p.store.segs.mapIdx (fun j g => { g with holds := g.holds - k.held.count (j + 1) }) }
        claims := p.claims.set v.claim Claim.free }).grantPort })
    ∧ (p.verify = some v → v.suspended = false → v.phase = .locate → v.locate.slot = some w → p.retire.state ≠ .blanking →
        p.retire.state ≠ .formatRunning → runs .suspend →
        isAcceptedLoad ((p.claim v.claim).id.getD 0) (s.mem.slot v.locate.seg w) = true →
      ∃ t u, exec .verifyBurst s = .next t ∧ t.part.verify = some u ∧ u.suspended = true ∧ u.phase = .check ∧ u.count = 0
        ∧ t.part.chan = free.chan)
    ∧ (∀ q : Part, (q.chan.running = some { work := .suspend, presented := shown }
          ∨ q.chan.running = some { work := .terminate, presented := shown }) →
        q.chan.current = some c →
      q.afterLongBurst true = { q with chan := { q.chan with
        running := none
        current := some (if shown then { c with state := .done, outcome := .ok, results := [], readPos := 0 } else c) } })

/-- R64 and R88: SERVICE ENTER, in its order of tests. With held route fields it is decided at once; with none, the read of the route
fields begins, and at its end DOCK and the service word are tested; fields in their ranges are then held. R61, R62 and R181: SERVICE
LEAVE and the fall of DOCK. The mode becomes GUARDED and a COLLECTING batch is discarded. That SERVICE is entered and left in this way
also while a FORMAT runs is the model's choice (log 59). R188: the next scrub due time moves when the scrub period hours change. -/
def Obligations.ServiceIsEnteredAndLeft : Prop :=
  ((∀ (a : Addr) (w : Word) (dock : Bool) (h : Held) (s : State), s.FreeInStore →
        let p := s.part.setDock dock
        let ps : List Word := [w, ~~~w, w]
        let refused (o : CmdOutcome) : State := { s with part := p.refusedWith a .serviceEnter ps o }
        (p.mode = .service → exec (.serviceEnter a w (~~~w) w dock) s = .next (refused .already))
        ∧ (p.mode = .guarded → dock = false → exec (.serviceEnter a w (~~~w) w dock) s = .next (refused .notDocked))
        ∧ (p.mode = .guarded → dock = true → p.route.state ≠ .idle →
          exec (.serviceEnter a w (~~~w) w dock) s = .next (refused .routeState))
        ∧ (p.mode = .guarded → dock = true → p.route.state = .idle → p.route.held = some h → w ≠ h.serviceWord →
          exec (.serviceEnter a w (~~~w) w dock) s = .next { s with part :=
            { p with
              chan := { p.presents a .serviceEnter ps .refused .protectMismatch [] with
                        protectErrors := min 255 (p.chan.protectErrors + 1) }
              attention := p.attention ||| causeProtectError } })
        ∧ (p.mode = .guarded → dock = true → p.route.state = .idle → p.route.held = some h → w = h.serviceWord →
          exec (.serviceEnter a w (~~~w) w dock) s = .next { s with part :=
            { p.answered a .serviceEnter ps [] with mode := .service } })
        ∧ (p.mode = .guarded → dock = true → p.route.state = .idle → p.route.held = none →
          exec (.serviceEnter a w (~~~w) w dock) s = .next { s with part :=
            (p.waitsFor a .serviceEnter ps (.serviceEnter w)).grantPort }))
    ∧ (∀ (value : Word) (dock : Bool) (c : CurrentCommand) (s : State), s.Quiet → s.part.arb.burst = some .fieldRead →
        s.part.chan.current = some c → s.part.chan.running = some { work := .serviceEnter value, presented := true } →
        let p := s.part
        let days := s.mem.read 17
        let hours := s.mem.read 18
        let word := s.mem.read 19
        let fits := 1 ≤ days.toNat ∧ days.toNat ≤ 3650 ∧ 1 ≤ hours.toNat ∧ hours.toNat ≤ 168
        let ended (st : CmdState) (o : CmdOutcome) : Channel :=
          { p.chan with running := none, current := some { c with state := st, outcome := o, results := [], readPos := 0 } }
        let after : Part := { p with arb := { p.arb with burst := none }, pins := { p.pins with dock := dock } }
        (dock = false → exec (.serviceEnterReadEnd dock) s = .next { s with part :=
          (Part.grantPort { after with chan := ended .refused .notDocked }) })
        ∧ (dock = true → value ≠ word → exec (.serviceEnterReadEnd dock) s = .next { s with part :=
          (Part.grantPort { after with
            chan := { ended .refused .protectMismatch with protectErrors := min 255 (p.chan.protectErrors + 1) }
            attention := p.attention ||| causeProtectError }) })
        ∧ (dock = true → value = word → ¬fits → exec (.serviceEnterReadEnd dock) s = .next { s with part :=
          (Part.grantPort { after with mode := .service, chan := ended .done .ok }) })
        ∧ (dock = true → value = word → fits → exec (.serviceEnterReadEnd dock) s = .next { s with part :=
          (Part.grantPort { after with
            mode := .service, chan := ended .done .ok
            route := { p.route with held := some { retentionDays := days, scrubHours := hours, serviceWord := word } }
            scrub := { p.scrub with
              due := if p.route.held.map Held.scrubHours = some hours then p.scrub.due
                else some (p.clock.now + hours.toNat * 3600 / (p.store.nSeg - 1)) } }) })))
  ∧ ((∀ (a : Addr) (s : State), s.FreeInStore →
        let p := s.part
        (p.mode = .guarded → exec (.serviceLeave a) s = .next { s with part := p.refusedWith a .serviceLeave [] .already })
        ∧ (p.mode = .service →
          exec (.serviceLeave a) s = .next { s with part :=
            (Part.slotsChanged false
              { p.answered a .serviceLeave [] [] with
                mode := .guarded
                retire := if p.retire.state = .collecting then { p.retire with state := .empty, batch := none }
                  else p.retire }).grantPort }))
    ∧ (∀ s : State, s.Quiet →
        let p := s.part
        (p.mode ≠ .service → exec .dockFall s = .next { s with part := (p.setDock false).grantPort })
        ∧ (p.mode = .service → exec .dockFall s = .next { s with part := (Part.slotsChanged false { p with
            pins := { p.pins with dock := false }
            mode := .guarded
            retire := if p.retire.state = .collecting then { p.retire with state := .empty, batch := none }
              else p.retire }).grantPort })))

/-- R71 and R180: RETIRE. A retirable, unheld segment joins the batch, whose collection window restarts. R71 and R193: FORMAT, and
what it gives up at its start; a waiting OUTAGE record it keeps (the model's choice, log 61). Its start is shown with a
scanner that is not FROZEN. -/
def Obligations.RetireAndFormatAreAdmitted : Prop :=
  (∀ (a : Addr) (w : Word) (e : SegEntry) (h : Held) (t : Nat) (b : Batch) (s : State), s.Free → s.part.mode = .service →
      let p := s.part
      let n := w.toNat
      let refused (o : CmdOutcome) : State := { s with part := p.refusedWith a .retire [w] o }
      let collects := p.retire.state = .empty ∨ p.retire.state = .collecting
      let retirable := e.state = .faulted ∨ e.state = .scrap
        ∨ (e.state = .closed ∧ p.route.held = some h ∧ e.closeTime = some t ∧ p.clock.valid = true
            ∧ t + h.retentionDays.toNat * 86400 ≤ p.clock.now)
      let listed : List Nat := match p.retire.batch with | some b => b.segs | none => []
      let row (i : Nat) : Option SegEntry := if n = 0 then none else p.store.segs[i - 1]?
      (row n = none → exec (.retire a w) s = .next (refused .badParameter))
      ∧ (row n = some e → ¬collects → exec (.retire a w) s = .next (refused .busy))
      ∧ (row n = some e → collects → (e.state = .blank ∨ e.state = .opened ∨ e.state = .retiring
            ∨ (e.state = .closed ∧ (p.route.held = none ∨ p.clock.valid = false
                ∨ (p.route.held = some h ∧ e.closeTime = some t ∧ p.clock.now < t + h.retentionDays.toNat * 86400)))) →
        exec (.retire a w) s = .next (refused .notRetirable))
      ∧ (row n = some e → collects → retirable → e.holds ≠ 0 → exec (.retire a w) s = .next (refused .held))
      ∧ (row n = some e → collects → retirable → e.holds = 0 → n ∈ listed →
        exec (.retire a w) s = .next (refused .already))
      ∧ (row n = some e → collects → retirable → e.holds = 0 → n ∉ listed → 32 ≤ listed.length →
        exec (.retire a w) s = .next (refused .batchFull))
      ∧ (row n = some e → p.retire.state = .empty → p.retire.batch = none → retirable → e.holds = 0 →
        exec (.retire a w) s = .next { s with part :=
          { p.answered a .retire [w] [] with
            retire := { p.retire with
              state := .collecting
              batch := some { segs := [n], current := none, pos := .rewrite, completed := 0, window := true } } } })
      ∧ (row n = some e → p.retire.state = .collecting → p.retire.batch = some b → retirable → e.holds = 0 → n ∉ b.segs →
          b.segs.length < 32 →
        exec (.retire a w) s = .next { s with part :=
          { p.answered a .retire [w] [] with
            retire := { p.retire with batch := some { b with segs := b.segs ++ [n], window := true } } } }))
  ∧ (∀ (a : Addr) (w : Word) (dock : Bool) (s : State), s.Free → (s.part.mode = .unformatted ∨ s.part.mode = .service) →
      let p := s.part.setDock dock
      let ps : List Word := [w, ~~~w, w]
      let refused (o : CmdOutcome) : State := { s with part := p.refusedWith a .format ps o }
      let sized := 1 ≤ w.toNat ∧ w.toNat ≤ 3
      let free := ∀ c ∈ p.claims, c.state = .closed
      (dock = false → exec (.format a w (~~~w) w dock) s = .next (refused .notDocked))
      ∧ (dock = true → ¬sized → exec (.format a w (~~~w) w dock) s = .next (refused .badParameter))
      ∧ (dock = true → sized → p.route.state ≠ .idle → exec (.format a w (~~~w) w dock) s = .next (refused .routeState))
      ∧ (dock = true → sized → p.route.state = .idle → ¬free → exec (.format a w (~~~w) w dock) s = .next (refused .held))
      ∧ (dock = true → sized → p.route.state = .idle → free → p.retire.state ≠ .empty →
        exec (.format a w (~~~w) w dock) s = .next (refused .busy))
      ∧ (dock = true → sized → p.route.state = .idle → free → p.retire.state = .empty → p.scan.run ≠ .frozen →
        exec (.format a w (~~~w) w dock) s = .next { s with part := (Part.grantPort
          { p.answered a .format ps [] with
            store := { p.store with direct := [], segs := p.store.segs.map (fun e => { e with owed := .none }) }
            queue := []
            backup := { p.backup with outage := none, restart := none }
            asm := none
            route := { p.route with closePending := false, closeWait := none, endRecord := none }
            scrub := { p.scrub with step := none }
            retire := { state := .formatRunning, batch := none, fmt := some { code := w.toNat, stage := .label } } }) }))

/-! ## Exposure, consignments and the scanner (chapters 5 to 7) -/

/-- R107: the gap timer of a compartment expires: GAP is set at the expiry, GAP_START queued or withheld, `gap_seen` set on the LOADED
consignments there, EXPOSURE_CHANGE raised. R108: a continuous-excursion deadline breaches its LOADED consignment, with one CONTINUOUS
alert. A timer that is not due changes nothing (log 1). -/
def Obligations.TimersExpire : Prop :=
  (∀ (c e : Nat) (x : Ctx) (s : State), s.part.running = true → c < 8 → s.part.ctxs[c]? = some x →
      let p := s.part
      let marked : Part := { p with
        ctxs := p.ctxs.set c { x with gap := true, gapMark := some e, gapExpiry := none }
        attention := p.attention ||| causeExposureChange
        cons := p.cons.map (fun o => o.map (fun k =>
          if k.state = .loaded ∧ k.comp = c then { k with flags := { k.flags with gapSeen := true } } else k)) }
      let body : List Word := [BitVec.ofNat 16 c]
        ++ (match x.lastTime with | some t => words32 t | none => [blank, blank]) ++ words32 e
        ++ [BitVec.ofNat 16 x.invalid, BitVec.ofNat 16 x.skewed]
      (x.thermal ≠ .idle → x.gap = false → x.gapExpiry = some e → e ≤ p.clock.now →
        exec (.gapTimerExpiry c) s = .next { s with part := marked.recorded c .gapStart body })
      ∧ ((x.thermal = .idle ∨ x.gap = true ∨ x.gapExpiry = none ∨ (x.gapExpiry = some e ∧ p.clock.now < e)) →
        exec (.gapTimerExpiry c) s = .next s))
  ∧ (∀ (i start : Nat) (k : Consignment) (x : Ctx) (s : State), s.part.running = true →
      s.part.cons[i]? = some (some k) → s.part.ctxs[k.comp]? = some x →
      let p := s.part
      let deadline := max start k.loadTime + (p.classOfComp k.comp).maxExcursion.toNat * 60
      let hit : Part := { p with
        cons := p.cons.set i (some { k with flags := { k.flags with breached := true } })
        attention := p.attention ||| causeConsignmentAlert }
      (k.state = .loaded → k.flags.breached = false → x.thermal = .excursion → x.episodeStart = some start →
          deadline ≤ p.clock.now →
        exec (.continuousExcursionDeadline i) s = .next { s with part := (hit.recorded k.comp .alert
          (dwords k.id ++ [BitVec.ofNat 16 k.comp, 0x0802, blank,
            BitVec.ofNat 16 (min 65535 ((x.excess - k.base.excess) / 60)), BitVec.ofNat 16 x.withheld])) })
      ∧ ((k.state ≠ .loaded ∨ k.flags.breached = true ∨ x.thermal ≠ .excursion ∨ x.episodeStart = none
          ∨ (x.episodeStart = some start ∧ p.clock.now < deadline)) →
        exec (.continuousExcursionDeadline i) s = .next s))

/-- R100: the interval of a valid sample, charged at the rate of the last valid reading up to the gap limit, and as gap beyond it; it
leaves the door-attributed excess no larger than the excess. R101: the thermal state at a valid sample with reading `r` and receipt
time `t`. The records of an episode join the queue, or are withheld, as Part.recorded says (R111, R112). R151: the four figures of
an entry. -/
def Obligations.IntervalsThermalStateAndFigures : Prop :=
  ((∀ (k : ClassEntry) (start t : Nat) (x : Ctx), x.intervalStart = some start →
        let dt := t - start
        let cap := k.gap.toNat * 60
        let counted := min dt cap
        let rate : Nat := match x.lastReading with | some r => (r - k.hold.toInt).toNat | none => 0
        let door := min x.doorSecs counted
        let above : Bool := match x.lastReading with | some r => decide (k.hold.toInt < r) | none => false
        x.account k t = { x with
          excess := min 4294967295 (x.excess + rate * counted)
          doorExcess := min 4294967295 (x.doorExcess + rate * door)
          excursionSecs := if above then min 4294967295 (x.excursionSecs + counted) else x.excursionSecs
          gapSecs := min 4294967295 (x.gapSecs + (dt - cap)) })
    ∧ (∀ (k : ClassEntry) (t : Nat) (x : Ctx), x.doorExcess ≤ x.excess → (x.account k t).doorExcess ≤ (x.account k t).excess))
  ∧ (∀ (c t : Nat) (r : Int) (unit : Word) (x : Ctx) (p : Part), p.ctxs[c]? = some x →
      let hold := (p.classOfComp c).hold
      let cls : Word := BitVec.ofNat 16 (c % 256 + 256 * ((p.sheet.comp c).cls.toNat % 256))
      let n := min 65535 (x.episodes + 1)
      let start := x.episodeStart.getD t
      let peak := match x.episodePeak with | some v => max v r | none => r
      (x.thermal = .inSpec → hold.toInt < r →
        p.evaluateThermal c r t unit = Part.recorded
          { p with ctxs := p.ctxs.set c { x with thermal := .excursion, episodeStart := some t, episodePeak := some r, episodes := n },
                   attention := p.attention ||| causeExposureChange }
          c .excursionStart ([cls, BitVec.ofNat 16 n] ++ words32 t ++ [BitVec.ofInt 16 r, hold, unit]))
      ∧ (x.thermal = .inSpec → r ≤ hold.toInt → p.evaluateThermal c r t unit = p)
      ∧ (x.thermal = .excursion → hold.toInt < r →
        p.evaluateThermal c r t unit = { p with ctxs := p.ctxs.set c { x with episodePeak := some peak } })
      ∧ (x.thermal = .excursion → r ≤ hold.toInt →
        p.evaluateThermal c r t unit = Part.recorded
          { p with ctxs := p.ctxs.set c { x with thermal := .inSpec, episodeStart := none, episodePeak := none },
                   attention := p.attention ||| causeExposureChange }
          c .excursionEnd ([cls, BitVec.ofNat 16 x.episodes] ++ words32 start ++ words32 t
            ++ [BitVec.ofNat 16 (min 65535 ((t - start) / 60)),
                (match x.episodePeak with | some v => BitVec.ofInt 16 v | none => 0x8000), unit])))
  ∧ (∀ (k : Consignment) (f : Figures) (x : Ctx) (p : Part),
      let open_ : Nat := match x.gapMark with | some m => if x.gap then p.clock.now - m else 0 | none => 0
      (k.closing = some f → p.figures k = f)
      ∧ (k.closing = none → p.ctxs[k.comp]? = some x →
        p.figures k =
          { excursion := x.excursionSecs - k.base.excursion
            excess := x.excess - k.base.excess
            door := min (x.doorExcess - k.base.door) (x.excess - k.base.excess)
            gap := x.gapSecs - k.base.gap + open_ }))

/-- R97, R98, R99 and R107: a committed SAMPLE with words `ws` and receipt time `t`. It is ignored with no route LOADED, for a
compartment above 7 or one that is IDLE; an invalid one is counted; a valid one is tested for skew, charged, ends a gap with its
GAP_END record, sets the thermal state, judges the consignments in table order and rearms the gap timer. R103 to R106: what a
reading and the totals set on a LOADED consignment of the compartment, and its alert. -/
def Obligations.ASampleIsTaken : Prop :=
  (∀ (ws : List Word) (t : Nat) (x : Ctx) (p : Part),
      let c := (ws.getD 3 blank).toNat
      let stamp := (ws.getD 2 blank).toNat * 65536 + (ws.getD 1 blank).toNat
      let unit := ws.getD 4 blank
      let probe := (p.sheet.comp c).probe.toNat
      let word := ws.getD (4 + probe) blank
      let valid := unit.toNat ≤ 2 ∧ -600 ≤ word.toInt ∧ word.toInt ≤ 600
      let r := word.toInt
      let limit := p.sheet.skew.toNat
      let off : Bool := limit != 0 && decide (limit < max (stamp - t) (t - stamp))
      let cls := p.classOfComp c
      let seen : Ctx := { x with skewed := if off then min 65535 (x.skewed + 1) else x.skewed }
      let charged := seen.account cls t
      let body : List Word := [BitVec.ofNat 16 c]
        ++ (match x.gapMark with | some m => words32 m | none => [blank, blank]) ++ words32 t
        ++ [BitVec.ofNat 16 x.invalid, BitVec.ofNat 16 seen.skewed]
      let ended := if x.gap = true then
          Part.recorded { p with ctxs := p.ctxs.set c { charged with gap := false, gapMark := none } } c .gapEnd body
        else { p with ctxs := p.ctxs.set c charged }
      let judged := (List.range 32).foldl (fun q i => q.evaluate c r i) (ended.evaluateThermal c r t unit)
      ((p.route.state ≠ .loaded ∨ 8 ≤ c) → p.consumeSample ws t = p)
      ∧ (p.ctxs[c]? = some x → x.thermal = .idle → p.consumeSample ws t = p)
      ∧ (p.route.state = .loaded → c < 8 → p.ctxs[c]? = some x → x.thermal ≠ .idle → 1 ≤ probe → probe ≤ 4 → ¬valid →
        p.consumeSample ws t = { p with ctxs := p.ctxs.set c { x with invalid := min 65535 (x.invalid + 1) } })
      ∧ (p.route.state = .loaded → c < 8 → p.ctxs[c]? = some x → x.thermal ≠ .idle → 1 ≤ probe → probe ≤ 4 → valid →
        p.consumeSample ws t = { judged with ctxs := judged.ctxs.modify c (fun y =>
          { y with lastTime := some t, lastReading := some r, intervalStart := some t, doorSecs := 0
                   gapExpiry := some (t + cls.gap.toNat * 60) }) }))
  ∧ (∀ (c i : Nat) (r : Int) (k : Consignment) (x : Ctx) (p : Part), p.cons[i]? = some (some k) → p.ctxs[c]? = some x →
      let cls := p.classOfComp c
      let excess := (x.excess - k.base.excess) / 60
      let melt : Bool := decide (cls.melt.toInt ≤ r)
      let refreeze : Bool := cls.refreeze == 0 && k.flags.softCrossed && decide (r ≤ cls.hold.toInt)
      let budget : Bool := decide (cls.budget.toNat < excess)
      let condemns : Bool := (melt || refreeze) && !k.flags.condemned
      let breaches : Bool := (melt || budget) && !k.flags.breached
      let after : Consignment := { k with
        worst := some (match k.worst with | some w => max w r | none => r)
        flags := { k.flags with
          softCrossed := k.flags.softCrossed || decide (cls.soft.toInt < r)
          condemned := k.flags.condemned || melt || refreeze
          breached := k.flags.breached || melt || budget } }
      let put : Part := { p with cons := p.cons.set i (some after) }
      let word4 : Word := BitVec.ofNat 16 ((if condemns then 1 else 0) + (if breaches then 2 else 0)
        + (if melt && (condemns || breaches) then 256 else 0) + (if refreeze && condemns then 512 else 0)
        + (if budget && breaches then 1024 else 0))
      ((k.state ≠ .loaded ∨ k.comp ≠ c) → p.evaluate c r i = p)
      ∧ (k.state = .loaded → k.comp = c → condemns = false → breaches = false → p.evaluate c r i = put)
      ∧ (k.state = .loaded → k.comp = c → (condemns = true ∨ breaches = true) →
        p.evaluate c r i = Part.recorded { put with attention := p.attention ||| causeConsignmentAlert } c .alert
          (dwords k.id ++ [BitVec.ofNat 16 c, word4, BitVec.ofInt 16 r, BitVec.ofNat 16 (min 65535 excess)
            , BitVec.ofNat 16 x.withheld])))

/-- R152: the verdict is the highest whose condition holds. -/
def Obligations.TheVerdictIsTheHighestThatHolds : Prop :=
  ∀ (k : Consignment) (f : Figures) (hold : Word),
    let g := k.flags
    let v := k.verdict f hold
    let incomplete := g.gapSeen = true ∨ g.eventsWithheld = true ∨ g.evidenceFault = true ∨ g.evidenceReset = true
    let above : Bool := match k.worst with | some r => decide (hold.toInt < r) | none => false
    let minor := 0 < f.excursion ∨ above = true ∨ g.softCrossed = true ∨ g.handoverWarm = true
    (g.condemned = true → v = .condemned)
    ∧ (g.condemned = false → g.sealBroken = true → v = .sealBroken)
    ∧ (g.condemned = false → g.sealBroken = false → g.breached = true → f.excess < 2 * f.door → v = .breachHandling)
    ∧ (g.condemned = false → g.sealBroken = false → g.breached = true → 2 * f.door ≤ f.excess → v = .breachRefrigeration)
    ∧ (g.condemned = false → g.sealBroken = false → g.breached = false → incomplete → v = .evidenceIncomplete)
    ∧ (g.condemned = false → g.sealBroken = false → g.breached = false → ¬incomplete → minor → v = .minorExcursion)
    ∧ (g.condemned = false → g.sealBroken = false → g.breached = false → ¬incomplete → ¬minor → v = .clean)

/-- R140, R144 and R145: a LOAD with words `ws` and receipt time `t`. The first check that fails gives its LOAD_ACK its outcome, and
the table stays; an accepted one takes the lowest free entry, LOADED, with its compartment's totals as its baselines, and `gap_seen`
in a compartment in GAP (R110). -/
def Obligations.LoadsAreJudged : Prop :=
  ∀ (ws : List Word) (t i : Nat) (x : Ctx) (outcome : LoadOutcome) (p : Part), p.cons.length = 32 →
    let id : DWord := BitVec.ofNat 32 ((ws.getD 4 blank).toNat * 65536 + (ws.getD 3 blank).toNat)
    let c := (ws.getD 5 blank).toNat
    let quantity := (ws.getD 6 blank).toNat
    let enabled := p.route.state ≠ .idle ∧ p.route.sheet ≠ none ∧ c < 8 ∧ (p.sheet.comp c).enabled = 1
    let present : Bool := p.cons.any (fun o => match o with | some k => k.id == id | none => false)
    let cls := (p.sheet.comp c).cls
    let ack (o : LoadOutcome) (index : Word) : Answer :=
      { kind := .loadAck
        body := [ws.getD 3 blank, ws.getD 4 blank, o.code, index, ws.getD 5 blank, if enabled then cls else blank,
          if enabled then (p.sheet.cls cls.toNat).code else blank, ws.getD 6 blank, ws.getD 7 blank] }
    let why :=
      (outcome = .routeNotLoaded ∧ p.route.state ≠ .loaded)
      ∨ (outcome = .idZero ∧ p.route.state = .loaded ∧ id = 0)
      ∨ (outcome = .quantityZero ∧ p.route.state = .loaded ∧ id ≠ 0 ∧ quantity = 0)
      ∨ (outcome = .idPresent ∧ p.route.state = .loaded ∧ id ≠ 0 ∧ quantity ≠ 0 ∧ present = true)
      ∨ (outcome = .compartmentDisabled ∧ p.route.state = .loaded ∧ id ≠ 0 ∧ quantity ≠ 0 ∧ present = false ∧ ¬enabled)
      ∨ (outcome = .tableFull ∧ p.route.state = .loaded ∧ id ≠ 0 ∧ quantity ≠ 0 ∧ present = false ∧ enabled
          ∧ p.cons.all Option.isSome = true)
    (why → p.answerRequest .load ws t = (ack outcome blank, p))
    ∧ (p.route.state = .loaded → id ≠ 0 → quantity ≠ 0 → present = false → enabled → p.ctxs[c]? = some x →
        p.cons[i]? = some none → (p.cons.take i).all Option.isSome = true →
      p.answerRequest .load ws t = (ack .accepted (BitVec.ofNat 16 i), { p with cons := p.cons.set i (some
        { id := id, comp := c, cls := cls.toNat, loaded := quantity, remaining := quantity, loadTime := t
          base := { excursion := x.excursionSecs, excess := x.excess, door := x.doorExcess, gap := x.gapSecs }
          closing := none, worst := none, flags := { Flags.clear with gapSeen := x.gap }, openings := 0, dwells := 0
          drops := 0, state := .loaded }) }))

/-- R146 to R150, R153 and R154: a DELIVERY and an UNLOAD with words `ws`. The first check that fails gives the PROOF its verdict,
with the fields of the entry that holds the id, or empty, and the table stays. An accepted DELIVERY first judges its hand-over
reading, then takes its quantity, or counts a drop when it is refused at the stop; with nothing remaining the entry is DONE with its
closing figures. An accepted UNLOAD leaves it RETURNED with them. The PROOF is of the entry as it then stands; R214: its nine flags.
-/
def Obligations.DeliveriesAndUnloadsAreJudged : Prop :=
  (∀ (ws : List Word) (t i : Nat) (k : Consignment) (x : Ctx) (verdict : Verdict) (p : Part), p.cons.length = 32 →
      let id : DWord := BitVec.ofNat 32 ((ws.getD 4 blank).toNat * 65536 + (ws.getD 3 blank).toNat)
      let isId (o : Option Consignment) : Bool := match o with | some k => k.id == id | none => false
      let unknown : Prop := p.cons.any isId = false
      let mine := p.cons[i]? = some (some k) ∧ k.id = id ∧ (p.cons.take i).any isId = false
      let stop := ws.getD 5 blank
      let quantity := (ws.getD 6 blank).toNat
      let reading := ws.getD 7 blank
      let kind := (ws.getD 9 blank).toNat
      let proof (q : Part) (stop : Word) (v : Verdict) (n : Nat) (g : Consignment) : Answer :=
        { kind := .proof
          body := [ws.getD 3 blank, ws.getD 4 blank, stop,
              g.flags.word ||| (BitVec.ofNat 16 (min 7 g.drops) <<< 9) ||| (v.code <<< 12), BitVec.ofNat 16 n,
              (match g.worst with | some w => BitVec.ofInt 16 w | none => 0x8000)]
            ++ [(q.figures g).excursion, (q.figures g).excess, (q.figures g).door, (q.figures g).gap].map
                (fun f => BitVec.ofNat 16 (min 65535 (f / 60)))
            ++ [BitVec.ofNat 16 (min 255 g.openings + 256 * min 255 g.dwells)] }
      let empty (stop : Word) (v : Verdict) (n : Nat) : Answer :=
        { kind := .proof
          body := [ws.getD 3 blank, ws.getD 4 blank, stop, v.code <<< 12, BitVec.ofNat 16 n, 0x8000, 0, 0, 0, 0, 0] }
      let quantityFits := (kind = 0 ∧ quantity = k.remaining) ∨ (1 ≤ kind ∧ 1 ≤ quantity ∧ quantity ≤ k.remaining)
      let fails :=
        (verdict = .routeHalted ∧ p.route.state = .halted)
        ∨ (verdict = .unknownConsignment ∧ p.route.state ≠ .halted ∧ unknown)
        ∨ (verdict = .notOnBoard ∧ p.route.state ≠ .halted ∧ k.state ≠ .loaded)
        ∨ (verdict = .badRequest ∧ p.route.state ≠ .halted ∧ k.state = .loaded ∧ (2 < kind ∨ stop = 0))
        ∨ (verdict = .quantityMismatch ∧ p.route.state ≠ .halted ∧ k.state = .loaded ∧ kind ≤ 2 ∧ stop ≠ 0 ∧ ¬quantityFits)
      let unloadFails :=
        (verdict = .routeHalted ∧ p.route.state = .halted)
        ∨ (verdict = .unknownConsignment ∧ p.route.state ≠ .halted ∧ unknown)
        ∨ (verdict = .notOnBoard ∧ p.route.state ≠ .halted ∧ k.state ≠ .loaded)
      let cls := p.sheet.cls k.cls
      let valid : Bool := decide (-600 ≤ reading.toInt ∧ reading.toInt ≤ 600)
      let warm := valid && decide (cls.hold.toInt < reading.toInt)
      let soft := valid && decide (cls.soft.toInt < reading.toInt)
      let handed : Part := { p with cons := p.cons.set i (some { k with
        flags := { k.flags with handoverWarm := k.flags.handoverWarm || warm, condemned := k.flags.condemned || soft } }) }
      let alerted := if soft && !k.flags.condemned then
          Part.recorded { handed with attention := p.attention ||| causeConsignmentAlert } k.comp .alert
            (dwords k.id ++ [BitVec.ofNat 16 k.comp, 0x1001, reading,
              BitVec.ofNat 16 (min 65535 ((x.excess - k.base.excess) / 60)), BitVec.ofNat 16 x.withheld])
        else handed
      let g := ((alerted.cons[i]?).getD none).getD k
      let left := g.remaining - quantity
      let h : Consignment := if kind = 2 then { g with drops := min 65535 (g.drops + 1) }
        else if left = 0 then { g with remaining := 0, closing := some (alerted.figures g), state := .done }
        else { g with remaining := left }
      let after : Part := { alerted with cons := alerted.cons.set i (some h) }
      let back : Consignment := { k with closing := some (p.figures k), state := .returned }
      let unloaded : Part := { p with cons := p.cons.set i (some back) }
      (fails → mine → p.answerRequest .delivery ws t = (proof p stop verdict quantity k, p))
      ∧ (fails → unknown → (verdict = .routeHalted ∨ verdict = .unknownConsignment) →
        p.answerRequest .delivery ws t = (empty stop verdict quantity, p))
      ∧ (mine → p.route.state ≠ .halted → k.state = .loaded → kind ≤ 2 → stop ≠ 0 → quantityFits → p.ctxs[k.comp]? = some x →
        p.answerRequest .delivery ws t
          = (proof after stop (h.verdict (after.figures h) cls.hold) quantity h, after))
      ∧ (unloadFails → mine → p.answerRequest .unload ws t = (proof p 0 verdict 0 k, p))
      ∧ (unloadFails → unknown → (verdict = .routeHalted ∨ verdict = .unknownConsignment) →
        p.answerRequest .unload ws t = (empty 0 verdict 0, p))
      ∧ (mine → p.route.state ≠ .halted → k.state = .loaded →
        p.answerRequest .unload ws t
          = (proof unloaded 0 (back.verdict (unloaded.figures back) cls.hold) k.remaining back, unloaded)))
  ∧ (∀ f : Flags,
      (List.range 16).map f.word.getLsbD
        = [f.softCrossed, f.condemned, f.breached, f.sealBroken, f.gapSeen, f.eventsWithheld, f.evidenceFault, f.evidenceReset,
            f.handoverWarm] ++ List.replicate 7 false)

/-- R120 to R123: a visit of a RUNNING scanner with five free entries. Two differing visits count; the third accepts the change, with
its record, the openings, DOOR_OPEN and the consignments behind the slot. R130 to R134: a watch time that a visit finds unconfirmed,
a RESCAN and each visit of an AUDIT pass queue a DOOR_STATUS; where such a visit accepts a change, the change record joins first,
and the DOOR_STATUS next or, with fewer than five entries left, as the owed record. That an acceptance's watch time also stands in
its DOOR_STATUS is the model's reading (log 48). -/
def Obligations.AScanVisitJudgesItsSlot : Prop :=
  ∀ (lines : BitVec 24) (k : Nat) (x : Slot) (s : State), s.part.running = true → s.part.scan.run = .running →
    s.part.queue.length ≤ 11 → s.part.scan.slots[k]? = some x → k < 24 →
    let p := s.part
    let now := p.clock.now
    let raw := lines.getLsbD k
    let holds (c : Nat) : Bool :=
      (p.sheet.comp c).enabled == 1
        && (if k < 16 then (p.sheet.comp c).contacts.getLsbD k else (p.sheet.comp c).seals.getLsbD (k - 16))
    let behind := (List.range 8).filter holds
    let aboard (g : Consignment) : Bool := g.state == .loaded && behind.contains g.comp
    let at_ : Part := { p with pins := { p.pins with lines := lines } }
    let last := (if p.scan.extended then 24 else 16) ≤ k + 1
    let moved (x : Slot) : Scanner :=
      { p.scan with position := if last then 0 else k + 1, slots := p.scan.slots.set k x }
    let y : Slot := { x with
      accepted := !x.accepted, agree := 0, changedAt := some now, dwellReported := false, watch := none
      openings := if x.accepted then x.openings else min 65535 (x.openings + 1) }
    let count (sel : Consignment → Bool) : Nat :=
      if raw then min 255 (p.cons.filter (fun o => match o with | some g => sel g | none => false)).length else 0
    let change (n : Nat) : List Word :=
      [BitVec.ofNat 16 (k + (if raw then 256 else 0) + (if x.watch.isSome then 512 else 0))] ++ words32 now
        ++ (match x.changedAt with | some t => words32 t | none => [blank, blank])
        ++ (match x.watch with | some t => words32 t | none => [blank, blank])
        ++ [BitVec.ofNat 16 y.openings, BitVec.ofNat 16 ((behind.map (fun c => 2 ^ c)).sum + 256 * n)]
    let ordinary := p.scan.rescan = none ∧ p.scan.audit = .none ∧ p.scan.position = k
    let z : Slot := if raw = x.accepted then { x with agree := 0, watch := none } else { x with agree := x.agree + 1 }
    let unsure : Bool := x.watch.isSome && raw == x.accepted
    let status (g : Slot) (rescan audit unsure : Bool) (settled : Option Nat) : List Word :=
      [BitVec.ofNat 16 (k + (if g.accepted then 256 else 0) + (if raw then 512 else 0) + 1024 * g.agree
          + (if rescan then 4096 else 0) + (if audit then 8192 else 0) + (if unsure then 16384 else 0))]
        ++ (match g.changedAt with | some t => words32 t | none => [blank, blank])
        ++ [BitVec.ofNat 16 g.openings, BitVec.ofNat 16 (min 65535 (g.openSecs / 60))]
        ++ (match settled with | some t => words32 t | none => [blank, blank])
    let called (g : Slot) : Scanner := { p.scan with rescan := none, slots := p.scan.slots.set k g }
    let pass := p.scan.rescan = none ∧ p.scan.position = k ∧ (p.scan.audit = .inProgress ∨ (p.scan.audit = .waiting ∧ k = 0))
    let passed (g : Slot) : Scanner := { moved g with audit := if last then .none else .inProgress }
    let contact (sc : Scanner) : Part := Part.joined
      { at_ with
        scan := sc
        ctxs := p.ctxs.mapIdx (fun c z =>
          if z.thermal ≠ .idle ∧ (p.sheet.comp c).contacts.getLsbD k then
            { z with doorOpen := (List.range 16).any (fun j => (p.sheet.comp c).contacts.getLsbD j
                                  && (if j = k then raw else p.slotAccepted j)) }
          else z)
        cons := p.cons.map (fun o => o.map (fun g =>
          if raw && aboard g then { g with openings := min 65535 (g.openings + 1) } else g)) }
      .event .doorChange (change (count aboard))
    let sealing (sc : Scanner) : Part := Part.joined
      { at_ with
        scan := sc
        attention := if raw then p.attention ||| causeSealBroken else p.attention
        cons := p.cons.map (fun o => o.map (fun g =>
          if raw && aboard g then { g with flags := { g.flags with sealBroken := true } } else g)) }
      .event .sealChange (change (count (fun g => aboard g && !g.flags.sealBroken)))
    let accepts := raw ≠ x.accepted ∧ 2 ≤ x.agree
    let withStatus (q : Part) (body : List Word) : Part :=
      if p.queue.length ≤ 10 then q.joined .event .doorStatus body
      else { q with scan := { q.scan with owed := some body } }
    (ordinary → ¬accepts → unsure = false → exec (.scanVisit lines) s = .next { s with part := { at_ with scan := moved z } })
    ∧ (ordinary → accepts → k < 16 → exec (.scanVisit lines) s = .next { s with part := contact (moved y) })
    ∧ (ordinary → accepts → 16 ≤ k → exec (.scanVisit lines) s = .next { s with part := sealing (moved y) })
    ∧ (ordinary → unsure = true → exec (.scanVisit lines) s = .next { s with part :=
        (Part.joined { at_ with scan := moved z } .event .doorStatus (status z false false true x.watch)) })
    ∧ (p.scan.rescan = some k → ¬accepts → exec (.scanVisit lines) s = .next { s with part :=
        (Part.joined { at_ with scan := called z } .event .doorStatus
          (status z true false unsure (if unsure then x.watch else none))) })
    ∧ (pass → ¬accepts → exec (.scanVisit lines) s = .next { s with part :=
        (Part.joined { at_ with scan := passed z } .event .doorStatus
          (status z false true unsure (if unsure then x.watch else none))) })
    ∧ (p.scan.rescan = some k → accepts → k < 16 → exec (.scanVisit lines) s = .next { s with part :=
        (withStatus (contact (called y)) (status y true false false x.watch)) })
    ∧ (p.scan.rescan = some k → accepts → 16 ≤ k → exec (.scanVisit lines) s = .next { s with part :=
        (withStatus (sealing (called y)) (status y true false false x.watch)) })
    ∧ (pass → accepts → k < 16 → exec (.scanVisit lines) s = .next { s with part :=
        (withStatus (contact (passed y)) (status y false true false x.watch)) })
    ∧ (pass → accepts → 16 ≤ k → exec (.scanVisit lines) s = .next { s with part :=
        (withStatus (sealing (passed y)) (status y false true false x.watch)) })

/-- R126 and R128: the line watch of a FROZEN scanner notes the first disagreement of each slot; the dwell test of a RUNNING one
reports the lowest slot that is due (R125). -/
def Obligations.LineWatchAndDwell : Prop :=
  ∀ (lines : BitVec 24) (n k c least : Nat) (x : Slot) (s : State), s.part.running = true →
    let p := s.part
    let slots := if p.scan.extended then 24 else 16
    let behind := (List.range 8).filter (fun c => (p.sheet.comp c).enabled == 1 && (p.sheet.comp c).contacts.getLsbD k)
    let aboard (g : Consignment) : Bool := g.state == .loaded && behind.contains g.comp
    let limits := behind.map (fun c => (p.classOfComp c).dwell.toNat)
    (p.scan.run = .frozen →
      exec (.lineWatchSample lines) s = .next { s with part := { p with
        pins := { p.pins with lines := lines }
        scan := { p.scan with slots := p.scan.slots.mapIdx (fun j y =>
          if j < slots ∧ lines.getLsbD j ≠ y.accepted ∧ y.watch = none then { y with watch := some p.clock.now } else y) } } })
    ∧ (p.scan.run = .running → p.queue.length ≤ 11 → p.scan.dwellTest = some n → n ≤ k → k < 16 →
        (List.range k).all (fun j => decide (j < n) || (p.dwellDue j).isNone) = true →
        p.scan.slots[k]? = some x → x.accepted = true → x.dwellReported = false → x.changedAt = some c →
        least ∈ limits → (∀ l ∈ limits, least ≤ l) → least < p.clock.now - c →
      exec .dwell s = .next { s with part := (Part.joined
        { p with
          scan := { p.scan with dwellTest := some (k + 1), slots := p.scan.slots.set k { x with dwellReported := true } }
          attention := p.attention ||| causeDoorDwell
          cons := p.cons.map (fun o => o.map (fun g =>
            if aboard g then { g with dwells := min 65535 (g.dwells + 1) } else g)) }
        .event .dwell
          ([BitVec.ofNat 16 k] ++ words32 c ++ [BitVec.ofNat 16 least] ++ words32 (c + least + 1)
            ++ [BitVec.ofNat 16 ((behind.map (fun c => 2 ^ c)).sum
                  + 256 * min 255 (p.cons.filter (fun o => match o with | some g => aboard g | none => false)).length)])) })

/-! ## Long operations and the scrub (chapters 8 and 9) -/

/-- R73, R181, R182 and R183: the collection window, the mark with its condition rewrite, and the bursts of a blanking, from a
segment's highest slot down to slot 0; the blanked segment returns to the pool at its place (R15), and each stalled stream that may
take a segment then is given one, in the order EVENT, DELIVERY, SAMPLE, CLAIM (R17). R43: a record under assembly in the marked
segment is voided with no VOID record written; a rewrite that cannot be made at the mark is the blanking's first burst (log 42).
Shown while no command waits for a burst to end; WaitingCommandsActAtTheEndOfTheBurst states those. -/
def Obligations.TheBatchIsBlankedInOrder : Prop :=
  ∀ (b : Batch) (n w : Nat) (x : Assembly) (s : State), s.Quiet → s.part.retire.batch = some b → s.part.chan.running = none → 1 ≤ n →
    let p := s.part
    let free : Part := { p with arb := { p.arb with burst := none } }
    let cut := List.replicate 16 (0xFFFF : Word)
    let done : Batch := { b with current := none, completed := b.completed + 1 }
    let pooled : Store := { p.store with
      segs := p.store.segs.modify (n - 1) (fun _ => SegEntry.blankEntry)
      pool := p.store.pool.filter (fun m => m < n) ++ [n] ++ p.store.pool.filter (fun m => n < m) }
    let served : Part := [Stream.event, .delivery, .sample, .claim].foldl
      (fun q st => if (q.store.streams.get st).stalled && q.mayTake st then q.openSegment st else q) { free with store := pooled }
    let marked : Store := { p.store with
      segs := p.store.segs.modify (n - 1) (fun e => { e with state := .retiring, owed := .none }) }
    let own := p.store.streams.get x.stream
    let chain := recordChain own.running
      (0xC511 :: (x.words.drop 1 ++ List.replicate 11 blank).take 11 ++ words32 p.clock.now)
    let broken (pos : BlankPos) : Part := { p with
      asm := none
      attention := p.attention ||| causeRecordBroken
      clock := { p.clock with floor := max p.clock.floor p.clock.now }
      store := { marked with
        segs := marked.segs.modify (n - 1) (fun e => { e with count := some (e.count.getD 0 + 1), exitChain := some chain })
        streams := p.store.streams.set x.stream { own with nextRec := own.nextRec + 1, running := chain } }
      retire := { p.retire with batch := some { b with current := some n, pos := pos } } }
    let marks := p.retire.state = .blanking ∧ b.current = none ∧ b.segs[b.completed]? = some n
      ∧ p.store.direct.all (fun e => e.seg != n) = true
    let breaks := p.asm = some x ∧ x.seg = n ∧ own.openSeg ≠ some n ∧ p.route.closeWait ≠ some x.stream
    (p.retire.state = .collecting → b.window = true →
      exec .collectionWindowExpiry s = .next { s with part :=
        (Part.slotsChanged false { p with retire := { p.retire with
          state := if p.verifyRunning then .waiting else .blanking, batch := some { b with window := false } } }).grantPort })
    ∧ (p.retire.state = .blanking → b.current = none → b.segs[b.completed]? = some n → p.arb.burst = none →
        p.req2Waiting = false → p.asm = none →
      exec .blankingMark s = .next { s with
        mem := s.mem.write (n * 16384 + 1) 0x0004
        part := (Part.grantPort { p with
          store := marked
          retire := { p.retire with batch := some { b with current := some n, pos := .word 16383 } } }) })
    ∧ (p.retire.state = .blanking → b.current = none → b.segs[b.completed]? = some n → p.arb.burst ≠ none →
        p.store.direct.all (fun e => e.seg != n) = true → p.asm = none →
      exec .blankingMark s = .next { s with part := { p with
        store := marked
        retire := { p.retire with batch := some { b with current := some n, pos := .rewrite } } } })
    ∧ (marks → breaks → p.arb.burst ≠ none → exec .blankingMark s = .next { s with part := broken .rewrite })
    ∧ (marks → breaks → p.arb.burst = none → (broken .rewrite).req2Waiting = false →
      exec .blankingMark s = .next { s with
        mem := s.mem.write (n * 16384 + 1) 0x0004, part := (broken (.word 16383)).grantPort })
    ∧ (p.retire.state = .blanking → b.current = some n → b.pos = .rewrite → p.arb.burst = some .longOperation →
      exec .blankingBurst s = .next { s with
        mem := s.mem.write (n * 16384 + 1) 0x0004
        part := (Part.grantPort { free with retire := { p.retire with batch := some { b with pos := .word 16383 } } }) })
    ∧ (p.retire.state = .blanking → b.current = some n → b.pos = .word w → 16 ≤ w → p.arb.burst = some .longOperation →
      exec .blankingBurst s = .next { s with
        mem := s.mem.writeWords (n * 16384 + (w - 15)) cut
        part := (Part.grantPort { free with retire := { p.retire with batch := some { b with pos := .word (w - 16) } } }) })
    ∧ (p.retire.state = .blanking → b.current = some n → b.pos = .word 15 → p.arb.burst = some .longOperation →
        b.completed + 1 < b.segs.length →
      exec .blankingBurst s = .next { s with
        mem := s.mem.writeWords (n * 16384) cut
        part := (Part.grantPort { served with retire := { p.retire with batch := some done } }) })
    ∧ (p.retire.state = .blanking → b.current = some n → b.pos = .word 15 → p.arb.burst = some .longOperation →
        b.segs.length ≤ b.completed + 1 →
      exec .blankingBurst s = .next { s with
        mem := s.mem.writeWords (n * 16384) cut
        part := (Part.slotsChanged true { served with
          retire := { p.retire with state := .empty, batch := none }
          attention := served.attention ||| causeOpDone }).grantPort })

/-- R193 and R195: FORMAT blanks the label, then each record segment downward, and writes the label last; its completion leaves an
empty store of the new size in GUARDED mode. A ROUTE LOAD read in progress ends with it (R78): REFUSED with BUSY is the model's
choice (log 37). So is that a ROUTE_END which began to wait during the FORMAT still waits (log 62). -/
def Obligations.FormatBlanksThenWritesTheLabel : Prop :=
  ∀ (f : FormatOp) (n w : Nat) (s : State), s.Quiet → s.part.arb.burst = some .longOperation →
    s.part.retire.state = .formatRunning → s.part.retire.fmt = some f →
    (s.part.chan.running = none ∨ s.part.chan.running = some { work := .routeLoad, presented := true }) →
    1 ≤ f.code → f.code ≤ 3 → s.part.scan.run ≠ .frozen →
    let p := s.part
    let now := p.clock.now
    let total := 32 * 2 ^ f.code
    let cut := List.replicate 16 (0xFFFF : Word)
    let loadDropped : Channel := { p.chan with
      running := none
      current := if p.chan.running = none then p.chan.current
        else p.chan.current.map (fun c => { c with state := .refused, outcome := .busy, results := [], readPos := 0 }) }
    let at_ (st : FormatStage) : Part :=
      { p with arb := { p.arb with burst := none }, retire := { p.retire with fmt := some { f with stage := st } } }
    let unique : List Word := (List.range 4).map (fun i => Config.uniqueNumber.extractLsb' (16 * i) 16)
    let head : List Word := [0x6C52, BitVec.ofNat 16 f.code] ++ words32 now ++ unique
      ++ [0x1A20, 0x0002, blank, blank, blank, blank]
    let seed := crcWords 0 head
    let fresh : StreamEntry :=
      { openSeg := none, append := none, nextRec := 1, nextSeq := 1, running := seed, reserved := none, stalled := false }
    (f.stage = .label →
      exec .formatBurst s = .next { s with
        mem := s.mem.writeWords 0 cut, part := (at_ (.segment 1 16383)).grantPort })
    ∧ (f.stage = .segment n w → 16 ≤ w →
      exec .formatBurst s = .next { s with
        mem := s.mem.writeWords (n * 16384 + (w - 15)) cut, part := (at_ (.segment n (w - 16))).grantPort })
    ∧ (f.stage = .segment n 15 → n + 1 < total →
      exec .formatBurst s = .next { s with
        mem := s.mem.writeWords (n * 16384) cut, part := (at_ (.segment (n + 1) 16383)).grantPort })
    ∧ (f.stage = .segment n 15 → n + 1 = total →
      exec .formatBurst s = .next { s with mem := s.mem.writeWords (n * 16384) cut, part := (at_ .write).grantPort })
    ∧ (f.stage = .write →
      exec .formatBurst s = .next { s with
        mem := s.mem.writeWords 0 (head ++ dwords seed)
        part := (Part.slotsChanged true { p with
          arb := { p.arb with burst := none }
          mode := .guarded
          store := { nSeg := total, sizeCode := f.code, formatTime := some now, seed := seed
                     segs := List.replicate (total - 1) SegEntry.blankEntry
                     pool := (List.range (total - 1)).map (fun i => i + 1)
                     streams := { sample := fresh, event := fresh, delivery := fresh, claim := fresh }, direct := [] }
          queue := [], asm := none
          clock := { p.clock with floor := max p.clock.floor now, mark := none }
          route := { p.route with closePending := false, closeWait := none, load := none }
          chan := loadDropped
          scrub := { pointer := 1, owed := 0, step := none
                     due := p.route.held.map (fun h => now + h.scrubHours.toNat * 3600 / (total - 1)) }
          retire := { state := .empty, batch := none, fmt := none }
          attention := p.attention ||| causeOpDone }).grantPort })

/-- R165 to R167: the LOCATE phase. The walk begins at the DELIVERY stream's next segment sequence number minus one, from the highest
committed slot of that segment, and reads one slot a burst, downward. A PROOF of the id with verdict CLEAN to CONDEMNED is held
until its request, the slot below, has been read; then the tallies take it. After slot 1 the segment numbered one below is walked;
with none that is OPEN, CLOSED or FAULTED the claim is NOT_FOUND, its retired range known unless that number is 0, and its summary
is the whole extract. The accepted LOAD_ACK gives compartment and window, and the HOLD phase follows at once. -/
def Obligations.VerifyLocatesTheConsignment : Prop :=
  ∀ (v : Verify) (c : Claim) (id : DWord) (k m : Nat) (g : SegEntry) (s : State), s.Quiet → s.part.chan.running = none →
    let p := s.part
    let x := v.locate
    let i := v.claim
    let read := (List.range 16).map (fun j => s.mem.read (x.seg * 16384 + 16 * k + j))
    let at_ (j : Nat) : Word := read.getD j 0
    let long (j : Nat) : Nat := (at_ (j + 1)).toNat * 65536 + (at_ j).toNat
    let y : Locate := match x.proof with
      | none => x
      | some (t, quantity) => { x with
          proof := none
          newest := if x.newest.isSome then x.newest else some (t, at_ 0 == Kind.unload.headerWord)
          delivered := if at_ 0 = Kind.delivery.headerWord ∧ (at_ 9 = deliveryFull ∨ at_ 9 = deliveryPartial) then
            x.delivered + quantity else x.delivered }
    let proves := at_ 0 = Kind.proof.headerWord ∧ BitVec.ofNat 32 (long 1) = id ∧ (at_ 4).toNat / 4096 ≤ 6
    let z : Locate := if proves then { y with proof := some (long 12, (at_ 5).toNat) } else y
    let accepted := at_ 0 = Kind.loadAck.headerWord ∧ BitVec.ofNat 32 (long 1) = id ∧ at_ 3 = 0
    let such (number : BitVec 16) (e : SegEntry) : Bool := e.stream == some .delivery && e.segSeq == some number
      && (e.state == .opened || e.state == .closed || e.state == .faulted)
    let owned (number : BitVec 16) := 1 ≤ m ∧ p.store.segs[m - 1]? = some g ∧ such number g = true
      ∧ (p.store.segs.take (m - 1)).all (fun e => !such number e) = true
    let fresh := p.claims[i]? = some c ∧ c = { Claim.free with state := .verifying, id := some id }
    let walks := p.arb.burst = some .longOperation ∧ p.verify = some v ∧ v.suspended = false ∧ v.phase = .locate ∧ v.count ≠ 0
      ∧ x.slot = some k ∧ 1 ≤ x.seg ∧ 1 ≤ k ∧ fresh
    let unfound (number : BitVec 16) (q : Part) (w : Verify) : Part := { q with
      verify := some { w with
        phase := .write, count := 0
        extracts := [(.extractSummary,
          [BitVec.ofNat 16 i ||| (15 : Word) <<< 3 ||| (3 : Word) <<< 7 ||| bit (number != 0) 10 ||| (7 : Word) <<< 13]
            ++ dwords id ++ [blank, blank, blank, blank, blank, blank, 0, 0])] }
      claims := p.claims.set i { c with integrity := some .notFound, retiredRange := number != 0 } }
    let begins := p.arb.burst = none ∧ p.req2Waiting = false ∧ p.lowGrant = some .longOperation ∧ p.verify = some v
      ∧ v.suspended = false ∧ v.phase = .locate
    let granted (w : Verify) : Part := { p with
      arb := { p.arb with burst := some .longOperation, lastWasRead := false }, verify := some w }
    let newest := p.store.streams.delivery.nextSeq - 1
    let after : Part := { p with arb := { p.arb with burst := none } }
    (begins → v.count = 0 → owned newest → g.count = some k → 1 ≤ k →
      p.grantPort = granted { v with count := 1, locate := { x with number := newest, seg := m, slot := some k } })
    ∧ (begins → v.count ≠ 0 → x.slot = none → 1 ≤ m → p.store.segs[m - 1]? = some g → x.seg = m → g.count = some k → 1 ≤ k →
      p.grantPort = granted { v with locate := { x with slot := some k } })
    ∧ (walks → ¬accepted → 2 ≤ k →
      exec .verifyBurst s = .next { s with part :=
        (Part.grantPort { after with verify := some { v with locate := { z with slot := some (k - 1) } } }) })
    ∧ (walks → ¬accepted → k = 1 → owned (x.number - 1) →
      exec .verifyBurst s = .next { s with part := (Part.grantPort { after with
        verify := some { v with count := v.count + 1,
                                locate := { z with number := x.number - 1, seg := m, slot := none } } }) })
    ∧ (walks → ¬accepted → k = 1 → p.store.segs.all (fun e => !such (x.number - 1) e) = true →
      exec .verifyBurst s = .next { s with part := (unfound (x.number - 1) after { v with locate := z }).grantPort })
    ∧ (walks → accepted →
      exec .verifyBurst s = .next { s with part := (Part.passCheck (Part.holdPhase { v with locate := y } { after with
        claims := p.claims.set i { c with
          comp := some (at_ 5).toNat, windowStart := some (long 12)
          windowEnd := some (match y.newest with
            | some (t, unload) => if unload = true ∨ (at_ 8).toNat ≤ y.delivered then t else p.clock.now
            | none => p.clock.now) } })).grantPort })

/-- R168 to R170, R173 and R174: one segment at a time the HOLD phase holds what overlaps the window, takes it from a COLLECTING
batch, and marks what it may not hold; a stream covers the window when its held segments follow one another and the first of them
reaches its start; then the CHECK phase begins, and with no segment held it ends in the same event (log 54). The COLLECT phase takes
each record of the window that concerns the claim; at its end the findings and the integrity are fixed and the extract is laid out.
GAP_STARTs that no later GAP_END of the compartment follows count to the window end (log 23). -/
def Obligations.VerifyHoldsAndCollects : Prop :=
  ∀ (i lo hi n k last : Nat) (c : Claim) (e g : SegEntry) (b : Batch) (st : Stream) (v : Verify) (a d : List SegEntry)
    (todo : List (Nat × Nat)) (s : State), s.Quiet → s.part.chan.running = none → s.part.claims[i]? = some c → 1 ≤ n →
    s.part.store.segs[n - 1]? = some e →
    let p := s.part
    let claimed (c' : Claim) : Part := { p with claims := p.claims.set i c' }
    let overlaps : Bool := (e.stream == some .sample || e.stream == some .event || e.stream == some .delivery)
      && (match e.openTime with | some t => decide (t ≤ hi) | none => false)
      && (e.state == .opened || (match e.closeTime with | some t => decide (lo ≤ t) | none => false))
    let readable : Bool := e.state == .opened || e.state == .closed || e.state == .faulted
    let committed : Bool := match p.retire.batch with
      | some b => p.retire.state != .collecting && (b.segs.drop b.completed).contains n
      | none => false
    let segs := p.store.segs.set (n - 1) { e with holds := e.holds + 1 }
    let held : Part := { claimed { c with held := c.held ++ [n] } with store := { p.store with segs := segs } }
    let holds := overlaps = true ∧ readable = true ∧ c.listTruncated = false ∧ committed = false ∧ c.held.length ≤ 63
    let own := (c.held.filterMap p.seg).filter (fun e => e.stream == some st)
    let follows (l : List SegEntry) (x : SegEntry) : Bool := l.any (fun y => y.segSeq.map (fun q => q + 1) == x.segSeq)
    let reaches : Bool := (match g.openTime with | some t => decide (t ≤ lo) | none => false) || g.segSeq == some 1
      || p.store.segs.any (fun f => f.stream == some st && (f.state == .opened || f.state == .closed || f.state == .faulted)
          && f.segSeq.map (fun q => q + 1) == g.segSeq && (match f.closeTime with | some t => decide (t < lo) | none => false))
    -- the HOLD phase, one segment
    (overlaps = false → Part.considerHold i lo hi p n = p)
    ∧ (overlaps = true → readable = false → Part.considerHold i lo hi p n = claimed { c with retiredRange := true })
    ∧ (overlaps = true → readable = true → c.listTruncated = true → Part.considerHold i lo hi p n = p)
    ∧ (overlaps = true → readable = true → c.listTruncated = false → committed = true →
      Part.considerHold i lo hi p n = claimed { c with retiredRange := true })
    ∧ (overlaps = true → readable = true → c.listTruncated = false → committed = false → 64 ≤ c.held.length →
      Part.considerHold i lo hi p n = claimed { c with listTruncated := true })
    ∧ (holds → p.retire.state ≠ .collecting → Part.considerHold i lo hi p n = held)
    ∧ (holds → p.retire.state = .collecting → p.retire.batch = some b →
      Part.considerHold i lo hi p n = { held with
        retire := if b.segs.all (fun m => m == n) then { p.retire with state := .empty, batch := none }
          else { p.retire with batch := some { b with segs := b.segs.filter (fun m => m != n) } } })
    -- the cover of one stream
    ∧ (own = [] → p.covered st c.held lo = true)
    ∧ (own = a ++ g :: d → follows own g = false → (a ++ d).all (follows own) = true → p.covered st c.held lo = reaches)
    ∧ (own = a ++ g :: d → follows own g = false → d.any (fun x => !follows own x) = true → p.covered st c.held lo = false)
    -- the whole HOLD phase
    ∧ (v.claim = i →
      ∃ q, q = (List.range' 1 p.store.segs.length).foldl (Part.considerHold i (c.windowStart.getD 0) (c.windowEnd.getD 0)) p
        ∧ (∀ w ms, (q.claim i).held = ms → w = { v with
            phase := .check, count := 0, todo := ms, checked := []
            check := { seg := ms.headD 0, slot := 0, limit := none, exit := none, chain := 0 } } →
          p.holdPhase v = { q with
            verify := some w
            claims := if [Stream.sample, .event, .delivery].all (fun st => q.covered st ms (c.windowStart.getD 0)) then
                q.claims
              else q.claims.modify i (fun c => { c with retiredRange := true }) }))
    -- a CHECK phase with no segment to read
    ∧ (p.verify = some v → (v.phase ≠ .check ∨ v.todo ≠ [] ∨ v.suspended = true) → p.passCheck = p)
    ∧ (p.verify = some v → v.phase = .check → v.todo = [] → v.suspended = false → v.checked = [] → v.claim = i →
      ∃ w kd, p.passCheck = { p with
          verify := some w
          claims := p.claims.set i { c with
            samples := some 0, proofs := some 0, proofsOver := false, gapMinutes := some 0, integrity := some kd } }
        ∧ w.phase = .write ∧ w.count = 0 ∧ w.claim = i ∧ w.suspended = false ∧ w.extracts.map Prod.fst = [.extractSummary]
        ∧ kd = (if c.mismatch.isSome = true
              ∨ c.held.any (fun m => match p.seg m with | some f => f.state == .faulted | none => false) = true then .damaged
            else if c.retiredRange = true ∨ c.listTruncated = true then .incomplete
            else .intact))
    -- the COLLECT phase
    ∧ (let x := v.collect
       let read := (List.range 16).map (fun j => s.mem.read (n * 16384 + 16 * k + j))
       let at_ (j : Nat) : Word := read.getD j 0
       let long (j : Nat) : Nat := (at_ (j + 1)).toNat * 65536 + (at_ j).toNat
       let lo := c.windowStart.getD 0
       let hi := c.windowEnd.getD 0
       let comp := c.comp.getD 0
       let inside := lo ≤ long 12 ∧ long 12 ≤ hi
       let seq : DWord := e.firstRec.getD 0 + BitVec.ofNat 32 (k - 1)
       let clipped (t u : Nat) : Nat := min u hi - max t lo
       let is (st : Stream) (kd : Kind) := e.stream = some st ∧ at_ 0 = kd.headerWord
       let own := (at_ 1).toNat = comp
       let proof : ProofFinding := { seq := seq, receipt := long 12, stop := at_ 3, word4 := at_ 4 }
       let proofs := x.proofs.filter (fun f => f.seq.toNat < seq.toNat) ++ [proof]
         ++ x.proofs.filter (fun f => seq.toNat ≤ f.seq.toNat)
       let y : Collect :=
         if is .sample .sample ∧ inside ∧ (at_ 3).toNat = comp then { x with samples := min 65535 (x.samples + 1) }
         else if is .event .gapEnd ∧ own then { x with
           lastEnd := match x.lastEnd with | some t => if t.toNat < seq.toNat then some seq else some t | none => some seq
           gapSecs := x.gapSecs + if inside then clipped (long 2) (long 4) else 0 }
         else if is .event .gapStart ∧ own ∧ inside then { x with starts := x.starts ++ [(seq, long 4)] }
         else if is .event .outage ∧ inside ∧ comp < 8 ∧ (at_ 8).getLsbD comp = true then
           { x with gapSecs := x.gapSecs + min (long 5) (clipped (long 1) (long 3)) }
         else if is .delivery .proof ∧ inside ∧ some (BitVec.ofNat 32 (long 1)) = c.id then
           { x with proofs := proofs.take 16, more := x.more || decide (16 < proofs.length) }
         else x
       let z : Collect := if k < last then { y with slot := k + 1 } else { y with todo := todo, slot := 1 }
       let collects := p.arb.burst = some .longOperation ∧ p.verify = some v ∧ v.suspended = false ∧ v.phase = .collect
         ∧ v.claim = i ∧ c.id ≠ none ∧ x.todo = (n, last) :: todo ∧ x.slot = k ∧ 1 ≤ k ∧ e.firstRec ≠ none ∧ e.stream ≠ none
       let open_ := (z.starts.map (fun t => if (match z.lastEnd with | some u => decide (t.1.toNat < u.toNat) | none => false)
         then 0 else clipped t.2 hi)).sum
       let gap := min 65535 ((z.gapSecs + open_) / 60)
       let integrity : Integrity :=
         if c.mismatch.isSome = true ∨ c.held.any (fun m => match p.seg m with | some f => f.state == .faulted | none => false) = true
         then .damaged
         else if c.retiredRange = true ∨ c.listTruncated = true then .incomplete
         else .intact
       let after : Part := { p with arb := { p.arb with burst := none } }
       (collects → (k < last ∨ todo ≠ []) →
         exec .verifyBurst s = .next { s with part := (Part.grantPort { after with
           verify := some { v with count := v.count + 1, collect := z } }) })
       ∧ (collects → last ≤ k → todo = [] →
         exec .verifyBurst s = .next { s with part := (Part.grantPort { after with
           claims := p.claims.set i { c with
             samples := some z.samples, proofs := some z.proofs.length, proofsOver := z.more, gapMinutes := some gap
             integrity := some integrity }
           verify := some { v with
             phase := .write, count := 0, collect := z
             extracts := (.extractSummary,
               [BitVec.ofNat 16 i ||| BitVec.ofNat 16 (c.comp.getD 15 % 16) <<< 3 ||| integrity.code <<< 7
                   ||| bit c.retiredRange 10 ||| bit c.listTruncated 11 ||| bit z.more 12
                   ||| ((match c.mismatch with | some m => m.stream.code | none => 7) : Word) <<< 13]
                 ++ dwords? c.id ++ words32? c.windowStart ++ words32? c.windowEnd
                 ++ (match c.mismatch with | some m => dwords? m.seq | none => [blank, blank])
                 ++ [BitVec.ofNat 16 (min 2047 z.samples) ||| BitVec.ofNat 16 z.proofs.length <<< 11, BitVec.ofNat 16 gap])
               :: z.proofs.mapIdx (fun j f => (.extractProof,
                 [BitVec.ofNat 16 (i % 256 + 256 * ((j + 1) % 256))] ++ dwords f.seq ++ words32 f.receipt
                   ++ [f.stop, f.word4])) } }) }))

/-- R164, R165, R171, R172, R174 and R178: VERIFY_START tests the slots again. A CHECK burst compares one slot: slot 0 with the
segment table, a later one by its kind and its chain. Below the limit the check moves on; at the limit the exit chain, where the
table holds one, is compared; the check then passes to the next held segment, or the COLLECT phase begins. A mismatch is the claim's
first, and faults a segment that was OPEN or CLOSED, with its FAULT record of cause VERIFY. The extract records join the queue one
by one, and the last makes the claim READY. -/
def Obligations.VerifyChecksAndWritesItsExtract : Prop :=
  ∀ (v : Verify) (e : SegEntry) (st : Stream) (c : Claim) (m l : Nat) (todo : List Nat) (k : Kind) (body : List Word)
    (rest : List (Kind × List Word)) (s : State), s.Quiet → s.part.chan.running = none →
    let p := s.part
    let n := v.check.seg
    let j := v.check.slot
    let read := (List.range 16).map (fun i => s.mem.read (n * 16384 + 16 * j + i))
    let long (i : Nat) : DWord := BitVec.ofNat 32 ((read.getD (i + 1) 0).toNat * 65536 + (read.getD i 0).toNat)
    let good : Bool :=
      if j = 0 then read.getD 0 0 == Kind.header.headerWord && read.getD 2 0 == st.code && e.segSeq == some (read.getD 3 0)
        && e.firstRec == some (long 4) && e.entryChain == some (long 6) && recordChain (long 6) read == long 14
      else (match Kind.ofHeader (read.getD 0 0) with | some kd => st.carries kd | none => false)
        && recordChain v.check.chain read == long 14
    let exits : Bool := v.check.exit == none || v.check.exit == some (long 14)
    let seq : List Word := if j = 0 then [blank, blank]
      else match e.firstRec with | some r => dwords (r + BitVec.ofNat 32 (j - 1)) | none => [blank, blank]
    let here := p.arb.burst = some .longOperation ∧ p.verify = some v ∧ v.suspended = false ∧ v.phase = .check ∧ 1 ≤ n
      ∧ v.todo.head? = some n ∧ p.store.segs[n - 1]? = some e ∧ e.stream = some st ∧ v.check.limit = some l
    let writes := p.verify = some v ∧ v.phase = .write ∧ v.suspended = false ∧ p.queue.length ≤ 11
      ∧ p.store.streams.claim.stalled = false
    let wrong := good = false ∨ (l ≤ j ∧ exits = false)
    let next (last : Nat) : Verify := { v with
      todo := m :: todo, checked := v.checked ++ [(n, last)], count := v.count + 1
      check := { seg := m, slot := 0, limit := none, exit := none, chain := 0 } }
    let toCollect := (v.checked ++ [(n, j)]).filter (fun x => x.2 != 0)
    let goesOn (w : Verify) : Part := { p with arb := { p.arb with burst := none }, verify := some w }
    let found : Claim := if c.mismatch.isSome then c
      else { c with mismatch := some { stream := st, seg := n, slot := j,
                                       seq := if j = 0 then none else e.firstRec.map (fun r => r + BitVec.ofNat 32 (j - 1)) } }
    let missed : Part := { goesOn (next (j - 1)) with claims := p.claims.set v.claim found }
    exec .verifyStart s = .next { s with part := (p.slotsChanged false).grantPort }
    ∧ (here → good = true → j < l →
      exec .verifyBurst s = .next { s with part := (goesOn { v with
        check := { v.check with slot := j + 1, chain := long 14 } }).grantPort })
    ∧ (here → good = true → l ≤ j → exits = true → v.todo = n :: m :: todo →
      exec .verifyBurst s = .next { s with part := (goesOn (next j)).grantPort })
    ∧ (here → good = true → l ≤ j → exits = true → v.todo = [n] → toCollect ≠ [] →
      exec .verifyBurst s = .next { s with part := (goesOn { v with
        phase := .collect, todo := [], checked := v.checked ++ [(n, j)], count := 0
        collect := { todo := toCollect, slot := 1, samples := 0, gapSecs := 0, starts := [], lastEnd := none, proofs := [],
                     more := false } }).grantPort })
    ∧ (here → wrong → (e.state = .opened ∨ e.state = .closed) → p.claims[v.claim]? = some c → c.state = .verifying →
        v.todo = n :: m :: todo →
      exec .verifyBurst s = .next { s with part := (missed.faultFound n e st
        ([BitVec.ofNat 16 n, st.code, BitVec.ofNat 16 j] ++ seq ++ [1, BitVec.ofNat 16 v.claim])).grantPort })
    ∧ (here → wrong → e.state = .faulted → p.claims[v.claim]? = some c → v.todo = n :: m :: todo →
      exec .verifyBurst s = .next { s with part := missed.grantPort })
    ∧ (writes → v.extracts = (k, body) :: rest → rest ≠ [] →
      exec .extractRecordAdd s = .next { s with part := (Part.grantPort (Part.joined { p with
          verify := some { v with extracts := rest, count := v.count + 1 } } .claim k body)) })
    ∧ (writes → v.extracts = [(k, body)] →
      exec .extractRecordAdd s = .next { s with part := (Part.slotsChanged true (Part.joined { p with
          verify := none
          attention := p.attention ||| causeClaimReady ||| causeOpDone
          claims := p.claims.modify v.claim (fun c => { c with state := .ready }) } .claim k body)).grantPort })

/-- R187 to R191: a step that comes due begins with the first CLOSED segment from the pointer on, which then stands on it, or is
owed; its slots are read in turn up to the limit, slot 0 against the segment table, and the exit chain after the last; the first
burst fixes the limit at the record count and the exit chain at the table's. The end of a step moves the pointer past the segment; a
failure faults it, with its FAULT record of cause SCRUB, which names no record for slot 0 or for a failure of the exit chain. -/
def Obligations.TheScrubChecksClosedSegments : Prop :=
  ∀ (t n k l : Nat) (e : SegEntry) (st : Stream) (x : ScrubStep) (s : State), s.Quiet → s.part.chan.running = none →
    let p := s.part
    let interval : Option Nat := match p.route.held with
      | some h => if p.mode = .guarded ∨ p.mode = .service then some (h.scrubHours.toNat * 3600 / (p.store.nSeg - 1)) else none
      | none => none
    let due := interval.map (fun i => p.clock.now + i)
    let read := (List.range 16).map (fun i => s.mem.read (n * 16384 + 16 * k + i))
    let long (i : Nat) : DWord := BitVec.ofNat 32 ((read.getD (i + 1) 0).toNat * 65536 + (read.getD i 0).toNat)
    let good : Bool :=
      if k = 0 then read.getD 0 0 == Kind.header.headerWord && read.getD 2 0 == st.code && e.segSeq == some (read.getD 3 0)
        && e.firstRec == some (long 4) && e.entryChain == some (long 6) && recordChain (long 6) read == long 14
      else (match Kind.ofHeader (read.getD 0 0) with | some kd => st.carries kd | none => false)
        && recordChain x.check.chain read == long 14
    let step := p.arb.burst = some .scrub ∧ p.scrub.step = some x ∧ x.abandoned = false ∧ x.check.seg = n ∧ 1 ≤ n
      ∧ p.store.segs[n - 1]? = some e ∧ e.state = .closed ∧ e.stream = some st ∧ x.check.slot = k
      ∧ x.check.limit.getD (e.count.getD 0) = l ∧ p.longRunning = false ∧ p.scrub.owed = 0
    let exit := if x.check.limit = none then e.exitChain else x.check.exit
    let next := if n + 1 < p.store.nSeg then n + 1 else 1
    let idle : Part := { p with arb := { p.arb with burst := none }, scrub := { p.scrub with step := none, pointer := next } }
    let seq : List Word := if k = 0 ∨ good = true then [blank, blank]
      else match e.firstRec with | some r => dwords (r + BitVec.ofNat 32 (k - 1)) | none => [blank, blank]
    (p.scrub.due = some t → t ≤ p.clock.now → (p.longRunning = true ∨ p.scrub.step ≠ none) →
      exec .scrubStepDue s = .next { s with part := (Part.grantPort { p with
        scrub := { p.scrub with due := due, owed := min 255 (p.scrub.owed + 1) } }) })
    ∧ (p.scrub.due = some t → t ≤ p.clock.now → p.longRunning = false → p.scrub.step = none →
        p.store.segs[n]? = some e → e.state = .closed → p.scrub.pointer ≤ n + 1 →
        ((p.store.segs.take n).drop (p.scrub.pointer - 1)).all (fun g => g.state != .closed) = true →
      exec .scrubStepDue s = .next { s with part := (Part.grantPort { p with
        scrub := { p.scrub with
          due := due, pointer := n + 1
          step := some { check := { seg := n + 1, slot := 0, limit := none, exit := none, chain := 0 }, abandoned := false } } }) })
    ∧ (step → good = true → k < l →
      exec .scrubBurst s = .next { s with part := (Part.grantPort { p with
        arb := { p.arb with burst := none }
        scrub := { p.scrub with step := some { x with check := {
          seg := n, slot := k + 1, limit := some l, exit := exit, chain := long 14 } } } }) })
    ∧ (step → good = true → l ≤ k → (exit = none ∨ exit = some (long 14)) →
      exec .scrubBurst s = .next { s with part := idle.grantPort })
    ∧ (step → (good = false ∨ (l ≤ k ∧ exit ≠ none ∧ exit ≠ some (long 14))) →
      exec .scrubBurst s = .next { s with part := (idle.faultFound n e st
        ([BitVec.ofNat 16 n, st.code, BitVec.ofNat 16 k] ++ seq ++ [0, blank])).grantPort })

/-! ## The route clock, supplies and restarts (chapters 4 and 10) -/

/-- R89, R109, R124 and R125: a second of the route clock. With SUPPLY present the door seconds of open compartments and the open
seconds of the scan mode's slots count, and the dwell test of a RUNNING scanner begins, its reports left to the row DWELL (the
model's choice, log 33); without SUPPLY only the clock moves (R198). -/
def Obligations.TheRouteClockAdvances : Prop :=
  ∀ s : State, s.part.clock.now < 4294967295 → s.part.backup.lost = false →
    let p := s.part
    let on : Bool := p.power != .off
    let slots := if p.scan.extended then 24 else 16
    exec .routeClockAdvance s = .next { s with part := { p with
      clock := { p.clock with now := p.clock.now + 1 }
      ctxs := if on then p.ctxs.map (fun x =>
          if x.thermal ≠ .idle ∧ x.doorOpen = true then { x with doorSecs := min 65535 (x.doorSecs + 1) } else x)
        else p.ctxs
      scan := if on then { p.scan with
          dwellTest := if p.running = true ∧ p.scan.run = .running then some 0 else none
          slots := if p.scan.run = .stopped then p.scan.slots else p.scan.slots.mapIdx (fun k x =>
            if k < slots ∧ x.accepted = true then { x with openSecs := min 4294967295 (x.openSecs + 1) } else x) }
        else p.scan } }

/-- R198 and R199: RESET and a supply failure stop the burst in progress where it stands (a record, a direct write, a blanking, the
mount) and abandon the access in progress (R29); a failure latches the supply-fail time; without SUPPLY only the clock, a restart, the
loss of the backup domain and the pins are left. That RESET abandons the first access that waits alone and keeps those behind it, and
that a failure leaves none, is the model's reading (log 9). R197: the retention check, over the free values of log 11; that a part
which loses its backup domain holds its cold values at once is the model's choice (log 38). -/
def Obligations.ResetAndSupplyFailureStopThePart : Prop :=
  ∀ (i : Instr) (n base m w : Nat) (words : List Word) (b : Batch) (e : DirectEntry) (more : List DirectEntry) (s : State),
    let p := s.part
    let kept (s : State) : Port := { s.port with waiting := (s.port.waiting.drop 1).dropWhile (fun w => !w.isArrival) }
    let failed (m : Memory) : State := { s with
      mem := m
      port := { s.port with waiting := [] }
      part := { p with
        power := .off, arb := { p.arb with burst := none }
        backup := { p.backup with
          supplyFail := p.clock.now
          check := crcWords 0 (Config.retentionImage p.freeCount ++ words32 p.clock.now) }
        freeCount := p.freeCount + 1 } }
    let partial_ := (words.take n).zipIdx.foldl (fun m x => m.write (base + x.2) x.1) s.mem
    (p.power = .on →
      exec (.resetAssert .clean) s = .next { s with
        port := kept s, part := { p with power := .resetHeld, arb := { p.arb with burst := none } } }
      ∧ exec (.supplyFail .clean) s = .next (failed s.mem))
    ∧ (p.power = .resetHeld → exec (.supplyFail .clean) s = .next (failed s.mem))
    ∧ (p.power = .on → p.arb.burst = some (.record base words) →
      exec (.resetAssert (.recordStore n)) s = .next { s with
        mem := partial_, port := kept s, part := { p with power := .resetHeld, arb := { p.arb with burst := none } } }
      ∧ exec (.supplyFail (.recordStore n)) s = .next (failed partial_))
    ∧ (p.power = .on → p.arb.burst = some .longOperation → p.retire.state = .blanking → p.retire.batch = some b →
        b.current = some m → b.pos = .word w →
      let cut := (List.range (min n 16)).foldl (fun g i => g.write (m * 16384 + w - i) 0xFFFF) s.mem
      exec (.resetAssert (.longOperation n)) s = .next { s with
        mem := cut, port := kept s, part := { p with power := .resetHeld, arb := { p.arb with burst := none } } }
      ∧ exec (.supplyFail (.longOperation n)) s = .next (failed cut))
    ∧ (p.power = .on → p.arb.burst = none → p.store.direct = e :: more →
      let cut := (e.words.take n).zipIdx.foldl (fun m x => m.write (e.seg * 16384 + 16 * e.slot + x.2) x.1) s.mem
      exec (.resetAssert (.recordStore n)) s = .next { s with
        mem := cut, port := kept s, part := { p with power := .resetHeld, arb := { p.arb with burst := none } } }
      ∧ exec (.supplyFail (.recordStore n)) s = .next (failed cut))
    ∧ (p.power = .on → p.backup.mounting = true →
      let cut := (s.mount.writes.take n).foldl (fun m x => m.write x.1 x.2) s.mem
      exec (.resetAssert (.mount n)) s = .next { s with
        mem := cut, port := kept s, part := { p with power := .resetHeld, arb := { p.arb with burst := none } } }
      ∧ exec (.supplyFail (.mount n)) s = .next (failed cut))
    ∧ (p.power = .off →
      exec .backupDomainLoss s = .next { s with part := { Part.cold with
        power := .off, pins := p.pins, freeCount := p.freeCount, backup := { Part.cold.backup with lost := true } } })
    ∧ (p.power = .off →
      (match i with
        | .warmRestart _ => false
        | .coldRestart _ => false
        | .backupDomainLoss => false
        | .routeClockAdvance => false
        | .dockFall => false
        | .upstreamWrite _ _ _ => false
        | .serviceEnter _ _ _ _ _ => false
        | .format _ _ _ _ _ => false
        | _ => true) = true →
      exec i s = .next s)

/-- R200: a reset and a warm restart clear the command channel and the record under assembly, stop the long operation and a load
read, and keep the route, the contexts' figures, the refusal log and the pending causes. R115 and R201: with no record under
assembly, no operation running and no consignment on board, a warm restart closes each active interval at the supply-fail time,
starts the next at the restart time, and owes its OUTAGE and RESTART records. That a record owed for one restart counts 1 merged is
the model's choice (log 40), and so is the order among compartments (log 63). A FORMAT that the restart ends takes a LOADED route
with it (the model's choice, log 37). R73, R179 and R187: a WAITING batch is kept WAITING, also when the restart ends the VERIFY,
suspended slots stay suspended, a COLLECTING batch that is not discarded has its window restarted, and a scrub step in progress is
abandoned and, with no operation ended, owed (logs 51, 52). -/
def Obligations.RestartsClearTheChannelAndKeepTheEvidence : Prop :=
  (∀ (dock : Bool) (s : State), s.port.waiting = [] → s.part.backup.mounting = false →
      let p := s.part
      let unrouted := p.retire.state = .formatRunning ∧ p.route.state = .loaded
      let cleared (t : State) : Prop :=
        t.part.power = .on ∧ t.part.pins = { p.pins with dock := dock }
        ∧ t.part.chan = { gate := .idle, current := none, running := none, protectErrors := 0 }
        ∧ t.part.asm = none ∧ t.part.arb.fairness = 0 ∧ t.part.route.load = none
        ∧ (unrouted → t.part.route.state = .idle) ∧ (¬unrouted → t.part.route.state = p.route.state)
        ∧ t.part.route.sheet = p.route.sheet ∧ t.part.route.held = p.route.held ∧ t.part.clock.now = p.clock.now
        ∧ t.part.clock.valid = p.clock.valid ∧ t.part.refusals = p.refusals ∧ p.attention &&& t.part.attention = p.attention
        ∧ (p.asm ≠ none → t.part.attention &&& causeRecordBroken = causeRecordBroken)
        ∧ (p.retire.state = .blanking ∨ p.retire.state = .formatRunning ∨ p.verifyRunning = true →
            t.part.attention &&& causeOpDone = causeOpDone)
        ∧ (p.mode = .service → dock = false → t.part.mode ≠ .service)
        ∧ (p.retire.state = .waiting ∨ p.retire.state = .suspended → t.part.retire = p.retire)
        ∧ (p.retire.state = .waiting → p.verifyRunning = true → t.part.verify = none)
        ∧ (∀ v, p.verify = some v → v.suspended = true → p.retire.state ≠ .formatRunning → t.part.verify = some v)
        ∧ (p.retire.state = .collecting → p.mode ≠ .service ∨ dock = true →
            t.part.retire = { p.retire with batch := p.retire.batch.map (fun b => { b with window := true }) })
        ∧ (p.longRunning = false → p.scrub.step ≠ none →
            t.part.scrub.step = none ∧ t.part.scrub.owed = min 255 (p.scrub.owed + 1)
              ∧ t.part.scrub.pointer = p.scrub.pointer)
        ∧ (¬unrouted → t.part.scan.slots = p.scan.slots.map (fun x => { x with agree := 0 }))
        ∧ t.pending = s.pending ∧ t.port = s.port
      (p.power = .resetHeld → ∃ t, exec (.reset dock) s = .next t ∧ cleared t
          ∧ (¬unrouted → t.part.ctxs = p.ctxs ∧ t.part.cons = p.cons)
          ∧ t.part.backup = p.backup)
      ∧ (p.power = .off → p.backup.lost = false → ∃ t, exec (.warmRestart dock) s = .next t ∧ cleared t
          ∧ t.part.attention &&& causeRestart = causeRestart ∧ t.part.backup.outage ≠ none ∧ t.part.backup.restart ≠ none))
  ∧ (∀ (dock : Bool) (s : State), s.port.waiting = [] → s.part.backup.mounting = false → s.part.backup.lost = false →
      s.part.power = .off → s.part.asm = none → s.part.longRunning = false → s.part.retire.state = .empty →
      s.part.scrub.step = none → s.part.scrub.owed = 0 → s.part.claimQueue = [] → s.part.verify = none → s.part.queue.length ≤ 11 →
      s.part.mode = .guarded → s.part.backup.outage = none → s.part.backup.restart = none → s.part.ctxs.length = 8 →
      s.part.cons.all (fun o => match o with | some k => k.state != .loaded | none => true) = true →
      let p := s.part
      let tf := p.backup.supplyFail
      let tr := p.clock.now
      exec (.warmRestart dock) s = .next { s with part := (Part.grantPort { p with
        power := .on
        pins := { p.pins with dock := dock }
        chan := { gate := .idle, current := none, running := none, protectErrors := 0 }
        arb := { p.arb with burst := none, fairness := 0 }
        route := { p.route with load := none }
        scan := { p.scan with
          run := if p.scan.run = .frozen then .running else p.scan.run, dwellTest := none
          slots := p.scan.slots.map (fun x => { x with agree := 0 }) }
        ctxs := p.ctxs.mapIdx (fun c x =>
          if x.thermal = .idle then x
          else
            let limit := (p.classOfComp c).gap.toNat * 60
            { x.account (p.classOfComp c) tf with
              intervalStart := some tr, doorSecs := 0
              gapExpiry := if x.gap then x.gapExpiry else some (tr + limit)
              gapMark := if x.gap then some (tr + limit) else x.gapMark })
        backup := { p.backup with
          outage := some { fail := tf, restart := tr, secs := tr - tf, merged := 1, comps := 0, count := 0 }
          restart := some { fail := tf, restart := tr, merged := 1, ended := .none, voided := none } }
        scrub := { p.scrub with due := p.scrubInterval.map (fun i => tr + i) }
        attention := p.attention ||| causeRestart }) })

/-- R199, R203 and R209: a cold restart gives every block its cold value and begins the mount; over a record memory with no valid
label the mount ends UNFORMATTED, with RESTART and CLOCK_INVALID pending: the first power-up so ends in State.reset, but for the
pins (log 5). R203 to R209, for a store of the part's own label in which no segment has a valid header: GUARDED, every other segment
BLANK or SCRAP, the route clock at the format time and invalid, no hold, no rewrite owed, no route, and the RESTART record queued. A
valid label with another unique number gives mode FOREIGN, which keeps its size code and format time for IDENTITY (R65, R192). -/
def Obligations.AColdRestartMountsTheStore : Prop :=
  (∀ (check : Bool) (s : State), s.part.power = .off → s.part.backup.lost = true → s.mem.label = none → s.port.waiting = [] →
      let p := s.part
      let mounting : State := { s with part := { Part.cold with
        pins := p.pins, freeCount := p.freeCount, backup := { Part.cold.backup with mounting := true } } }
      exec (.coldRestart check) s = .next mounting
      ∧ exec .mountEnd mounting = .next { s with part := { State.reset.part with pins := p.pins, freeCount := p.freeCount } })
  ∧ (∀ (s : State) (l : Label), s.part.power = .on → s.part.backup.mounting = true → s.port.waiting = [] → s.part.mode = .guarded →
      s.mem.label = some l →
      s.part.store = { Store.absent with nSeg := segCount l.code, sizeCode := l.code, formatTime := some l.time, seed := l.seed } →
      (∀ n, 1 ≤ n → n < segCount l.code → s.mem.header n = none) →
      let blank_ (n : Nat) : Bool := (List.range 16).all (fun i => s.mem.read (n * 16384 + i) == 0xFFFF)
      let numbers := (List.range (segCount l.code - 1)).map (fun n => n + 1)
      ∃ t, exec .mountEnd s = .next t ∧ t.mem = s.mem ∧ t.pending = s.pending
        ∧ t.part.mode = .guarded ∧ t.part.backup.mounting = false
        ∧ t.part.clock = { now := l.time, valid := false, floor := l.time, mark := none }
        ∧ t.part.route = s.part.route ∧ t.part.cons = s.part.cons ∧ t.part.store.direct = []
        ∧ t.part.store.pool = numbers.filter blank_
        ∧ t.part.store.segs = numbers.map (fun n =>
            if blank_ n then SegEntry.blankEntry else { SegEntry.blankEntry with state := .scrap, count := some 0 })
        ∧ t.part.store.streams = Streams.fresh l.seed
        ∧ t.part.attention &&& (causeRestart ||| causeClockInvalid) = causeRestart ||| causeClockInvalid
        ∧ ∃ r, t.part.queue = s.part.queue ++ [{ stream := .event, kind := .restart, body := r, taken := none }]
            ∧ r.take 5 = [1, blank, blank] ++ words32 l.time)
  ∧ (∀ (check : Bool) (s : State) (l : Label), s.part.power = .off → s.part.backup.lost = true → s.mem.label = some l →
      s.port.waiting = [] →
      let p := s.part
      let mounting (mode : Mode) (store : Store) : State := { s with part := { Part.cold with
        pins := p.pins, freeCount := p.freeCount, backup := { Part.cold.backup with mounting := true }
        mode := mode, store := store } }
      let kept : Store := { Store.absent with sizeCode := l.code, formatTime := some l.time }
      (l.unique ≠ uniqueWords →
        exec (.coldRestart check) s = .next (mounting .foreign kept)
        ∧ exec .mountEnd (mounting .foreign kept) = .next { s with part := { State.reset.part with
            pins := p.pins, freeCount := p.freeCount, mode := .foreign, store := kept } })
      ∧ (l.unique = uniqueWords →
        exec (.coldRestart check) s = .next (mounting .guarded { kept with nSeg := segCount l.code, seed := l.seed })))

/-- R19, R204 and R205: how the mount reads a store of the part's own label. A header stands where word 0 is the marked HEADER kind,
its chain is valid and its condition OPEN, CLOSED or FAULTED; its segment's last slot is the highest marked one. A segment without
one is BLANK where slot 0 is blank, else SCRAP. A last slot with an invalid tail and an unmarked slot below it are cut off (log 49):
each is answered where it follows a request and else voided. Of a stream's segments read as OPEN the newest stays open, unless it is
full. The clock is the newest time shown (log 25); the next record number follows the last record found (log 26). The fields of an
answer RESTART_UNANSWERED that no rule fills are the model's (log 29). -/
def Obligations.TheMountReadsTheStore : Prop :=
  (∀ (m : Memory) (n : Nat) (h : Found),
      let ws := (List.range 16).map (fun i => m.read (n * 16384 + i))
      let at_ (i : Nat) : Word := ws.getD i 0
      let long (i : Nat) : Nat := (at_ (i + 1)).toNat * 65536 + (at_ i).toNat
      m.header n = some h ↔
        at_ 0 = Kind.header.headerWord ∧ recordChain (BitVec.ofNat 32 (long 6)) ws = BitVec.ofNat 32 (long 14)
          ∧ at_ 2 = h.stream.code
          ∧ ((at_ 1 = 1 ∧ h.state = .opened) ∨ (at_ 1 = 2 ∧ h.state = .closed) ∨ (at_ 1 = 3 ∧ h.state = .faulted))
          ∧ h.number = n ∧ h.segSeq = at_ 3 ∧ h.first = BitVec.ofNat 32 (long 4) ∧ h.entry = BitVec.ofNat 32 (long 6)
          ∧ h.openTime = long 8 ∧ h.last ≤ 1023 ∧ (h.last = 0 ∨ marked (m.read (n * 16384 + 16 * h.last)) = true)
          ∧ ∀ k, h.last < k → k ≤ 1023 → marked (m.read (n * 16384 + 16 * k)) = false)
  ∧ (∀ (m : Memory) (hs : List Found) (n : Nat), (∀ h ∈ hs, h.number ≠ n) →
      mountEntry hs m n = if (List.range 16).all (fun i => m.read (n * 16384 + i) == 0xFFFF) then SegEntry.blankEntry
        else { SegEntry.blankEntry with state := .scrap, count := some 0 })
  ∧ (∀ (m : Memory) (hs : List Found) (h g : Found), h ∈ hs → (hs.map (fun h => h.number)).Nodup →
      let ws := (List.range 16).map (fun i => m.read (h.number * 16384 + 16 * h.last + i))
      let at_ (i : Nat) : Word := ws.getD i 0
      let long (i : Nat) : Nat := (at_ (i + 1)).toNat * 65536 + (at_ i).toNat
      let rivals := hs.filter (fun g => g.stream == h.stream && g.state == .opened && g.number != h.number)
      let read (st : SegState) : SegEntry :=
        { state := st, stream := some h.stream, segSeq := some h.segSeq, openTime := some h.openTime
          closeTime := if st = .opened then none else some (if h.last = 0 then h.openTime else long 12)
          firstRec := some h.first, count := some h.last, entryChain := some h.entry
          exitChain := if st = .opened then none else some (BitVec.ofNat 32 (long 14)), holds := 0, owed := .none }
      (h.state ≠ .opened → mountEntry hs m h.number = read h.state)
      ∧ (h.state = .opened → h.last ≤ 1022 → (∀ f ∈ rivals, f.first.toNat < h.first.toNat) → mountEntry hs m h.number = read .opened)
      ∧ (h.state = .opened → h.last = 1023 → (∀ f ∈ rivals, f.first.toNat < h.first.toNat) → mountEntry hs m h.number = read .closed)
      ∧ (h.state = .opened → g ∈ rivals → h.first.toNat < g.first.toNat → mountEntry hs m h.number = read .closed))
  ∧ (∀ (m : Memory) (hs : List Found) (seed : DWord) (st : Stream), (∀ h ∈ hs, h.stream ≠ st) →
      mountStream hs m seed st = StreamEntry.fresh seed)
  ∧ (∀ (m : Memory) (hs : List Found) (seed : DWord) (h g : Found), h ∈ hs → (hs.map (fun h => h.number)).Nodup →
      (∀ f ∈ hs, f.stream = h.stream → f.number ≠ h.number → f.first.toNat < h.first.toNat) →
      let ws := (List.range 16).map (fun i => m.read (h.number * 16384 + 16 * h.last + i))
      let at_ (i : Nat) : Word := ws.getD i 0
      let long (i : Nat) : Nat := (at_ (i + 1)).toNat * 65536 + (at_ i).toNat
      let x := mountStream hs m seed h.stream
      x.nextSeq = h.segSeq + 1 ∧ x.running = BitVec.ofNat 32 (long 14) ∧ x.reserved = none ∧ x.stalled = false
        ∧ (0 < h.last → x.nextRec = h.first + BitVec.ofNat 32 h.last)
        ∧ (h.last = 0 → (∀ f ∈ hs, f.stream = h.stream → f.last = 0) → x.nextRec = 1)
        ∧ (h.last = 0 → g ∈ hs → g.stream = h.stream → 0 < g.last →
            (∀ f ∈ hs, f.stream = h.stream → 0 < f.last → f.number ≠ g.number → f.first.toNat < g.first.toNat) →
            x.nextRec = g.first + BitVec.ofNat 32 g.last)
        ∧ (h.state = .opened → h.last ≤ 1022 → x.openSeg = some h.number ∧ x.append = some (h.last + 1))
        ∧ (h.state = .opened → h.last = 1023 → x.openSeg = none ∧ x.append = none))
  ∧ (∀ (m : Memory) (hs : List Found) (formatTime : Nat),
      mountClock m [] formatTime = formatTime
        ∧ (∀ h ∈ hs, h.newestTime m ≤ mountClock m hs formatTime)
        ∧ (hs ≠ [] → ∃ h ∈ hs, h.newestTime m = mountClock m hs formatTime))
  ∧ (∀ (m : Memory) (h : Found) (k : Nat),
      let ws := (List.range 16).map (fun i => m.read (h.number * 16384 + 16 * k + i))
      let at_ (i : Nat) : Word := ws.getD i 0
      let long (i : Nat) : Nat := (at_ (i + 1)).toNat * 65536 + (at_ i).toNat
      let before : DWord := BitVec.ofNat 32 ((m.read (h.number * 16384 + 16 * k - 1)).toNat * 65536
        + (m.read (h.number * 16384 + 16 * k - 2)).toNat)
      (k ∈ h.cutSlots m ↔ 1 ≤ k ∧ k ≤ h.last ∧ (if k < h.last then marked (at_ 0) = false
          else recordChain before ws ≠ BitVec.ofNat 32 (long 14)))
        ∧ (h.last = 0 → h.newestTime m = h.openTime)
        ∧ (k = h.last → 1 ≤ k → recordChain before ws = BitVec.ofNat 32 (long 14) → h.newestTime m = max h.openTime (long 12)))
  ∧ (∀ (clock : Nat) (hs : List Found) (h : Found) (x : Settling) (k : Nat) (o : Option (List Word)), 1 ≤ k →
      let slot (n j : Nat) : List Word := (List.range 16).map (fun i => x.mem.read (n * 16384 + 16 * j + i))
      let base := h.number * 16384 + 16 * k
      let seed : DWord := BitVec.ofNat 32 ((x.mem.read (base - 1)).toNat * 65536 + (x.mem.read (base - 2)).toNat)
      let asks (ws : List Word) : Prop := ws.getD 0 0 = Kind.load.headerWord ∨ ws.getD 0 0 = Kind.delivery.headerWord
        ∨ ws.getD 0 0 = Kind.unload.headerWord
      let put (ws : List Word) : Settling := { x with
        mem := x.mem.writeWords base ws, writes := x.writes ++ ws.mapIdx (fun i w => (base + i, w)) }
      let voids : Settling := { put (recordWords .void ((slot h.number k).drop 1 |>.take 11) clock seed) with voided := x.voided + 1 }
      let answers (req : List Word) : Settling := { put (
        if req.getD 0 0 = Kind.load.headerWord then
          recordWords .loadAck [req.getD 3 0, req.getD 4 0, 7, blank, req.getD 5 0, blank, blank, req.getD 6 0, req.getD 7 0] clock seed
        else
          recordWords .proof ([req.getD 3 0, req.getD 4 0]
            ++ (if req.getD 0 0 = Kind.delivery.headerWord then [req.getD 5 0, 0xD000, req.getD 6 0] else [0, 0xD000, 0])
            ++ [0x8000, 0, 0, 0, 0, 0]) clock seed) with completed := true }
      let above := (hs.find? (fun g => g.stream == h.stream && g.segSeq + 1 == h.segSeq)).map (fun g => slot g.number 1023)
      let req := slot h.number (k - 1)
      (2 ≤ k → asks req → Settling.settleSlot clock hs h x k = answers req)
      ∧ (2 ≤ k → ¬asks req → Settling.settleSlot clock hs h x k = voids)
      ∧ (k = 1 → h.stream = .delivery → above = o → (∀ ws, o = some ws → asks ws → Settling.settleSlot clock hs h x k = answers ws)
          ∧ ((∀ ws, o = some ws → ¬asks ws) → Settling.settleSlot clock hs h x k = voids))
      ∧ (k = 1 → h.stream ≠ .delivery → Settling.settleSlot clock hs h x k = voids))

/-- R160, R161 and R206 to R209: the end of a mount of the part's own store. The newest request without an answer is answered with
RESTART_UNANSWERED in the next slot, at its own receipt time and on its own chain, or in slot 1 of a new segment on the header's
chain (log 56); it is the stream's last record, also behind segments that hold only a header (log 64). The EVENT stream is walked
backward to the newest ROUTE_START or ROUTE_END; an unfinished route whose sheet stands is HALTED, else the route is UNRECOVERED;
its consignments are rebuilt from the answers of the DELIVERY stream, newest first. -/
def Obligations.TheMountRecoversTheRoute : Prop :=
  (∀ (m : Memory) (hs : List Found) (p : Part) (n k b : Nat) (rest : List Nat),
      let ws := (List.range 16).map (fun i => m.read (n * 16384 + 16 * k + i))
      let at_ (i : Nat) : Word := ws.getD i 0
      let asks := at_ 0 = Kind.load.headerWord ∨ at_ 0 = Kind.delivery.headerWord ∨ at_ 0 = Kind.unload.headerWord
      let time := (at_ 13).toNat * 65536 + (at_ 12).toNat
      let answer (seed : DWord) : List Word :=
        if at_ 0 = Kind.load.headerWord then
          recordWords .loadAck [at_ 3, at_ 4, 7, blank, at_ 5, blank, blank, at_ 6, at_ 7] time seed
        else
          recordWords .proof ([at_ 3, at_ 4] ++ (if at_ 0 = Kind.delivery.headerWord then [at_ 5, 0xD000, at_ 6] else [0, 0xD000, 0])
            ++ [0x8000, 0, 0, 0, 0, 0]) time seed
      let x := p.store.streams.delivery
      let words := answer x.running
      let answered : Part := { p with store := { p.store with
        direct := p.store.direct ++ [{ kind := .answer, seg := n, slot := k + 1, words := words }]
        segs := p.store.segs.modify (n - 1) (fun e => { e with
          count := some (e.count.getD 0 + 1), owed := .none, closeTime := if e.state = .opened then none else some time })
        streams := { p.store.streams with delivery := { x with
          append := some (k + 2), nextRec := x.nextRec + 1, running := recordChainField words } } } }
      (lastDelivery hs = none → p.completeNewest hs m = (p, false))
      ∧ (lastDelivery hs = some (n, k) → ¬asks → p.completeNewest hs m = (p, false))
      ∧ (lastDelivery hs = some (n, k) → asks → k < 1022 → 1 ≤ n → x.openSeg = some n → p.completeNewest hs m = (answered, true))
      ∧ (lastDelivery hs = some (n, k) → asks → k = 1023 → x.openSeg = none → p.store.pool = [] →
        p.completeNewest hs m = (p, false))
      ∧ (lastDelivery hs = some (n, k) → asks → k = 1023 → x.openSeg = none → p.store.pool = b :: rest → 1 ≤ b →
        ∃ q w, p.completeNewest hs m = (q, true) ∧ q.store.pool = rest ∧ q.store.streams.delivery.openSeg = some b
          ∧ q.store.direct = p.store.direct ++ [{ kind := .header, seg := b, slot := 0, words := w },
              { kind := .answer, seg := b, slot := 1, words := answer (recordChainField w) }]))
  ∧ (∀ (hs l : List Found) (h x : Found),
      let newest := newestOf (ofStream hs .delivery)
      let before (y : Found) := hs.find? (fun g => g.stream == y.stream && g.segSeq + 1 == y.segSeq)
      (newest = none → lastDelivery hs = none)
      ∧ (newest = some h → h.last ≠ 0 → lastDelivery hs = some (h.number, h.last))
      ∧ (newest = some h → (∀ y ∈ (h :: l).zip (l ++ [x]), y.1.last = 0 ∧ before y.1 = some y.2) → x.last ≠ 0 →
        l.length + 2 ≤ hs.length → lastDelivery hs = some (x.number, x.last))
      ∧ (newest = some h → (∀ y ∈ (h :: l).zip (l ++ [x]), y.1.last = 0 ∧ before y.1 = some y.2) → x.last = 0 →
        before x = none → lastDelivery hs = none))
  ∧ (∀ (m : Memory) (p : Part) (st : Stream) (number : BitVec 16) (fuel n : Nat) (e : SegEntry),
      let such (e : SegEntry) : Bool := e.stream == some st && e.segSeq == some number
        && (e.state == .opened || e.state == .closed || e.state == .faulted)
      (p.store.segs.all (fun e => !such e) = true → p.walkBack st m (fuel + 1) number = [])
      ∧ (1 ≤ n → p.store.segs[n - 1]? = some e → such e = true → (p.store.segs.take (n - 1)).all (fun e => !such e) = true →
        p.walkBack st m (fuel + 1) number
          = (List.range (e.count.getD 0)).map (fun j =>
              (List.range 16).map (fun i => m.read (n * 16384 + 16 * (e.count.getD 0 - j) + i)))
            ++ p.walkBack st m fuel (number - 1)))
  ∧ (∀ (m : Memory) (p : Part) (a d : List (List Word)) (r : List Word),
      let starts (ws : List Word) : Bool := wordAt ws 0 == Kind.routeStart.headerWord
      let ends (ws : List Word) : Bool := wordAt ws 0 == Kind.routeEnd.headerWord
      let read := (List.range 2032).map (fun i => m.read (16 + i))
      let sheet := Sheet.ofWords read
      let stands := crcWords 0 read = BitVec.ofNat 32 (num32At r 4) ∧ sheet.failure (wordAt r 1) = none
      let bound := (d.find? ends).map (fun ws => num32At ws 12)
      (a.all (fun ws => !starts ws && !ends ws) = true →
        (p.recordsOf .event m = a → p.recoverRoute m = (p, .none))
        ∧ (p.recordsOf .event m = a ++ r :: d → ends r = true → p.recoverRoute m = (p, .none))
        ∧ (p.recordsOf .event m = a ++ r :: d → starts r = true → ¬stands → p.recoverRoute m = (p, .unrecovered (wordAt r 1)))
        ∧ (p.recordsOf .event m = a ++ r :: d → starts r = true → stands →
          p.recoverRoute m = ({ p with
            route := { p.route with state := .halted, sheet := some sheet, held := some sheet.held
                                    check := some (BitVec.ofNat 32 (num32At r 4)), start := some (num32At r 12) }
            clock := { p.clock with mark := some p.clock.now }
            cons := (rebuildCons bound (p.recordsOf .delivery m)).foldl (fun cs e => cs.set e.1 (some e.2)) p.cons }, .halted))))
  ∧ (∀ (bound : Option Nat) (x : Rebuild) (ws req : List Word) (records : List (List Word)),
      let early : Prop := ∃ b, bound = some b ∧ num32At ws 12 < b
      let proves := wordAt ws 0 = Kind.proof.headerWord ∧ (wordAt ws 4).toNat / 4096 ≤ 6
      let loads := wordAt ws 0 = Kind.loadAck.headerWord ∧ wordAt ws 3 = 0
      let i := (wordAt ws 4).toNat
      let lower := ∀ j, x.last = some j → i < j
      rebuildCons bound records
          = ((records.zip (records.drop 1 ++ [[]])).foldl (Rebuild.take bound) { proofs := [], last := none, entries := [], ended := false }).entries
        ∧ (x.ended = true → x.take bound (ws, req) = x)
        ∧ (x.ended = false → early → x.take bound (ws, req) = { x with ended := true })
        ∧ (x.ended = false → ¬early → proves → x.take bound (ws, req) = { x with proofs := x.proofs ++ [(ws, req)] })
        ∧ (x.ended = false → ¬early → loads → lower →
          x.take bound (ws, req) = { x with
            last := some i, entries := (i, rebuildEntry ws x.proofs) :: x.entries, ended := decide (i = 0) })
        ∧ (x.ended = false → ¬early → loads → ¬lower → x.take bound (ws, req) = { x with ended := true })
        ∧ (x.ended = false → ¬early → ¬proves → ¬loads → x.take bound (ws, req) = x))
  ∧ (∀ (ack : List Word) (proofs : List (List Word × List Word)),
      let own := proofs.filter (fun x => num32At x.1 1 == num32At ack 1)
      let gone (x : List Word × List Word) : Nat :=
        if wordAt x.2 0 = Kind.delivery.headerWord ∧ (wordAt x.2 9 = 0 ∨ wordAt x.2 9 = 1) then (wordAt x.2 6).toNat else 0
      let left := (wordAt ack 8).toNat - (own.map gone).sum
      let k := rebuildEntry ack proofs
      let unit (ws : List Word) (j : Nat) : Nat := (wordAt ws j).toNat * 60
      k.id = BitVec.ofNat 32 (num32At ack 1) ∧ k.comp = (wordAt ack 5).toNat ∧ k.cls = (wordAt ack 6).toNat
        ∧ k.loaded = (wordAt ack 8).toNat ∧ k.remaining = left ∧ k.loadTime = num32At ack 12
        ∧ k.base = { excursion := 0, excess := 0, door := 0, gap := 0 }
        ∧ k.state = (if own.any (fun x => wordAt x.2 0 == Kind.unload.headerWord) then .returned
            else if left = 0 then .done else .loaded)
        ∧ (own = [] → k.flags = { Flags.clear with evidenceReset := true } ∧ k.worst = none ∧ k.openings = 0 ∧ k.dwells = 0
            ∧ k.drops = 0)
        ∧ (∀ x more, own = x :: more → k.flags = { Flags.ofWord (wordAt x.1 4) with evidenceReset := true }
            ∧ k.worst = (if -600 ≤ (wordAt x.1 6).toInt ∧ (wordAt x.1 6).toInt ≤ 600 then some (wordAt x.1 6).toInt else none)
            ∧ k.openings = (wordAt x.1 11).toNat % 256 ∧ k.dwells = (wordAt x.1 11).toNat / 256
            ∧ k.drops = (wordAt x.1 4).toNat / 512 % 8
            ∧ k.closing = (if k.state = .loaded then none
                else some { excursion := unit x.1 7, excess := unit x.1 8, door := unit x.1 9, gap := unit x.1 10 })))
  ∧ (∀ (s : State) (formatTime : Nat), s.part.power = .on → s.part.backup.mounting = true → s.port.waiting = [] →
      s.part.mode = .guarded → s.part.store.formatTime = some formatTime →
      let p := s.part
      let hs := ((List.range (p.store.nSeg - 1)).map (fun n => n + 1)).filterMap s.mem.header
      let clock := mountClock s.mem hs formatTime
      let x := settleTails clock hs s.mem
      let q : Part := { p with
        store := p.store.mounted hs x.mem, clock := { now := clock, valid := false, floor := clock, mark := none } }
      let r := (q.completeNewest hs x.mem).1
      let mem := r.store.direct.foldl (fun m e => m.writeWords (e.seg * 16384 + 16 * e.slot) e.words) x.mem
      let u := (Part.recoverRoute mem { r with store := { r.store with direct := [] } }).1
      ∃ t, exec .mountEnd s = .next t ∧ t.mem = mem ∧ t.pending = s.pending ∧ t.part.backup.mounting = false
        ∧ t.part.store = u.store ∧ t.part.route = u.route ∧ t.part.cons = u.cons ∧ t.part.clock = u.clock
        ∧ t.part.attention &&& (causeRestart ||| causeClockInvalid) = causeRestart ||| causeClockInvalid
        ∧ (t.part.store.pool.length ≤ 4 → t.part.attention &&& causeStoreLow = causeStoreLow)
        ∧ ∃ body, t.part.queue = p.queue ++ [{ stream := .event, kind := .restart, body := body, taken := none }])
end

