-- ==== Sys2Proof/Laws/Memory.lean ====
section
/-! SUPPORT. Reads after writes of the record memory, and the canonical form that every write keeps. -/

namespace Sys2Proof.Machine

/-! ## The canonical form -/

theorem Memory.wf_nil : Memory.wf [] := ⟨List.Pairwise.nil, by simp⟩

theorem Memory.wf_tail {c : Nat × Word} {m : Memory} (h : Memory.wf (c :: m)) : Memory.wf m :=
  ⟨(List.pairwise_cons.mp h.1).2, fun d hd => h.2 d (List.mem_cons_of_mem _ hd)⟩

/-- A write lists no address below both the first listed and the one written. -/
theorem Memory.write_lower {m : Memory} {a b : Nat} {w : Word} (hm : ∀ c ∈ m, b < c.1) (ha : b < a) :
    ∀ c ∈ Memory.write m a w, b < c.1 := by
  induction m with
  | nil =>
    intro c hc
    unfold Memory.write at hc
    split at hc
    · simp at hc
    · simp only [List.mem_singleton] at hc; subst hc; exact ha
  | cons d m ih =>
    obtain ⟨k, v⟩ := d
    have hk : b < k := hm (k, v) (List.mem_cons_self ..)
    have hrest : ∀ c ∈ m, b < c.1 := fun c hc => hm c (List.mem_cons_of_mem _ hc)
    intro c hc
    unfold Memory.write at hc
    split at hc
    · split at hc
      · exact hm c hc
      · rcases List.mem_cons.mp hc with rfl | hc
        · exact ha
        · exact hm c hc
    · split at hc
      · split at hc
        · exact hrest c hc
        · rcases List.mem_cons.mp hc with rfl | hc
          · exact ha
          · exact hrest c hc
      · rcases List.mem_cons.mp hc with rfl | hc
        · exact hk
        · exact ih hrest c hc

/-- A write keeps the canonical form. -/
theorem Memory.wf_write {m : Memory} (h : Memory.wf m) (a : Nat) (w : Word) : Memory.wf (Memory.write m a w) := by
  induction m with
  | nil =>
    unfold Memory.write
    split
    · exact Memory.wf_nil
    · rename_i hw
      exact ⟨List.pairwise_singleton _ _, by simpa using hw⟩
  | cons c m ih =>
    obtain ⟨k, v⟩ := c
    have hl := (List.pairwise_cons.mp h.1).1
    have ht := Memory.wf_tail h
    have hv : v ≠ blank := h.2 (k, v) (List.mem_cons_self ..)
    unfold Memory.write
    split
    · rename_i hak
      split
      · exact h
      · rename_i hw
        refine ⟨List.pairwise_cons.mpr ⟨?_, h.1⟩, ?_⟩
        · intro d hd
          rcases List.mem_cons.mp hd with rfl | hd
          · exact hak
          · exact Nat.lt_trans hak (hl d hd)
        · intro d hd
          rcases List.mem_cons.mp hd with rfl | hd
          · exact hw
          · exact h.2 d hd
    · rename_i hak
      split
      · rename_i heq
        subst heq
        split
        · exact ht
        · rename_i hw
          refine ⟨List.pairwise_cons.mpr ⟨hl, ht.1⟩, ?_⟩
          intro d hd
          rcases List.mem_cons.mp hd with rfl | hd
          · exact hw
          · exact ht.2 d hd
      · rename_i hne
        have hka : k < a := by omega
        have hw := ih ht
        refine ⟨List.pairwise_cons.mpr ⟨fun d hd => Memory.write_lower hl hka d hd, hw.1⟩, ?_⟩
        intro d hd
        rcases List.mem_cons.mp hd with rfl | hd
        · exact hv
        · exact hw.2 d hd

/-- A burst keeps the canonical form. -/
theorem Memory.wf_writeWords (ws : List Word) :
    ∀ {m : Memory}, Memory.wf m → ∀ base, Memory.wf (Memory.writeWords m base ws) := by
  induction ws with
  | nil => intro m h base; exact h
  | cons w ws ih => intro m h base; exact ih (Memory.wf_write h base w) (base + 1)

/-- Single writes keep the canonical form. -/
theorem Memory.wf_writeAll (ws : List (Nat × Word)) :
    ∀ {m : Memory}, Memory.wf m → Memory.wf (Memory.writeAll m ws) := by
  induction ws with
  | nil => intro m h; exact h
  | cons w ws ih => intro m h; exact ih (Memory.wf_write h w.1 w.2)

/-! ## Reads after writes -/

/-- A write changes no other word. -/
theorem Memory.read_write_ne {a b : Nat} (hab : b ≠ a) (w : Word) (m : Memory) :
    Memory.read (Memory.write m a w) b = Memory.read m b := by
  induction m with
  | nil =>
    unfold Memory.write
    split
    · rfl
    · simp [Memory.read, Ne.symm hab]
  | cons c m ih =>
    obtain ⟨k, v⟩ := c
    unfold Memory.write
    split
    · split
      · rfl
      · simp [Memory.read, Ne.symm hab]
    · split
      · rename_i heq
        subst heq
        split
        · simp [Memory.read, Ne.symm hab]
        · simp [Memory.read, Ne.symm hab]
      · simp only [Memory.read, ih]

/-- An address below every listed one reads the blank pattern. -/
theorem Memory.read_lower {m : Memory} {a : Nat} (h : ∀ c ∈ m, a < c.1) : Memory.read m a = blank := by
  induction m with
  | nil => rfl
  | cons c m ih =>
    obtain ⟨k, v⟩ := c
    have hk : a < k := h (k, v) (List.mem_cons_self ..)
    have hne : k ≠ a := by omega
    simp only [Memory.read, hne, if_false]
    exact ih fun c hc => h c (List.mem_cons_of_mem _ hc)

/-- A word written reads back. -/
theorem Memory.read_write_same {m : Memory} (h : Memory.wf m) (a : Nat) (w : Word) :
    Memory.read (Memory.write m a w) a = w := by
  induction m with
  | nil =>
    unfold Memory.write
    split
    · rename_i hw; simp [Memory.read, hw]
    · simp [Memory.read]
  | cons c m ih =>
    obtain ⟨k, v⟩ := c
    have hl := (List.pairwise_cons.mp h.1).1
    unfold Memory.write
    split
    · rename_i hak
      split
      · rename_i hw
        rw [hw]
        refine Memory.read_lower fun d hd => ?_
        rcases List.mem_cons.mp hd with rfl | hd
        · exact hak
        · exact Nat.lt_trans hak (hl d hd)
      · simp [Memory.read]
    · split
      · rename_i heq
        subst heq
        split
        · rename_i hw
          rw [hw]
          exact Memory.read_lower hl
        · simp [Memory.read]
      · rename_i hne
        have : k ≠ a := fun e => hne e.symm
        simp only [Memory.read, this, if_false]
        exact ih (Memory.wf_tail h)

/-- A burst changes no word outside it. -/
theorem Memory.read_writeWords_outside (ws : List Word) :
    ∀ (m : Memory) (base a : Nat), a < base ∨ base + ws.length ≤ a →
      Memory.read (Memory.writeWords m base ws) a = Memory.read m a := by
  induction ws with
  | nil => intro m base a _; rfl
  | cons w ws ih =>
    intro m base a h
    simp only [List.length_cons] at h
    show Memory.read (Memory.writeWords (Memory.write m base w) (base + 1) ws) a = _
    rw [ih _ _ _ (by omega), Memory.read_write_ne (by omega)]

/-- A burst's words read back. -/
theorem Memory.read_writeWords_inside (ws : List Word) :
    ∀ {m : Memory}, Memory.wf m → ∀ (base i : Nat) (hi : i < ws.length),
      Memory.read (Memory.writeWords m base ws) (base + i) = ws[i] := by
  induction ws with
  | nil => intro m _ base i hi; simp at hi
  | cons w ws ih =>
    intro m h base i hi
    show Memory.read (Memory.writeWords (Memory.write m base w) (base + 1) ws) (base + i) = _
    cases i with
    | zero =>
      rw [Memory.read_writeWords_outside _ _ _ _ (by omega)]
      simpa using Memory.read_write_same h base w
    | succ i =>
      have := ih (Memory.wf_write h base w) (base + 1) i (by simpa using hi)
      rw [show base + (i + 1) = base + 1 + i by omega, this]
      simp

/-- A burst reads back whole. -/
theorem Memory.readWords_writeWords {m : Memory} (h : Memory.wf m) (base : Nat) (ws : List Word) :
    Memory.readWords (Memory.writeWords m base ws) base ws.length = ws := by
  apply List.ext_getElem
  · simp [Memory.readWords]
  · intro i h₁ h₂
    simp [Memory.readWords, Memory.read_writeWords_inside ws h base i h₂]

/-- The two words of a 32-bit value give it back (R210). -/
theorem joinD_words (v : DWord) : joinD (loWord v.toNat) (hiWord v.toNat) = v := by
  apply BitVec.eq_of_toNat_eq
  simp only [joinD, join32, loWord, hiWord, BitVec.toNat_ofNat]
  have := v.isLt
  omega

/-- Single writes change no word that none of them names. -/
theorem Memory.read_writeAll_outside (ws : List (Nat × Word)) :
    ∀ (m : Memory) (a : Nat), (∀ w ∈ ws, w.1 ≠ a) → Memory.read (Memory.writeAll m ws) a = Memory.read m a := by
  induction ws with
  | nil => intro m a _; rfl
  | cons w ws ih =>
    intro m a h
    show Memory.read (Memory.writeAll (Memory.write m w.1 w.2) ws) a = _
    rw [ih _ _ fun v hv => h v (List.mem_cons_of_mem _ hv),
      Memory.read_write_ne fun e => h w (List.mem_cons_self ..) e.symm]

/-- Equal memories are equal data: two canonical memories that read alike are the same list. -/
theorem Memory.ext_read {m : Memory} (hm : Memory.wf m) :
    ∀ {n : Memory}, Memory.wf n → (∀ a, Memory.read m a = Memory.read n a) → m = n := by
  induction m with
  | nil =>
    intro n hn h
    cases n with
    | nil => rfl
    | cons c n =>
      have := h c.1
      simp [Memory.read] at this
      exact absurd this.symm (hn.2 c (List.mem_cons_self ..))
  | cons c m ih =>
    obtain ⟨k, v⟩ := c
    have hl := (List.pairwise_cons.mp hm.1).1
    have hv : v ≠ blank := hm.2 (k, v) (List.mem_cons_self ..)
    intro n hn h
    cases n with
    | nil =>
      have := h k
      simp [Memory.read] at this
      exact absurd this hv
    | cons d n =>
      obtain ⟨j, u⟩ := d
      have hl' := (List.pairwise_cons.mp hn.1).1
      have hu : u ≠ blank := hn.2 (j, u) (List.mem_cons_self ..)
      have hkj : k = j := by
        rcases Nat.lt_trichotomy k j with hlt | heq | hgt
        · have h1 := h k
          rw [Memory.read_lower (m := (j, u) :: n) (a := k) (by
            intro e he
            rcases List.mem_cons.mp he with rfl | he
            · exact hlt
            · exact Nat.lt_trans hlt (hl' e he))] at h1
          simp [Memory.read] at h1
          exact absurd h1 hv
        · exact heq
        · have h1 := h j
          rw [Memory.read_lower (m := (k, v) :: m) (a := j) (by
            intro e he
            rcases List.mem_cons.mp he with rfl | he
            · exact hgt
            · exact Nat.lt_trans hgt (hl e he))] at h1
          simp [Memory.read] at h1
          exact absurd h1.symm hu
      subst hkj
      have hvu : v = u := by simpa [Memory.read] using h k
      subst hvu
      congr 1
      refine ih (Memory.wf_tail hm) (Memory.wf_tail hn) fun a => ?_
      by_cases ha : k = a
      · subst ha
        rw [Memory.read_lower hl, Memory.read_lower hl']
      · simpa [Memory.read, ha] using h a

end Sys2Proof.Machine
end

