-- ==== Sys2Proof/Laws/State.lean ====
section
/-! SUPPORT. What each named update of the part or of the state leaves in every field: a lemma per field, each by `rfl`. A field
whose new value is its update's own business has no lemma here. -/

namespace Sys2Proof.Machine

/-! ### Part.raise -/

@[simp] theorem Part.raise_power (p : Part) (c : Word) : (p.raise c).power = p.power := rfl
@[simp] theorem Part.raise_pins (p : Part) (c : Word) : (p.raise c).pins = p.pins := rfl
@[simp] theorem Part.raise_backup (p : Part) (c : Word) : (p.raise c).backup = p.backup := rfl
@[simp] theorem Part.raise_freeCount (p : Part) (c : Word) : (p.raise c).freeCount = p.freeCount := rfl
@[simp] theorem Part.raise_arb (p : Part) (c : Word) : (p.raise c).arb = p.arb := rfl
@[simp] theorem Part.raise_chan (p : Part) (c : Word) : (p.raise c).chan = p.chan := rfl
@[simp] theorem Part.raise_attention (p : Part) (c : Word) : (p.raise c).attention = p.attention ||| c := rfl
@[simp] theorem Part.raise_refusals (p : Part) (c : Word) : (p.raise c).refusals = p.refusals := rfl
@[simp] theorem Part.raise_mode (p : Part) (c : Word) : (p.raise c).mode = p.mode := rfl
@[simp] theorem Part.raise_store (p : Part) (c : Word) : (p.raise c).store = p.store := rfl
@[simp] theorem Part.raise_queue (p : Part) (c : Word) : (p.raise c).queue = p.queue := rfl
@[simp] theorem Part.raise_asm (p : Part) (c : Word) : (p.raise c).asm = p.asm := rfl
@[simp] theorem Part.raise_route (p : Part) (c : Word) : (p.raise c).route = p.route := rfl
@[simp] theorem Part.raise_clock (p : Part) (c : Word) : (p.raise c).clock = p.clock := rfl
@[simp] theorem Part.raise_ctxs (p : Part) (c : Word) : (p.raise c).ctxs = p.ctxs := rfl
@[simp] theorem Part.raise_scan (p : Part) (c : Word) : (p.raise c).scan = p.scan := rfl
@[simp] theorem Part.raise_cons (p : Part) (c : Word) : (p.raise c).cons = p.cons := rfl
@[simp] theorem Part.raise_claims (p : Part) (c : Word) : (p.raise c).claims = p.claims := rfl
@[simp] theorem Part.raise_claimQueue (p : Part) (c : Word) : (p.raise c).claimQueue = p.claimQueue := rfl
@[simp] theorem Part.raise_verify (p : Part) (c : Word) : (p.raise c).verify = p.verify := rfl
@[simp] theorem Part.raise_retire (p : Part) (c : Word) : (p.raise c).retire = p.retire := rfl
@[simp] theorem Part.raise_scrub (p : Part) (c : Word) : (p.raise c).scrub = p.scrub := rfl

/-! ### Part.modStream -/

@[simp] theorem Part.modStream_power (p : Part) (st : Stream) (f : StreamEntry → StreamEntry) : (p.modStream st f).power = p.power := rfl
@[simp] theorem Part.modStream_pins (p : Part) (st : Stream) (f : StreamEntry → StreamEntry) : (p.modStream st f).pins = p.pins := rfl
@[simp] theorem Part.modStream_backup (p : Part) (st : Stream) (f : StreamEntry → StreamEntry) : (p.modStream st f).backup = p.backup := rfl
@[simp] theorem Part.modStream_freeCount (p : Part) (st : Stream) (f : StreamEntry → StreamEntry) : (p.modStream st f).freeCount = p.freeCount := rfl
@[simp] theorem Part.modStream_arb (p : Part) (st : Stream) (f : StreamEntry → StreamEntry) : (p.modStream st f).arb = p.arb := rfl
@[simp] theorem Part.modStream_chan (p : Part) (st : Stream) (f : StreamEntry → StreamEntry) : (p.modStream st f).chan = p.chan := rfl
@[simp] theorem Part.modStream_attention (p : Part) (st : Stream) (f : StreamEntry → StreamEntry) : (p.modStream st f).attention = p.attention := rfl
@[simp] theorem Part.modStream_refusals (p : Part) (st : Stream) (f : StreamEntry → StreamEntry) : (p.modStream st f).refusals = p.refusals := rfl
@[simp] theorem Part.modStream_mode (p : Part) (st : Stream) (f : StreamEntry → StreamEntry) : (p.modStream st f).mode = p.mode := rfl
@[simp] theorem Part.modStream_store (p : Part) (st : Stream) (f : StreamEntry → StreamEntry) : (p.modStream st f).store = { p.store with streams := p.store.streams.set st (f (p.store.streams.get st)) } := rfl
@[simp] theorem Part.modStream_queue (p : Part) (st : Stream) (f : StreamEntry → StreamEntry) : (p.modStream st f).queue = p.queue := rfl
@[simp] theorem Part.modStream_asm (p : Part) (st : Stream) (f : StreamEntry → StreamEntry) : (p.modStream st f).asm = p.asm := rfl
@[simp] theorem Part.modStream_route (p : Part) (st : Stream) (f : StreamEntry → StreamEntry) : (p.modStream st f).route = p.route := rfl
@[simp] theorem Part.modStream_clock (p : Part) (st : Stream) (f : StreamEntry → StreamEntry) : (p.modStream st f).clock = p.clock := rfl
@[simp] theorem Part.modStream_ctxs (p : Part) (st : Stream) (f : StreamEntry → StreamEntry) : (p.modStream st f).ctxs = p.ctxs := rfl
@[simp] theorem Part.modStream_scan (p : Part) (st : Stream) (f : StreamEntry → StreamEntry) : (p.modStream st f).scan = p.scan := rfl
@[simp] theorem Part.modStream_cons (p : Part) (st : Stream) (f : StreamEntry → StreamEntry) : (p.modStream st f).cons = p.cons := rfl
@[simp] theorem Part.modStream_claims (p : Part) (st : Stream) (f : StreamEntry → StreamEntry) : (p.modStream st f).claims = p.claims := rfl
@[simp] theorem Part.modStream_claimQueue (p : Part) (st : Stream) (f : StreamEntry → StreamEntry) : (p.modStream st f).claimQueue = p.claimQueue := rfl
@[simp] theorem Part.modStream_verify (p : Part) (st : Stream) (f : StreamEntry → StreamEntry) : (p.modStream st f).verify = p.verify := rfl
@[simp] theorem Part.modStream_retire (p : Part) (st : Stream) (f : StreamEntry → StreamEntry) : (p.modStream st f).retire = p.retire := rfl
@[simp] theorem Part.modStream_scrub (p : Part) (st : Stream) (f : StreamEntry → StreamEntry) : (p.modStream st f).scrub = p.scrub := rfl

/-! ### Part.noteReceipt -/

@[simp] theorem Part.noteReceipt_power (p : Part) (t : Nat) : (p.noteReceipt t).power = p.power := rfl
@[simp] theorem Part.noteReceipt_pins (p : Part) (t : Nat) : (p.noteReceipt t).pins = p.pins := rfl
@[simp] theorem Part.noteReceipt_backup (p : Part) (t : Nat) : (p.noteReceipt t).backup = p.backup := rfl
@[simp] theorem Part.noteReceipt_freeCount (p : Part) (t : Nat) : (p.noteReceipt t).freeCount = p.freeCount := rfl
@[simp] theorem Part.noteReceipt_arb (p : Part) (t : Nat) : (p.noteReceipt t).arb = p.arb := rfl
@[simp] theorem Part.noteReceipt_chan (p : Part) (t : Nat) : (p.noteReceipt t).chan = p.chan := rfl
@[simp] theorem Part.noteReceipt_attention (p : Part) (t : Nat) : (p.noteReceipt t).attention = p.attention := rfl
@[simp] theorem Part.noteReceipt_refusals (p : Part) (t : Nat) : (p.noteReceipt t).refusals = p.refusals := rfl
@[simp] theorem Part.noteReceipt_mode (p : Part) (t : Nat) : (p.noteReceipt t).mode = p.mode := rfl
@[simp] theorem Part.noteReceipt_store (p : Part) (t : Nat) : (p.noteReceipt t).store = p.store := rfl
@[simp] theorem Part.noteReceipt_queue (p : Part) (t : Nat) : (p.noteReceipt t).queue = p.queue := rfl
@[simp] theorem Part.noteReceipt_asm (p : Part) (t : Nat) : (p.noteReceipt t).asm = p.asm := rfl
@[simp] theorem Part.noteReceipt_route (p : Part) (t : Nat) : (p.noteReceipt t).route = p.route := rfl
@[simp] theorem Part.noteReceipt_clock (p : Part) (t : Nat) : (p.noteReceipt t).clock = { p.clock with floor := max p.clock.floor t } := rfl
@[simp] theorem Part.noteReceipt_ctxs (p : Part) (t : Nat) : (p.noteReceipt t).ctxs = p.ctxs := rfl
@[simp] theorem Part.noteReceipt_scan (p : Part) (t : Nat) : (p.noteReceipt t).scan = p.scan := rfl
@[simp] theorem Part.noteReceipt_cons (p : Part) (t : Nat) : (p.noteReceipt t).cons = p.cons := rfl
@[simp] theorem Part.noteReceipt_claims (p : Part) (t : Nat) : (p.noteReceipt t).claims = p.claims := rfl
@[simp] theorem Part.noteReceipt_claimQueue (p : Part) (t : Nat) : (p.noteReceipt t).claimQueue = p.claimQueue := rfl
@[simp] theorem Part.noteReceipt_verify (p : Part) (t : Nat) : (p.noteReceipt t).verify = p.verify := rfl
@[simp] theorem Part.noteReceipt_retire (p : Part) (t : Nat) : (p.noteReceipt t).retire = p.retire := rfl
@[simp] theorem Part.noteReceipt_scrub (p : Part) (t : Nat) : (p.noteReceipt t).scrub = p.scrub := rfl

/-! ### Part.pushDirect -/

@[simp] theorem Part.pushDirect_power (p : Part) (e : DirectEntry) : (p.pushDirect e).power = p.power := rfl
@[simp] theorem Part.pushDirect_pins (p : Part) (e : DirectEntry) : (p.pushDirect e).pins = p.pins := rfl
@[simp] theorem Part.pushDirect_backup (p : Part) (e : DirectEntry) : (p.pushDirect e).backup = p.backup := rfl
@[simp] theorem Part.pushDirect_freeCount (p : Part) (e : DirectEntry) : (p.pushDirect e).freeCount = p.freeCount := rfl
@[simp] theorem Part.pushDirect_arb (p : Part) (e : DirectEntry) : (p.pushDirect e).arb = p.arb := rfl
@[simp] theorem Part.pushDirect_chan (p : Part) (e : DirectEntry) : (p.pushDirect e).chan = p.chan := rfl
@[simp] theorem Part.pushDirect_attention (p : Part) (e : DirectEntry) : (p.pushDirect e).attention = p.attention := rfl
@[simp] theorem Part.pushDirect_refusals (p : Part) (e : DirectEntry) : (p.pushDirect e).refusals = p.refusals := rfl
@[simp] theorem Part.pushDirect_mode (p : Part) (e : DirectEntry) : (p.pushDirect e).mode = p.mode := rfl
@[simp] theorem Part.pushDirect_store (p : Part) (e : DirectEntry) : (p.pushDirect e).store = { p.store with direct := p.store.direct ++ [e] } := rfl
@[simp] theorem Part.pushDirect_queue (p : Part) (e : DirectEntry) : (p.pushDirect e).queue = p.queue := rfl
@[simp] theorem Part.pushDirect_asm (p : Part) (e : DirectEntry) : (p.pushDirect e).asm = p.asm := rfl
@[simp] theorem Part.pushDirect_route (p : Part) (e : DirectEntry) : (p.pushDirect e).route = p.route := rfl
@[simp] theorem Part.pushDirect_clock (p : Part) (e : DirectEntry) : (p.pushDirect e).clock = p.clock := rfl
@[simp] theorem Part.pushDirect_ctxs (p : Part) (e : DirectEntry) : (p.pushDirect e).ctxs = p.ctxs := rfl
@[simp] theorem Part.pushDirect_scan (p : Part) (e : DirectEntry) : (p.pushDirect e).scan = p.scan := rfl
@[simp] theorem Part.pushDirect_cons (p : Part) (e : DirectEntry) : (p.pushDirect e).cons = p.cons := rfl
@[simp] theorem Part.pushDirect_claims (p : Part) (e : DirectEntry) : (p.pushDirect e).claims = p.claims := rfl
@[simp] theorem Part.pushDirect_claimQueue (p : Part) (e : DirectEntry) : (p.pushDirect e).claimQueue = p.claimQueue := rfl
@[simp] theorem Part.pushDirect_verify (p : Part) (e : DirectEntry) : (p.pushDirect e).verify = p.verify := rfl
@[simp] theorem Part.pushDirect_retire (p : Part) (e : DirectEntry) : (p.pushDirect e).retire = p.retire := rfl
@[simp] theorem Part.pushDirect_scrub (p : Part) (e : DirectEntry) : (p.pushDirect e).scrub = p.scrub := rfl

/-! ### Part.modCtx -/

@[simp] theorem Part.modCtx_power (p : Part) (c : Nat) (f : Ctx → Ctx) : (p.modCtx c f).power = p.power := rfl
@[simp] theorem Part.modCtx_pins (p : Part) (c : Nat) (f : Ctx → Ctx) : (p.modCtx c f).pins = p.pins := rfl
@[simp] theorem Part.modCtx_backup (p : Part) (c : Nat) (f : Ctx → Ctx) : (p.modCtx c f).backup = p.backup := rfl
@[simp] theorem Part.modCtx_freeCount (p : Part) (c : Nat) (f : Ctx → Ctx) : (p.modCtx c f).freeCount = p.freeCount := rfl
@[simp] theorem Part.modCtx_arb (p : Part) (c : Nat) (f : Ctx → Ctx) : (p.modCtx c f).arb = p.arb := rfl
@[simp] theorem Part.modCtx_chan (p : Part) (c : Nat) (f : Ctx → Ctx) : (p.modCtx c f).chan = p.chan := rfl
@[simp] theorem Part.modCtx_attention (p : Part) (c : Nat) (f : Ctx → Ctx) : (p.modCtx c f).attention = p.attention := rfl
@[simp] theorem Part.modCtx_refusals (p : Part) (c : Nat) (f : Ctx → Ctx) : (p.modCtx c f).refusals = p.refusals := rfl
@[simp] theorem Part.modCtx_mode (p : Part) (c : Nat) (f : Ctx → Ctx) : (p.modCtx c f).mode = p.mode := rfl
@[simp] theorem Part.modCtx_store (p : Part) (c : Nat) (f : Ctx → Ctx) : (p.modCtx c f).store = p.store := rfl
@[simp] theorem Part.modCtx_queue (p : Part) (c : Nat) (f : Ctx → Ctx) : (p.modCtx c f).queue = p.queue := rfl
@[simp] theorem Part.modCtx_asm (p : Part) (c : Nat) (f : Ctx → Ctx) : (p.modCtx c f).asm = p.asm := rfl
@[simp] theorem Part.modCtx_route (p : Part) (c : Nat) (f : Ctx → Ctx) : (p.modCtx c f).route = p.route := rfl
@[simp] theorem Part.modCtx_clock (p : Part) (c : Nat) (f : Ctx → Ctx) : (p.modCtx c f).clock = p.clock := rfl
@[simp] theorem Part.modCtx_ctxs (p : Part) (c : Nat) (f : Ctx → Ctx) : (p.modCtx c f).ctxs = p.ctxs.modify c f := rfl
@[simp] theorem Part.modCtx_scan (p : Part) (c : Nat) (f : Ctx → Ctx) : (p.modCtx c f).scan = p.scan := rfl
@[simp] theorem Part.modCtx_cons (p : Part) (c : Nat) (f : Ctx → Ctx) : (p.modCtx c f).cons = p.cons := rfl
@[simp] theorem Part.modCtx_claims (p : Part) (c : Nat) (f : Ctx → Ctx) : (p.modCtx c f).claims = p.claims := rfl
@[simp] theorem Part.modCtx_claimQueue (p : Part) (c : Nat) (f : Ctx → Ctx) : (p.modCtx c f).claimQueue = p.claimQueue := rfl
@[simp] theorem Part.modCtx_verify (p : Part) (c : Nat) (f : Ctx → Ctx) : (p.modCtx c f).verify = p.verify := rfl
@[simp] theorem Part.modCtx_retire (p : Part) (c : Nat) (f : Ctx → Ctx) : (p.modCtx c f).retire = p.retire := rfl
@[simp] theorem Part.modCtx_scrub (p : Part) (c : Nat) (f : Ctx → Ctx) : (p.modCtx c f).scrub = p.scrub := rfl

/-! ### Part.modCons -/

@[simp] theorem Part.modCons_power (p : Part) (i : Nat) (f : Consignment → Consignment) : (p.modCons i f).power = p.power := rfl
@[simp] theorem Part.modCons_pins (p : Part) (i : Nat) (f : Consignment → Consignment) : (p.modCons i f).pins = p.pins := rfl
@[simp] theorem Part.modCons_backup (p : Part) (i : Nat) (f : Consignment → Consignment) : (p.modCons i f).backup = p.backup := rfl
@[simp] theorem Part.modCons_freeCount (p : Part) (i : Nat) (f : Consignment → Consignment) : (p.modCons i f).freeCount = p.freeCount := rfl
@[simp] theorem Part.modCons_arb (p : Part) (i : Nat) (f : Consignment → Consignment) : (p.modCons i f).arb = p.arb := rfl
@[simp] theorem Part.modCons_chan (p : Part) (i : Nat) (f : Consignment → Consignment) : (p.modCons i f).chan = p.chan := rfl
@[simp] theorem Part.modCons_attention (p : Part) (i : Nat) (f : Consignment → Consignment) : (p.modCons i f).attention = p.attention := rfl
@[simp] theorem Part.modCons_refusals (p : Part) (i : Nat) (f : Consignment → Consignment) : (p.modCons i f).refusals = p.refusals := rfl
@[simp] theorem Part.modCons_mode (p : Part) (i : Nat) (f : Consignment → Consignment) : (p.modCons i f).mode = p.mode := rfl
@[simp] theorem Part.modCons_store (p : Part) (i : Nat) (f : Consignment → Consignment) : (p.modCons i f).store = p.store := rfl
@[simp] theorem Part.modCons_queue (p : Part) (i : Nat) (f : Consignment → Consignment) : (p.modCons i f).queue = p.queue := rfl
@[simp] theorem Part.modCons_asm (p : Part) (i : Nat) (f : Consignment → Consignment) : (p.modCons i f).asm = p.asm := rfl
@[simp] theorem Part.modCons_route (p : Part) (i : Nat) (f : Consignment → Consignment) : (p.modCons i f).route = p.route := rfl
@[simp] theorem Part.modCons_clock (p : Part) (i : Nat) (f : Consignment → Consignment) : (p.modCons i f).clock = p.clock := rfl
@[simp] theorem Part.modCons_ctxs (p : Part) (i : Nat) (f : Consignment → Consignment) : (p.modCons i f).ctxs = p.ctxs := rfl
@[simp] theorem Part.modCons_scan (p : Part) (i : Nat) (f : Consignment → Consignment) : (p.modCons i f).scan = p.scan := rfl
@[simp] theorem Part.modCons_cons (p : Part) (i : Nat) (f : Consignment → Consignment) : (p.modCons i f).cons = p.cons.modify i (fun o => o.map f) := rfl
@[simp] theorem Part.modCons_claims (p : Part) (i : Nat) (f : Consignment → Consignment) : (p.modCons i f).claims = p.claims := rfl
@[simp] theorem Part.modCons_claimQueue (p : Part) (i : Nat) (f : Consignment → Consignment) : (p.modCons i f).claimQueue = p.claimQueue := rfl
@[simp] theorem Part.modCons_verify (p : Part) (i : Nat) (f : Consignment → Consignment) : (p.modCons i f).verify = p.verify := rfl
@[simp] theorem Part.modCons_retire (p : Part) (i : Nat) (f : Consignment → Consignment) : (p.modCons i f).retire = p.retire := rfl
@[simp] theorem Part.modCons_scrub (p : Part) (i : Nat) (f : Consignment → Consignment) : (p.modCons i f).scrub = p.scrub := rfl

/-! ### Part.mapLoaded -/

@[simp] theorem Part.mapLoaded_power (p : Part) (sel : Consignment → Bool) (f : Consignment → Consignment) : (p.mapLoaded sel f).power = p.power := rfl
@[simp] theorem Part.mapLoaded_pins (p : Part) (sel : Consignment → Bool) (f : Consignment → Consignment) : (p.mapLoaded sel f).pins = p.pins := rfl
@[simp] theorem Part.mapLoaded_backup (p : Part) (sel : Consignment → Bool) (f : Consignment → Consignment) : (p.mapLoaded sel f).backup = p.backup := rfl
@[simp] theorem Part.mapLoaded_freeCount (p : Part) (sel : Consignment → Bool) (f : Consignment → Consignment) : (p.mapLoaded sel f).freeCount = p.freeCount := rfl
@[simp] theorem Part.mapLoaded_arb (p : Part) (sel : Consignment → Bool) (f : Consignment → Consignment) : (p.mapLoaded sel f).arb = p.arb := rfl
@[simp] theorem Part.mapLoaded_chan (p : Part) (sel : Consignment → Bool) (f : Consignment → Consignment) : (p.mapLoaded sel f).chan = p.chan := rfl
@[simp] theorem Part.mapLoaded_attention (p : Part) (sel : Consignment → Bool) (f : Consignment → Consignment) : (p.mapLoaded sel f).attention = p.attention := rfl
@[simp] theorem Part.mapLoaded_refusals (p : Part) (sel : Consignment → Bool) (f : Consignment → Consignment) : (p.mapLoaded sel f).refusals = p.refusals := rfl
@[simp] theorem Part.mapLoaded_mode (p : Part) (sel : Consignment → Bool) (f : Consignment → Consignment) : (p.mapLoaded sel f).mode = p.mode := rfl
@[simp] theorem Part.mapLoaded_store (p : Part) (sel : Consignment → Bool) (f : Consignment → Consignment) : (p.mapLoaded sel f).store = p.store := rfl
@[simp] theorem Part.mapLoaded_queue (p : Part) (sel : Consignment → Bool) (f : Consignment → Consignment) : (p.mapLoaded sel f).queue = p.queue := rfl
@[simp] theorem Part.mapLoaded_asm (p : Part) (sel : Consignment → Bool) (f : Consignment → Consignment) : (p.mapLoaded sel f).asm = p.asm := rfl
@[simp] theorem Part.mapLoaded_route (p : Part) (sel : Consignment → Bool) (f : Consignment → Consignment) : (p.mapLoaded sel f).route = p.route := rfl
@[simp] theorem Part.mapLoaded_clock (p : Part) (sel : Consignment → Bool) (f : Consignment → Consignment) : (p.mapLoaded sel f).clock = p.clock := rfl
@[simp] theorem Part.mapLoaded_ctxs (p : Part) (sel : Consignment → Bool) (f : Consignment → Consignment) : (p.mapLoaded sel f).ctxs = p.ctxs := rfl
@[simp] theorem Part.mapLoaded_scan (p : Part) (sel : Consignment → Bool) (f : Consignment → Consignment) : (p.mapLoaded sel f).scan = p.scan := rfl
@[simp] theorem Part.mapLoaded_cons (p : Part) (sel : Consignment → Bool) (f : Consignment → Consignment) : (p.mapLoaded sel f).cons = p.cons.map (fun o => o.map (fun k => if k.isLoaded && sel k then f k else k)) := rfl
@[simp] theorem Part.mapLoaded_claims (p : Part) (sel : Consignment → Bool) (f : Consignment → Consignment) : (p.mapLoaded sel f).claims = p.claims := rfl
@[simp] theorem Part.mapLoaded_claimQueue (p : Part) (sel : Consignment → Bool) (f : Consignment → Consignment) : (p.mapLoaded sel f).claimQueue = p.claimQueue := rfl
@[simp] theorem Part.mapLoaded_verify (p : Part) (sel : Consignment → Bool) (f : Consignment → Consignment) : (p.mapLoaded sel f).verify = p.verify := rfl
@[simp] theorem Part.mapLoaded_retire (p : Part) (sel : Consignment → Bool) (f : Consignment → Consignment) : (p.mapLoaded sel f).retire = p.retire := rfl
@[simp] theorem Part.mapLoaded_scrub (p : Part) (sel : Consignment → Bool) (f : Consignment → Consignment) : (p.mapLoaded sel f).scrub = p.scrub := rfl

/-! ### Part.withhold -/

@[simp] theorem Part.withhold_power (p : Part) (c : Nat) : (p.withhold c).power = p.power := rfl
@[simp] theorem Part.withhold_pins (p : Part) (c : Nat) : (p.withhold c).pins = p.pins := rfl
@[simp] theorem Part.withhold_backup (p : Part) (c : Nat) : (p.withhold c).backup = p.backup := rfl
@[simp] theorem Part.withhold_freeCount (p : Part) (c : Nat) : (p.withhold c).freeCount = p.freeCount := rfl
@[simp] theorem Part.withhold_arb (p : Part) (c : Nat) : (p.withhold c).arb = p.arb := rfl
@[simp] theorem Part.withhold_chan (p : Part) (c : Nat) : (p.withhold c).chan = p.chan := rfl
@[simp] theorem Part.withhold_attention (p : Part) (c : Nat) : (p.withhold c).attention = p.attention := rfl
@[simp] theorem Part.withhold_refusals (p : Part) (c : Nat) : (p.withhold c).refusals = p.refusals := rfl
@[simp] theorem Part.withhold_mode (p : Part) (c : Nat) : (p.withhold c).mode = p.mode := rfl
@[simp] theorem Part.withhold_store (p : Part) (c : Nat) : (p.withhold c).store = p.store := rfl
@[simp] theorem Part.withhold_queue (p : Part) (c : Nat) : (p.withhold c).queue = p.queue := rfl
@[simp] theorem Part.withhold_asm (p : Part) (c : Nat) : (p.withhold c).asm = p.asm := rfl
@[simp] theorem Part.withhold_route (p : Part) (c : Nat) : (p.withhold c).route = p.route := rfl
@[simp] theorem Part.withhold_clock (p : Part) (c : Nat) : (p.withhold c).clock = p.clock := rfl
@[simp] theorem Part.withhold_scan (p : Part) (c : Nat) : (p.withhold c).scan = p.scan := rfl
@[simp] theorem Part.withhold_claims (p : Part) (c : Nat) : (p.withhold c).claims = p.claims := rfl
@[simp] theorem Part.withhold_claimQueue (p : Part) (c : Nat) : (p.withhold c).claimQueue = p.claimQueue := rfl
@[simp] theorem Part.withhold_verify (p : Part) (c : Nat) : (p.withhold c).verify = p.verify := rfl
@[simp] theorem Part.withhold_retire (p : Part) (c : Nat) : (p.withhold c).retire = p.retire := rfl
@[simp] theorem Part.withhold_scrub (p : Part) (c : Nat) : (p.withhold c).scrub = p.scrub := rfl

/-! ### Part.modSlot -/

@[simp] theorem Part.modSlot_power (p : Part) (k : Nat) (f : Slot → Slot) : (p.modSlot k f).power = p.power := rfl
@[simp] theorem Part.modSlot_pins (p : Part) (k : Nat) (f : Slot → Slot) : (p.modSlot k f).pins = p.pins := rfl
@[simp] theorem Part.modSlot_backup (p : Part) (k : Nat) (f : Slot → Slot) : (p.modSlot k f).backup = p.backup := rfl
@[simp] theorem Part.modSlot_freeCount (p : Part) (k : Nat) (f : Slot → Slot) : (p.modSlot k f).freeCount = p.freeCount := rfl
@[simp] theorem Part.modSlot_arb (p : Part) (k : Nat) (f : Slot → Slot) : (p.modSlot k f).arb = p.arb := rfl
@[simp] theorem Part.modSlot_chan (p : Part) (k : Nat) (f : Slot → Slot) : (p.modSlot k f).chan = p.chan := rfl
@[simp] theorem Part.modSlot_attention (p : Part) (k : Nat) (f : Slot → Slot) : (p.modSlot k f).attention = p.attention := rfl
@[simp] theorem Part.modSlot_refusals (p : Part) (k : Nat) (f : Slot → Slot) : (p.modSlot k f).refusals = p.refusals := rfl
@[simp] theorem Part.modSlot_mode (p : Part) (k : Nat) (f : Slot → Slot) : (p.modSlot k f).mode = p.mode := rfl
@[simp] theorem Part.modSlot_store (p : Part) (k : Nat) (f : Slot → Slot) : (p.modSlot k f).store = p.store := rfl
@[simp] theorem Part.modSlot_queue (p : Part) (k : Nat) (f : Slot → Slot) : (p.modSlot k f).queue = p.queue := rfl
@[simp] theorem Part.modSlot_asm (p : Part) (k : Nat) (f : Slot → Slot) : (p.modSlot k f).asm = p.asm := rfl
@[simp] theorem Part.modSlot_route (p : Part) (k : Nat) (f : Slot → Slot) : (p.modSlot k f).route = p.route := rfl
@[simp] theorem Part.modSlot_clock (p : Part) (k : Nat) (f : Slot → Slot) : (p.modSlot k f).clock = p.clock := rfl
@[simp] theorem Part.modSlot_ctxs (p : Part) (k : Nat) (f : Slot → Slot) : (p.modSlot k f).ctxs = p.ctxs := rfl
@[simp] theorem Part.modSlot_scan (p : Part) (k : Nat) (f : Slot → Slot) : (p.modSlot k f).scan = { p.scan with slots := p.scan.slots.modify k f } := rfl
@[simp] theorem Part.modSlot_cons (p : Part) (k : Nat) (f : Slot → Slot) : (p.modSlot k f).cons = p.cons := rfl
@[simp] theorem Part.modSlot_claims (p : Part) (k : Nat) (f : Slot → Slot) : (p.modSlot k f).claims = p.claims := rfl
@[simp] theorem Part.modSlot_claimQueue (p : Part) (k : Nat) (f : Slot → Slot) : (p.modSlot k f).claimQueue = p.claimQueue := rfl
@[simp] theorem Part.modSlot_verify (p : Part) (k : Nat) (f : Slot → Slot) : (p.modSlot k f).verify = p.verify := rfl
@[simp] theorem Part.modSlot_retire (p : Part) (k : Nat) (f : Slot → Slot) : (p.modSlot k f).retire = p.retire := rfl
@[simp] theorem Part.modSlot_scrub (p : Part) (k : Nat) (f : Slot → Slot) : (p.modSlot k f).scrub = p.scrub := rfl

/-! ### Part.freeze -/

@[simp] theorem Part.freeze_power (p : Part) : (p.freeze).power = p.power := rfl
@[simp] theorem Part.freeze_pins (p : Part) : (p.freeze).pins = p.pins := rfl
@[simp] theorem Part.freeze_backup (p : Part) : (p.freeze).backup = p.backup := rfl
@[simp] theorem Part.freeze_freeCount (p : Part) : (p.freeze).freeCount = p.freeCount := rfl
@[simp] theorem Part.freeze_arb (p : Part) : (p.freeze).arb = p.arb := rfl
@[simp] theorem Part.freeze_chan (p : Part) : (p.freeze).chan = p.chan := rfl
@[simp] theorem Part.freeze_attention (p : Part) : (p.freeze).attention = p.attention ||| causeScanFrozen := rfl
@[simp] theorem Part.freeze_refusals (p : Part) : (p.freeze).refusals = p.refusals := rfl
@[simp] theorem Part.freeze_mode (p : Part) : (p.freeze).mode = p.mode := rfl
@[simp] theorem Part.freeze_store (p : Part) : (p.freeze).store = p.store := rfl
@[simp] theorem Part.freeze_queue (p : Part) : (p.freeze).queue = p.queue := rfl
@[simp] theorem Part.freeze_asm (p : Part) : (p.freeze).asm = p.asm := rfl
@[simp] theorem Part.freeze_route (p : Part) : (p.freeze).route = p.route := rfl
@[simp] theorem Part.freeze_clock (p : Part) : (p.freeze).clock = p.clock := rfl
@[simp] theorem Part.freeze_ctxs (p : Part) : (p.freeze).ctxs = p.ctxs := rfl
@[simp] theorem Part.freeze_cons (p : Part) : (p.freeze).cons = p.cons := rfl
@[simp] theorem Part.freeze_claims (p : Part) : (p.freeze).claims = p.claims := rfl
@[simp] theorem Part.freeze_claimQueue (p : Part) : (p.freeze).claimQueue = p.claimQueue := rfl
@[simp] theorem Part.freeze_verify (p : Part) : (p.freeze).verify = p.verify := rfl
@[simp] theorem Part.freeze_retire (p : Part) : (p.freeze).retire = p.retire := rfl
@[simp] theorem Part.freeze_scrub (p : Part) : (p.freeze).scrub = p.scrub := rfl

/-! ### Part.modClaim -/

@[simp] theorem Part.modClaim_power (p : Part) (i : Nat) (f : Claim → Claim) : (p.modClaim i f).power = p.power := rfl
@[simp] theorem Part.modClaim_pins (p : Part) (i : Nat) (f : Claim → Claim) : (p.modClaim i f).pins = p.pins := rfl
@[simp] theorem Part.modClaim_backup (p : Part) (i : Nat) (f : Claim → Claim) : (p.modClaim i f).backup = p.backup := rfl
@[simp] theorem Part.modClaim_freeCount (p : Part) (i : Nat) (f : Claim → Claim) : (p.modClaim i f).freeCount = p.freeCount := rfl
@[simp] theorem Part.modClaim_arb (p : Part) (i : Nat) (f : Claim → Claim) : (p.modClaim i f).arb = p.arb := rfl
@[simp] theorem Part.modClaim_chan (p : Part) (i : Nat) (f : Claim → Claim) : (p.modClaim i f).chan = p.chan := rfl
@[simp] theorem Part.modClaim_attention (p : Part) (i : Nat) (f : Claim → Claim) : (p.modClaim i f).attention = p.attention := rfl
@[simp] theorem Part.modClaim_refusals (p : Part) (i : Nat) (f : Claim → Claim) : (p.modClaim i f).refusals = p.refusals := rfl
@[simp] theorem Part.modClaim_mode (p : Part) (i : Nat) (f : Claim → Claim) : (p.modClaim i f).mode = p.mode := rfl
@[simp] theorem Part.modClaim_store (p : Part) (i : Nat) (f : Claim → Claim) : (p.modClaim i f).store = p.store := rfl
@[simp] theorem Part.modClaim_queue (p : Part) (i : Nat) (f : Claim → Claim) : (p.modClaim i f).queue = p.queue := rfl
@[simp] theorem Part.modClaim_asm (p : Part) (i : Nat) (f : Claim → Claim) : (p.modClaim i f).asm = p.asm := rfl
@[simp] theorem Part.modClaim_route (p : Part) (i : Nat) (f : Claim → Claim) : (p.modClaim i f).route = p.route := rfl
@[simp] theorem Part.modClaim_clock (p : Part) (i : Nat) (f : Claim → Claim) : (p.modClaim i f).clock = p.clock := rfl
@[simp] theorem Part.modClaim_ctxs (p : Part) (i : Nat) (f : Claim → Claim) : (p.modClaim i f).ctxs = p.ctxs := rfl
@[simp] theorem Part.modClaim_scan (p : Part) (i : Nat) (f : Claim → Claim) : (p.modClaim i f).scan = p.scan := rfl
@[simp] theorem Part.modClaim_cons (p : Part) (i : Nat) (f : Claim → Claim) : (p.modClaim i f).cons = p.cons := rfl
@[simp] theorem Part.modClaim_claims (p : Part) (i : Nat) (f : Claim → Claim) : (p.modClaim i f).claims = p.claims.modify i f := rfl
@[simp] theorem Part.modClaim_claimQueue (p : Part) (i : Nat) (f : Claim → Claim) : (p.modClaim i f).claimQueue = p.claimQueue := rfl
@[simp] theorem Part.modClaim_verify (p : Part) (i : Nat) (f : Claim → Claim) : (p.modClaim i f).verify = p.verify := rfl
@[simp] theorem Part.modClaim_retire (p : Part) (i : Nat) (f : Claim → Claim) : (p.modClaim i f).retire = p.retire := rfl
@[simp] theorem Part.modClaim_scrub (p : Part) (i : Nat) (f : Claim → Claim) : (p.modClaim i f).scrub = p.scrub := rfl

/-! ### Part.setGate -/

@[simp] theorem Part.setGate_power (p : Part) (g : Gate) : (p.setGate g).power = p.power := rfl
@[simp] theorem Part.setGate_pins (p : Part) (g : Gate) : (p.setGate g).pins = p.pins := rfl
@[simp] theorem Part.setGate_backup (p : Part) (g : Gate) : (p.setGate g).backup = p.backup := rfl
@[simp] theorem Part.setGate_freeCount (p : Part) (g : Gate) : (p.setGate g).freeCount = p.freeCount := rfl
@[simp] theorem Part.setGate_arb (p : Part) (g : Gate) : (p.setGate g).arb = p.arb := rfl
@[simp] theorem Part.setGate_chan (p : Part) (g : Gate) : (p.setGate g).chan = { p.chan with gate := g } := rfl
@[simp] theorem Part.setGate_attention (p : Part) (g : Gate) : (p.setGate g).attention = p.attention := rfl
@[simp] theorem Part.setGate_refusals (p : Part) (g : Gate) : (p.setGate g).refusals = p.refusals := rfl
@[simp] theorem Part.setGate_mode (p : Part) (g : Gate) : (p.setGate g).mode = p.mode := rfl
@[simp] theorem Part.setGate_store (p : Part) (g : Gate) : (p.setGate g).store = p.store := rfl
@[simp] theorem Part.setGate_queue (p : Part) (g : Gate) : (p.setGate g).queue = p.queue := rfl
@[simp] theorem Part.setGate_asm (p : Part) (g : Gate) : (p.setGate g).asm = p.asm := rfl
@[simp] theorem Part.setGate_route (p : Part) (g : Gate) : (p.setGate g).route = p.route := rfl
@[simp] theorem Part.setGate_clock (p : Part) (g : Gate) : (p.setGate g).clock = p.clock := rfl
@[simp] theorem Part.setGate_ctxs (p : Part) (g : Gate) : (p.setGate g).ctxs = p.ctxs := rfl
@[simp] theorem Part.setGate_scan (p : Part) (g : Gate) : (p.setGate g).scan = p.scan := rfl
@[simp] theorem Part.setGate_cons (p : Part) (g : Gate) : (p.setGate g).cons = p.cons := rfl
@[simp] theorem Part.setGate_claims (p : Part) (g : Gate) : (p.setGate g).claims = p.claims := rfl
@[simp] theorem Part.setGate_claimQueue (p : Part) (g : Gate) : (p.setGate g).claimQueue = p.claimQueue := rfl
@[simp] theorem Part.setGate_verify (p : Part) (g : Gate) : (p.setGate g).verify = p.verify := rfl
@[simp] theorem Part.setGate_retire (p : Part) (g : Gate) : (p.setGate g).retire = p.retire := rfl
@[simp] theorem Part.setGate_scrub (p : Part) (g : Gate) : (p.setGate g).scrub = p.scrub := rfl

/-! ### Part.endPresentation -/

@[simp] theorem Part.endPresentation_power (p : Part) : (p.endPresentation).power = p.power := rfl
@[simp] theorem Part.endPresentation_pins (p : Part) : (p.endPresentation).pins = p.pins := rfl
@[simp] theorem Part.endPresentation_backup (p : Part) : (p.endPresentation).backup = p.backup := rfl
@[simp] theorem Part.endPresentation_freeCount (p : Part) : (p.endPresentation).freeCount = p.freeCount := rfl
@[simp] theorem Part.endPresentation_arb (p : Part) : (p.endPresentation).arb = p.arb := rfl
@[simp] theorem Part.endPresentation_attention (p : Part) : (p.endPresentation).attention = p.attention := rfl
@[simp] theorem Part.endPresentation_refusals (p : Part) : (p.endPresentation).refusals = p.refusals := rfl
@[simp] theorem Part.endPresentation_mode (p : Part) : (p.endPresentation).mode = p.mode := rfl
@[simp] theorem Part.endPresentation_store (p : Part) : (p.endPresentation).store = p.store := rfl
@[simp] theorem Part.endPresentation_queue (p : Part) : (p.endPresentation).queue = p.queue := rfl
@[simp] theorem Part.endPresentation_asm (p : Part) : (p.endPresentation).asm = p.asm := rfl
@[simp] theorem Part.endPresentation_route (p : Part) : (p.endPresentation).route = p.route := rfl
@[simp] theorem Part.endPresentation_clock (p : Part) : (p.endPresentation).clock = p.clock := rfl
@[simp] theorem Part.endPresentation_ctxs (p : Part) : (p.endPresentation).ctxs = p.ctxs := rfl
@[simp] theorem Part.endPresentation_scan (p : Part) : (p.endPresentation).scan = p.scan := rfl
@[simp] theorem Part.endPresentation_cons (p : Part) : (p.endPresentation).cons = p.cons := rfl
@[simp] theorem Part.endPresentation_claims (p : Part) : (p.endPresentation).claims = p.claims := rfl
@[simp] theorem Part.endPresentation_claimQueue (p : Part) : (p.endPresentation).claimQueue = p.claimQueue := rfl
@[simp] theorem Part.endPresentation_verify (p : Part) : (p.endPresentation).verify = p.verify := rfl
@[simp] theorem Part.endPresentation_retire (p : Part) : (p.endPresentation).retire = p.retire := rfl
@[simp] theorem Part.endPresentation_scrub (p : Part) : (p.endPresentation).scrub = p.scrub := rfl

/-! ### Part.present -/

@[simp] theorem Part.present_power (p : Part) (a : Addr) (e : Word) (ps : List Word) (st : CmdState) (o : CmdOutcome) : (p.present a e ps st o).power = p.power := rfl
@[simp] theorem Part.present_pins (p : Part) (a : Addr) (e : Word) (ps : List Word) (st : CmdState) (o : CmdOutcome) : (p.present a e ps st o).pins = p.pins := rfl
@[simp] theorem Part.present_backup (p : Part) (a : Addr) (e : Word) (ps : List Word) (st : CmdState) (o : CmdOutcome) : (p.present a e ps st o).backup = p.backup := rfl
@[simp] theorem Part.present_freeCount (p : Part) (a : Addr) (e : Word) (ps : List Word) (st : CmdState) (o : CmdOutcome) : (p.present a e ps st o).freeCount = p.freeCount := rfl
@[simp] theorem Part.present_arb (p : Part) (a : Addr) (e : Word) (ps : List Word) (st : CmdState) (o : CmdOutcome) : (p.present a e ps st o).arb = p.arb := rfl
@[simp] theorem Part.present_attention (p : Part) (a : Addr) (e : Word) (ps : List Word) (st : CmdState) (o : CmdOutcome) : (p.present a e ps st o).attention = p.attention := rfl
@[simp] theorem Part.present_refusals (p : Part) (a : Addr) (e : Word) (ps : List Word) (st : CmdState) (o : CmdOutcome) : (p.present a e ps st o).refusals = p.refusals := rfl
@[simp] theorem Part.present_mode (p : Part) (a : Addr) (e : Word) (ps : List Word) (st : CmdState) (o : CmdOutcome) : (p.present a e ps st o).mode = p.mode := rfl
@[simp] theorem Part.present_store (p : Part) (a : Addr) (e : Word) (ps : List Word) (st : CmdState) (o : CmdOutcome) : (p.present a e ps st o).store = p.store := rfl
@[simp] theorem Part.present_queue (p : Part) (a : Addr) (e : Word) (ps : List Word) (st : CmdState) (o : CmdOutcome) : (p.present a e ps st o).queue = p.queue := rfl
@[simp] theorem Part.present_asm (p : Part) (a : Addr) (e : Word) (ps : List Word) (st : CmdState) (o : CmdOutcome) : (p.present a e ps st o).asm = p.asm := rfl
@[simp] theorem Part.present_route (p : Part) (a : Addr) (e : Word) (ps : List Word) (st : CmdState) (o : CmdOutcome) : (p.present a e ps st o).route = p.route := rfl
@[simp] theorem Part.present_clock (p : Part) (a : Addr) (e : Word) (ps : List Word) (st : CmdState) (o : CmdOutcome) : (p.present a e ps st o).clock = p.clock := rfl
@[simp] theorem Part.present_ctxs (p : Part) (a : Addr) (e : Word) (ps : List Word) (st : CmdState) (o : CmdOutcome) : (p.present a e ps st o).ctxs = p.ctxs := rfl
@[simp] theorem Part.present_scan (p : Part) (a : Addr) (e : Word) (ps : List Word) (st : CmdState) (o : CmdOutcome) : (p.present a e ps st o).scan = p.scan := rfl
@[simp] theorem Part.present_cons (p : Part) (a : Addr) (e : Word) (ps : List Word) (st : CmdState) (o : CmdOutcome) : (p.present a e ps st o).cons = p.cons := rfl
@[simp] theorem Part.present_claims (p : Part) (a : Addr) (e : Word) (ps : List Word) (st : CmdState) (o : CmdOutcome) : (p.present a e ps st o).claims = p.claims := rfl
@[simp] theorem Part.present_claimQueue (p : Part) (a : Addr) (e : Word) (ps : List Word) (st : CmdState) (o : CmdOutcome) : (p.present a e ps st o).claimQueue = p.claimQueue := rfl
@[simp] theorem Part.present_verify (p : Part) (a : Addr) (e : Word) (ps : List Word) (st : CmdState) (o : CmdOutcome) : (p.present a e ps st o).verify = p.verify := rfl
@[simp] theorem Part.present_retire (p : Part) (a : Addr) (e : Word) (ps : List Word) (st : CmdState) (o : CmdOutcome) : (p.present a e ps st o).retire = p.retire := rfl
@[simp] theorem Part.present_scrub (p : Part) (a : Addr) (e : Word) (ps : List Word) (st : CmdState) (o : CmdOutcome) : (p.present a e ps st o).scrub = p.scrub := rfl

/-! ### Part.conclude -/

@[simp] theorem Part.conclude_power (p : Part) (st : CmdState) (o : CmdOutcome) (rs : List Word) : (p.conclude st o rs).power = p.power := rfl
@[simp] theorem Part.conclude_pins (p : Part) (st : CmdState) (o : CmdOutcome) (rs : List Word) : (p.conclude st o rs).pins = p.pins := rfl
@[simp] theorem Part.conclude_backup (p : Part) (st : CmdState) (o : CmdOutcome) (rs : List Word) : (p.conclude st o rs).backup = p.backup := rfl
@[simp] theorem Part.conclude_freeCount (p : Part) (st : CmdState) (o : CmdOutcome) (rs : List Word) : (p.conclude st o rs).freeCount = p.freeCount := rfl
@[simp] theorem Part.conclude_arb (p : Part) (st : CmdState) (o : CmdOutcome) (rs : List Word) : (p.conclude st o rs).arb = p.arb := rfl
@[simp] theorem Part.conclude_attention (p : Part) (st : CmdState) (o : CmdOutcome) (rs : List Word) : (p.conclude st o rs).attention = p.attention := rfl
@[simp] theorem Part.conclude_refusals (p : Part) (st : CmdState) (o : CmdOutcome) (rs : List Word) : (p.conclude st o rs).refusals = p.refusals := rfl
@[simp] theorem Part.conclude_mode (p : Part) (st : CmdState) (o : CmdOutcome) (rs : List Word) : (p.conclude st o rs).mode = p.mode := rfl
@[simp] theorem Part.conclude_store (p : Part) (st : CmdState) (o : CmdOutcome) (rs : List Word) : (p.conclude st o rs).store = p.store := rfl
@[simp] theorem Part.conclude_queue (p : Part) (st : CmdState) (o : CmdOutcome) (rs : List Word) : (p.conclude st o rs).queue = p.queue := rfl
@[simp] theorem Part.conclude_asm (p : Part) (st : CmdState) (o : CmdOutcome) (rs : List Word) : (p.conclude st o rs).asm = p.asm := rfl
@[simp] theorem Part.conclude_route (p : Part) (st : CmdState) (o : CmdOutcome) (rs : List Word) : (p.conclude st o rs).route = p.route := rfl
@[simp] theorem Part.conclude_clock (p : Part) (st : CmdState) (o : CmdOutcome) (rs : List Word) : (p.conclude st o rs).clock = p.clock := rfl
@[simp] theorem Part.conclude_ctxs (p : Part) (st : CmdState) (o : CmdOutcome) (rs : List Word) : (p.conclude st o rs).ctxs = p.ctxs := rfl
@[simp] theorem Part.conclude_scan (p : Part) (st : CmdState) (o : CmdOutcome) (rs : List Word) : (p.conclude st o rs).scan = p.scan := rfl
@[simp] theorem Part.conclude_cons (p : Part) (st : CmdState) (o : CmdOutcome) (rs : List Word) : (p.conclude st o rs).cons = p.cons := rfl
@[simp] theorem Part.conclude_claims (p : Part) (st : CmdState) (o : CmdOutcome) (rs : List Word) : (p.conclude st o rs).claims = p.claims := rfl
@[simp] theorem Part.conclude_claimQueue (p : Part) (st : CmdState) (o : CmdOutcome) (rs : List Word) : (p.conclude st o rs).claimQueue = p.claimQueue := rfl
@[simp] theorem Part.conclude_verify (p : Part) (st : CmdState) (o : CmdOutcome) (rs : List Word) : (p.conclude st o rs).verify = p.verify := rfl
@[simp] theorem Part.conclude_retire (p : Part) (st : CmdState) (o : CmdOutcome) (rs : List Word) : (p.conclude st o rs).retire = p.retire := rfl
@[simp] theorem Part.conclude_scrub (p : Part) (st : CmdState) (o : CmdOutcome) (rs : List Word) : (p.conclude st o rs).scrub = p.scrub := rfl

/-! ### Part.done -/

@[simp] theorem Part.done_power (p : Part) (rs : List Word) : (p.done rs).power = p.power := rfl
@[simp] theorem Part.done_pins (p : Part) (rs : List Word) : (p.done rs).pins = p.pins := rfl
@[simp] theorem Part.done_backup (p : Part) (rs : List Word) : (p.done rs).backup = p.backup := rfl
@[simp] theorem Part.done_freeCount (p : Part) (rs : List Word) : (p.done rs).freeCount = p.freeCount := rfl
@[simp] theorem Part.done_arb (p : Part) (rs : List Word) : (p.done rs).arb = p.arb := rfl
@[simp] theorem Part.done_attention (p : Part) (rs : List Word) : (p.done rs).attention = p.attention := rfl
@[simp] theorem Part.done_refusals (p : Part) (rs : List Word) : (p.done rs).refusals = p.refusals := rfl
@[simp] theorem Part.done_mode (p : Part) (rs : List Word) : (p.done rs).mode = p.mode := rfl
@[simp] theorem Part.done_store (p : Part) (rs : List Word) : (p.done rs).store = p.store := rfl
@[simp] theorem Part.done_queue (p : Part) (rs : List Word) : (p.done rs).queue = p.queue := rfl
@[simp] theorem Part.done_asm (p : Part) (rs : List Word) : (p.done rs).asm = p.asm := rfl
@[simp] theorem Part.done_route (p : Part) (rs : List Word) : (p.done rs).route = p.route := rfl
@[simp] theorem Part.done_clock (p : Part) (rs : List Word) : (p.done rs).clock = p.clock := rfl
@[simp] theorem Part.done_ctxs (p : Part) (rs : List Word) : (p.done rs).ctxs = p.ctxs := rfl
@[simp] theorem Part.done_scan (p : Part) (rs : List Word) : (p.done rs).scan = p.scan := rfl
@[simp] theorem Part.done_cons (p : Part) (rs : List Word) : (p.done rs).cons = p.cons := rfl
@[simp] theorem Part.done_claims (p : Part) (rs : List Word) : (p.done rs).claims = p.claims := rfl
@[simp] theorem Part.done_claimQueue (p : Part) (rs : List Word) : (p.done rs).claimQueue = p.claimQueue := rfl
@[simp] theorem Part.done_verify (p : Part) (rs : List Word) : (p.done rs).verify = p.verify := rfl
@[simp] theorem Part.done_retire (p : Part) (rs : List Word) : (p.done rs).retire = p.retire := rfl
@[simp] theorem Part.done_scrub (p : Part) (rs : List Word) : (p.done rs).scrub = p.scrub := rfl

/-! ### Part.refuseCommand -/

@[simp] theorem Part.refuseCommand_power (p : Part) (o : CmdOutcome) : (p.refuseCommand o).power = p.power := rfl
@[simp] theorem Part.refuseCommand_pins (p : Part) (o : CmdOutcome) : (p.refuseCommand o).pins = p.pins := rfl
@[simp] theorem Part.refuseCommand_backup (p : Part) (o : CmdOutcome) : (p.refuseCommand o).backup = p.backup := rfl
@[simp] theorem Part.refuseCommand_freeCount (p : Part) (o : CmdOutcome) : (p.refuseCommand o).freeCount = p.freeCount := rfl
@[simp] theorem Part.refuseCommand_arb (p : Part) (o : CmdOutcome) : (p.refuseCommand o).arb = p.arb := rfl
@[simp] theorem Part.refuseCommand_attention (p : Part) (o : CmdOutcome) : (p.refuseCommand o).attention = p.attention := rfl
@[simp] theorem Part.refuseCommand_refusals (p : Part) (o : CmdOutcome) : (p.refuseCommand o).refusals = p.refusals := rfl
@[simp] theorem Part.refuseCommand_mode (p : Part) (o : CmdOutcome) : (p.refuseCommand o).mode = p.mode := rfl
@[simp] theorem Part.refuseCommand_store (p : Part) (o : CmdOutcome) : (p.refuseCommand o).store = p.store := rfl
@[simp] theorem Part.refuseCommand_queue (p : Part) (o : CmdOutcome) : (p.refuseCommand o).queue = p.queue := rfl
@[simp] theorem Part.refuseCommand_asm (p : Part) (o : CmdOutcome) : (p.refuseCommand o).asm = p.asm := rfl
@[simp] theorem Part.refuseCommand_route (p : Part) (o : CmdOutcome) : (p.refuseCommand o).route = p.route := rfl
@[simp] theorem Part.refuseCommand_clock (p : Part) (o : CmdOutcome) : (p.refuseCommand o).clock = p.clock := rfl
@[simp] theorem Part.refuseCommand_ctxs (p : Part) (o : CmdOutcome) : (p.refuseCommand o).ctxs = p.ctxs := rfl
@[simp] theorem Part.refuseCommand_scan (p : Part) (o : CmdOutcome) : (p.refuseCommand o).scan = p.scan := rfl
@[simp] theorem Part.refuseCommand_cons (p : Part) (o : CmdOutcome) : (p.refuseCommand o).cons = p.cons := rfl
@[simp] theorem Part.refuseCommand_claims (p : Part) (o : CmdOutcome) : (p.refuseCommand o).claims = p.claims := rfl
@[simp] theorem Part.refuseCommand_claimQueue (p : Part) (o : CmdOutcome) : (p.refuseCommand o).claimQueue = p.claimQueue := rfl
@[simp] theorem Part.refuseCommand_verify (p : Part) (o : CmdOutcome) : (p.refuseCommand o).verify = p.verify := rfl
@[simp] theorem Part.refuseCommand_retire (p : Part) (o : CmdOutcome) : (p.refuseCommand o).retire = p.retire := rfl
@[simp] theorem Part.refuseCommand_scrub (p : Part) (o : CmdOutcome) : (p.refuseCommand o).scrub = p.scrub := rfl

/-! ### Part.startRunning -/

@[simp] theorem Part.startRunning_power (p : Part) (w : RunningWork) : (p.startRunning w).power = p.power := rfl
@[simp] theorem Part.startRunning_pins (p : Part) (w : RunningWork) : (p.startRunning w).pins = p.pins := rfl
@[simp] theorem Part.startRunning_backup (p : Part) (w : RunningWork) : (p.startRunning w).backup = p.backup := rfl
@[simp] theorem Part.startRunning_freeCount (p : Part) (w : RunningWork) : (p.startRunning w).freeCount = p.freeCount := rfl
@[simp] theorem Part.startRunning_arb (p : Part) (w : RunningWork) : (p.startRunning w).arb = p.arb := rfl
@[simp] theorem Part.startRunning_chan (p : Part) (w : RunningWork) : (p.startRunning w).chan = { p.chan with running := some { work := w, presented := true } } := rfl
@[simp] theorem Part.startRunning_attention (p : Part) (w : RunningWork) : (p.startRunning w).attention = p.attention := rfl
@[simp] theorem Part.startRunning_refusals (p : Part) (w : RunningWork) : (p.startRunning w).refusals = p.refusals := rfl
@[simp] theorem Part.startRunning_mode (p : Part) (w : RunningWork) : (p.startRunning w).mode = p.mode := rfl
@[simp] theorem Part.startRunning_store (p : Part) (w : RunningWork) : (p.startRunning w).store = p.store := rfl
@[simp] theorem Part.startRunning_queue (p : Part) (w : RunningWork) : (p.startRunning w).queue = p.queue := rfl
@[simp] theorem Part.startRunning_asm (p : Part) (w : RunningWork) : (p.startRunning w).asm = p.asm := rfl
@[simp] theorem Part.startRunning_route (p : Part) (w : RunningWork) : (p.startRunning w).route = p.route := rfl
@[simp] theorem Part.startRunning_clock (p : Part) (w : RunningWork) : (p.startRunning w).clock = p.clock := rfl
@[simp] theorem Part.startRunning_ctxs (p : Part) (w : RunningWork) : (p.startRunning w).ctxs = p.ctxs := rfl
@[simp] theorem Part.startRunning_scan (p : Part) (w : RunningWork) : (p.startRunning w).scan = p.scan := rfl
@[simp] theorem Part.startRunning_cons (p : Part) (w : RunningWork) : (p.startRunning w).cons = p.cons := rfl
@[simp] theorem Part.startRunning_claims (p : Part) (w : RunningWork) : (p.startRunning w).claims = p.claims := rfl
@[simp] theorem Part.startRunning_claimQueue (p : Part) (w : RunningWork) : (p.startRunning w).claimQueue = p.claimQueue := rfl
@[simp] theorem Part.startRunning_verify (p : Part) (w : RunningWork) : (p.startRunning w).verify = p.verify := rfl
@[simp] theorem Part.startRunning_retire (p : Part) (w : RunningWork) : (p.startRunning w).retire = p.retire := rfl
@[simp] theorem Part.startRunning_scrub (p : Part) (w : RunningWork) : (p.startRunning w).scrub = p.scrub := rfl

/-! ### Part.protectError -/

@[simp] theorem Part.protectError_power (p : Part) : (p.protectError).power = p.power := rfl
@[simp] theorem Part.protectError_pins (p : Part) : (p.protectError).pins = p.pins := rfl
@[simp] theorem Part.protectError_backup (p : Part) : (p.protectError).backup = p.backup := rfl
@[simp] theorem Part.protectError_freeCount (p : Part) : (p.protectError).freeCount = p.freeCount := rfl
@[simp] theorem Part.protectError_arb (p : Part) : (p.protectError).arb = p.arb := rfl
@[simp] theorem Part.protectError_chan (p : Part) : (p.protectError).chan = { p.chan with protectErrors := sat8 (p.chan.protectErrors + 1) } := rfl
@[simp] theorem Part.protectError_attention (p : Part) : (p.protectError).attention = p.attention ||| causeProtectError := rfl
@[simp] theorem Part.protectError_refusals (p : Part) : (p.protectError).refusals = p.refusals := rfl
@[simp] theorem Part.protectError_mode (p : Part) : (p.protectError).mode = p.mode := rfl
@[simp] theorem Part.protectError_store (p : Part) : (p.protectError).store = p.store := rfl
@[simp] theorem Part.protectError_queue (p : Part) : (p.protectError).queue = p.queue := rfl
@[simp] theorem Part.protectError_asm (p : Part) : (p.protectError).asm = p.asm := rfl
@[simp] theorem Part.protectError_route (p : Part) : (p.protectError).route = p.route := rfl
@[simp] theorem Part.protectError_clock (p : Part) : (p.protectError).clock = p.clock := rfl
@[simp] theorem Part.protectError_ctxs (p : Part) : (p.protectError).ctxs = p.ctxs := rfl
@[simp] theorem Part.protectError_scan (p : Part) : (p.protectError).scan = p.scan := rfl
@[simp] theorem Part.protectError_cons (p : Part) : (p.protectError).cons = p.cons := rfl
@[simp] theorem Part.protectError_claims (p : Part) : (p.protectError).claims = p.claims := rfl
@[simp] theorem Part.protectError_claimQueue (p : Part) : (p.protectError).claimQueue = p.claimQueue := rfl
@[simp] theorem Part.protectError_verify (p : Part) : (p.protectError).verify = p.verify := rfl
@[simp] theorem Part.protectError_retire (p : Part) : (p.protectError).retire = p.retire := rfl
@[simp] theorem Part.protectError_scrub (p : Part) : (p.protectError).scrub = p.scrub := rfl

/-! ### Part.giveBurst -/

@[simp] theorem Part.giveBurst_power (p : Part) (b : Burst) : (p.giveBurst b).power = p.power := rfl
@[simp] theorem Part.giveBurst_pins (p : Part) (b : Burst) : (p.giveBurst b).pins = p.pins := rfl
@[simp] theorem Part.giveBurst_backup (p : Part) (b : Burst) : (p.giveBurst b).backup = p.backup := rfl
@[simp] theorem Part.giveBurst_freeCount (p : Part) (b : Burst) : (p.giveBurst b).freeCount = p.freeCount := rfl
@[simp] theorem Part.giveBurst_chan (p : Part) (b : Burst) : (p.giveBurst b).chan = p.chan := rfl
@[simp] theorem Part.giveBurst_attention (p : Part) (b : Burst) : (p.giveBurst b).attention = p.attention := rfl
@[simp] theorem Part.giveBurst_refusals (p : Part) (b : Burst) : (p.giveBurst b).refusals = p.refusals := rfl
@[simp] theorem Part.giveBurst_mode (p : Part) (b : Burst) : (p.giveBurst b).mode = p.mode := rfl
@[simp] theorem Part.giveBurst_store (p : Part) (b : Burst) : (p.giveBurst b).store = p.store := rfl
@[simp] theorem Part.giveBurst_queue (p : Part) (b : Burst) : (p.giveBurst b).queue = p.queue := rfl
@[simp] theorem Part.giveBurst_asm (p : Part) (b : Burst) : (p.giveBurst b).asm = p.asm := rfl
@[simp] theorem Part.giveBurst_route (p : Part) (b : Burst) : (p.giveBurst b).route = p.route := rfl
@[simp] theorem Part.giveBurst_clock (p : Part) (b : Burst) : (p.giveBurst b).clock = p.clock := rfl
@[simp] theorem Part.giveBurst_ctxs (p : Part) (b : Burst) : (p.giveBurst b).ctxs = p.ctxs := rfl
@[simp] theorem Part.giveBurst_scan (p : Part) (b : Burst) : (p.giveBurst b).scan = p.scan := rfl
@[simp] theorem Part.giveBurst_cons (p : Part) (b : Burst) : (p.giveBurst b).cons = p.cons := rfl
@[simp] theorem Part.giveBurst_claims (p : Part) (b : Burst) : (p.giveBurst b).claims = p.claims := rfl
@[simp] theorem Part.giveBurst_claimQueue (p : Part) (b : Burst) : (p.giveBurst b).claimQueue = p.claimQueue := rfl
@[simp] theorem Part.giveBurst_verify (p : Part) (b : Burst) : (p.giveBurst b).verify = p.verify := rfl
@[simp] theorem Part.giveBurst_retire (p : Part) (b : Burst) : (p.giveBurst b).retire = p.retire := rfl
@[simp] theorem Part.giveBurst_scrub (p : Part) (b : Burst) : (p.giveBurst b).scrub = p.scrub := rfl

/-! ### Part.endBurst -/

@[simp] theorem Part.endBurst_power (p : Part) : (p.endBurst).power = p.power := rfl
@[simp] theorem Part.endBurst_pins (p : Part) : (p.endBurst).pins = p.pins := rfl
@[simp] theorem Part.endBurst_backup (p : Part) : (p.endBurst).backup = p.backup := rfl
@[simp] theorem Part.endBurst_freeCount (p : Part) : (p.endBurst).freeCount = p.freeCount := rfl
@[simp] theorem Part.endBurst_arb (p : Part) : (p.endBurst).arb = { p.arb with burst := none } := rfl
@[simp] theorem Part.endBurst_chan (p : Part) : (p.endBurst).chan = p.chan := rfl
@[simp] theorem Part.endBurst_attention (p : Part) : (p.endBurst).attention = p.attention := rfl
@[simp] theorem Part.endBurst_refusals (p : Part) : (p.endBurst).refusals = p.refusals := rfl
@[simp] theorem Part.endBurst_mode (p : Part) : (p.endBurst).mode = p.mode := rfl
@[simp] theorem Part.endBurst_store (p : Part) : (p.endBurst).store = p.store := rfl
@[simp] theorem Part.endBurst_queue (p : Part) : (p.endBurst).queue = p.queue := rfl
@[simp] theorem Part.endBurst_asm (p : Part) : (p.endBurst).asm = p.asm := rfl
@[simp] theorem Part.endBurst_route (p : Part) : (p.endBurst).route = p.route := rfl
@[simp] theorem Part.endBurst_clock (p : Part) : (p.endBurst).clock = p.clock := rfl
@[simp] theorem Part.endBurst_ctxs (p : Part) : (p.endBurst).ctxs = p.ctxs := rfl
@[simp] theorem Part.endBurst_scan (p : Part) : (p.endBurst).scan = p.scan := rfl
@[simp] theorem Part.endBurst_cons (p : Part) : (p.endBurst).cons = p.cons := rfl
@[simp] theorem Part.endBurst_claims (p : Part) : (p.endBurst).claims = p.claims := rfl
@[simp] theorem Part.endBurst_claimQueue (p : Part) : (p.endBurst).claimQueue = p.claimQueue := rfl
@[simp] theorem Part.endBurst_verify (p : Part) : (p.endBurst).verify = p.verify := rfl
@[simp] theorem Part.endBurst_retire (p : Part) : (p.endBurst).retire = p.retire := rfl
@[simp] theorem Part.endBurst_scrub (p : Part) : (p.endBurst).scrub = p.scrub := rfl

/-! ### Part.upstreamGrant -/

@[simp] theorem Part.upstreamGrant_power (p : Part) : (p.upstreamGrant).power = p.power := rfl
@[simp] theorem Part.upstreamGrant_pins (p : Part) : (p.upstreamGrant).pins = p.pins := rfl
@[simp] theorem Part.upstreamGrant_backup (p : Part) : (p.upstreamGrant).backup = p.backup := rfl
@[simp] theorem Part.upstreamGrant_freeCount (p : Part) : (p.upstreamGrant).freeCount = p.freeCount := rfl
@[simp] theorem Part.upstreamGrant_chan (p : Part) : (p.upstreamGrant).chan = p.chan := rfl
@[simp] theorem Part.upstreamGrant_attention (p : Part) : (p.upstreamGrant).attention = p.attention := rfl
@[simp] theorem Part.upstreamGrant_refusals (p : Part) : (p.upstreamGrant).refusals = p.refusals := rfl
@[simp] theorem Part.upstreamGrant_mode (p : Part) : (p.upstreamGrant).mode = p.mode := rfl
@[simp] theorem Part.upstreamGrant_store (p : Part) : (p.upstreamGrant).store = p.store := rfl
@[simp] theorem Part.upstreamGrant_queue (p : Part) : (p.upstreamGrant).queue = p.queue := rfl
@[simp] theorem Part.upstreamGrant_asm (p : Part) : (p.upstreamGrant).asm = p.asm := rfl
@[simp] theorem Part.upstreamGrant_route (p : Part) : (p.upstreamGrant).route = p.route := rfl
@[simp] theorem Part.upstreamGrant_clock (p : Part) : (p.upstreamGrant).clock = p.clock := rfl
@[simp] theorem Part.upstreamGrant_ctxs (p : Part) : (p.upstreamGrant).ctxs = p.ctxs := rfl
@[simp] theorem Part.upstreamGrant_scan (p : Part) : (p.upstreamGrant).scan = p.scan := rfl
@[simp] theorem Part.upstreamGrant_cons (p : Part) : (p.upstreamGrant).cons = p.cons := rfl
@[simp] theorem Part.upstreamGrant_claims (p : Part) : (p.upstreamGrant).claims = p.claims := rfl
@[simp] theorem Part.upstreamGrant_claimQueue (p : Part) : (p.upstreamGrant).claimQueue = p.claimQueue := rfl
@[simp] theorem Part.upstreamGrant_verify (p : Part) : (p.upstreamGrant).verify = p.verify := rfl
@[simp] theorem Part.upstreamGrant_retire (p : Part) : (p.upstreamGrant).retire = p.retire := rfl
@[simp] theorem Part.upstreamGrant_scrub (p : Part) : (p.upstreamGrant).scrub = p.scrub := rfl

/-! ### Part.grant2 -/

@[simp] theorem Part.grant2_power (p : Part) : (p.grant2).power = p.power := rfl
@[simp] theorem Part.grant2_pins (p : Part) : (p.grant2).pins = p.pins := rfl
@[simp] theorem Part.grant2_backup (p : Part) : (p.grant2).backup = p.backup := rfl
@[simp] theorem Part.grant2_freeCount (p : Part) : (p.grant2).freeCount = p.freeCount := rfl
@[simp] theorem Part.grant2_arb (p : Part) : (p.grant2).arb = { p.arb with fairness := 0 } := rfl
@[simp] theorem Part.grant2_chan (p : Part) : (p.grant2).chan = p.chan := rfl
@[simp] theorem Part.grant2_attention (p : Part) : (p.grant2).attention = p.attention := rfl
@[simp] theorem Part.grant2_refusals (p : Part) : (p.grant2).refusals = p.refusals := rfl
@[simp] theorem Part.grant2_mode (p : Part) : (p.grant2).mode = p.mode := rfl
@[simp] theorem Part.grant2_store (p : Part) : (p.grant2).store = p.store := rfl
@[simp] theorem Part.grant2_queue (p : Part) : (p.grant2).queue = p.queue := rfl
@[simp] theorem Part.grant2_asm (p : Part) : (p.grant2).asm = p.asm := rfl
@[simp] theorem Part.grant2_route (p : Part) : (p.grant2).route = p.route := rfl
@[simp] theorem Part.grant2_clock (p : Part) : (p.grant2).clock = p.clock := rfl
@[simp] theorem Part.grant2_ctxs (p : Part) : (p.grant2).ctxs = p.ctxs := rfl
@[simp] theorem Part.grant2_scan (p : Part) : (p.grant2).scan = p.scan := rfl
@[simp] theorem Part.grant2_cons (p : Part) : (p.grant2).cons = p.cons := rfl
@[simp] theorem Part.grant2_claims (p : Part) : (p.grant2).claims = p.claims := rfl
@[simp] theorem Part.grant2_claimQueue (p : Part) : (p.grant2).claimQueue = p.claimQueue := rfl
@[simp] theorem Part.grant2_verify (p : Part) : (p.grant2).verify = p.verify := rfl
@[simp] theorem Part.grant2_retire (p : Part) : (p.grant2).retire = p.retire := rfl
@[simp] theorem Part.grant2_scrub (p : Part) : (p.grant2).scrub = p.scrub := rfl

/-! ### Part.setDock -/

@[simp] theorem Part.setDock_power (p : Part) (d : Bool) : (p.setDock d).power = p.power := rfl
@[simp] theorem Part.setDock_pins (p : Part) (d : Bool) : (p.setDock d).pins = { p.pins with dock := d } := rfl
@[simp] theorem Part.setDock_backup (p : Part) (d : Bool) : (p.setDock d).backup = p.backup := rfl
@[simp] theorem Part.setDock_freeCount (p : Part) (d : Bool) : (p.setDock d).freeCount = p.freeCount := rfl
@[simp] theorem Part.setDock_arb (p : Part) (d : Bool) : (p.setDock d).arb = p.arb := rfl
@[simp] theorem Part.setDock_chan (p : Part) (d : Bool) : (p.setDock d).chan = p.chan := rfl
@[simp] theorem Part.setDock_attention (p : Part) (d : Bool) : (p.setDock d).attention = p.attention := rfl
@[simp] theorem Part.setDock_refusals (p : Part) (d : Bool) : (p.setDock d).refusals = p.refusals := rfl
@[simp] theorem Part.setDock_mode (p : Part) (d : Bool) : (p.setDock d).mode = p.mode := rfl
@[simp] theorem Part.setDock_store (p : Part) (d : Bool) : (p.setDock d).store = p.store := rfl
@[simp] theorem Part.setDock_queue (p : Part) (d : Bool) : (p.setDock d).queue = p.queue := rfl
@[simp] theorem Part.setDock_asm (p : Part) (d : Bool) : (p.setDock d).asm = p.asm := rfl
@[simp] theorem Part.setDock_route (p : Part) (d : Bool) : (p.setDock d).route = p.route := rfl
@[simp] theorem Part.setDock_clock (p : Part) (d : Bool) : (p.setDock d).clock = p.clock := rfl
@[simp] theorem Part.setDock_ctxs (p : Part) (d : Bool) : (p.setDock d).ctxs = p.ctxs := rfl
@[simp] theorem Part.setDock_scan (p : Part) (d : Bool) : (p.setDock d).scan = p.scan := rfl
@[simp] theorem Part.setDock_cons (p : Part) (d : Bool) : (p.setDock d).cons = p.cons := rfl
@[simp] theorem Part.setDock_claims (p : Part) (d : Bool) : (p.setDock d).claims = p.claims := rfl
@[simp] theorem Part.setDock_claimQueue (p : Part) (d : Bool) : (p.setDock d).claimQueue = p.claimQueue := rfl
@[simp] theorem Part.setDock_verify (p : Part) (d : Bool) : (p.setDock d).verify = p.verify := rfl
@[simp] theorem Part.setDock_retire (p : Part) (d : Bool) : (p.setDock d).retire = p.retire := rfl
@[simp] theorem Part.setDock_scrub (p : Part) (d : Bool) : (p.setDock d).scrub = p.scrub := rfl

/-! ### Part.refuseWrite -/

@[simp] theorem Part.refuseWrite_power (p : Part) (a : Addr) (c : RefusalCause) : (p.refuseWrite a c).power = p.power := rfl
@[simp] theorem Part.refuseWrite_pins (p : Part) (a : Addr) (c : RefusalCause) : (p.refuseWrite a c).pins = p.pins := rfl
@[simp] theorem Part.refuseWrite_backup (p : Part) (a : Addr) (c : RefusalCause) : (p.refuseWrite a c).backup = p.backup := rfl
@[simp] theorem Part.refuseWrite_freeCount (p : Part) (a : Addr) (c : RefusalCause) : (p.refuseWrite a c).freeCount = p.freeCount := rfl
@[simp] theorem Part.refuseWrite_arb (p : Part) (a : Addr) (c : RefusalCause) : (p.refuseWrite a c).arb = p.arb := rfl
@[simp] theorem Part.refuseWrite_chan (p : Part) (a : Addr) (c : RefusalCause) : (p.refuseWrite a c).chan = p.chan := rfl
@[simp] theorem Part.refuseWrite_attention (p : Part) (a : Addr) (c : RefusalCause) : (p.refuseWrite a c).attention = p.attention ||| causeWriteRefused := rfl
@[simp] theorem Part.refuseWrite_mode (p : Part) (a : Addr) (c : RefusalCause) : (p.refuseWrite a c).mode = p.mode := rfl
@[simp] theorem Part.refuseWrite_store (p : Part) (a : Addr) (c : RefusalCause) : (p.refuseWrite a c).store = p.store := rfl
@[simp] theorem Part.refuseWrite_queue (p : Part) (a : Addr) (c : RefusalCause) : (p.refuseWrite a c).queue = p.queue := rfl
@[simp] theorem Part.refuseWrite_asm (p : Part) (a : Addr) (c : RefusalCause) : (p.refuseWrite a c).asm = p.asm := rfl
@[simp] theorem Part.refuseWrite_route (p : Part) (a : Addr) (c : RefusalCause) : (p.refuseWrite a c).route = p.route := rfl
@[simp] theorem Part.refuseWrite_clock (p : Part) (a : Addr) (c : RefusalCause) : (p.refuseWrite a c).clock = p.clock := rfl
@[simp] theorem Part.refuseWrite_ctxs (p : Part) (a : Addr) (c : RefusalCause) : (p.refuseWrite a c).ctxs = p.ctxs := rfl
@[simp] theorem Part.refuseWrite_scan (p : Part) (a : Addr) (c : RefusalCause) : (p.refuseWrite a c).scan = p.scan := rfl
@[simp] theorem Part.refuseWrite_cons (p : Part) (a : Addr) (c : RefusalCause) : (p.refuseWrite a c).cons = p.cons := rfl
@[simp] theorem Part.refuseWrite_claims (p : Part) (a : Addr) (c : RefusalCause) : (p.refuseWrite a c).claims = p.claims := rfl
@[simp] theorem Part.refuseWrite_claimQueue (p : Part) (a : Addr) (c : RefusalCause) : (p.refuseWrite a c).claimQueue = p.claimQueue := rfl
@[simp] theorem Part.refuseWrite_verify (p : Part) (a : Addr) (c : RefusalCause) : (p.refuseWrite a c).verify = p.verify := rfl
@[simp] theorem Part.refuseWrite_retire (p : Part) (a : Addr) (c : RefusalCause) : (p.refuseWrite a c).retire = p.retire := rfl
@[simp] theorem Part.refuseWrite_scrub (p : Part) (a : Addr) (c : RefusalCause) : (p.refuseWrite a c).scrub = p.scrub := rfl

/-! ### Part.rescheduleScrub -/

@[simp] theorem Part.rescheduleScrub_power (p : Part) : (p.rescheduleScrub).power = p.power := rfl
@[simp] theorem Part.rescheduleScrub_pins (p : Part) : (p.rescheduleScrub).pins = p.pins := rfl
@[simp] theorem Part.rescheduleScrub_backup (p : Part) : (p.rescheduleScrub).backup = p.backup := rfl
@[simp] theorem Part.rescheduleScrub_freeCount (p : Part) : (p.rescheduleScrub).freeCount = p.freeCount := rfl
@[simp] theorem Part.rescheduleScrub_arb (p : Part) : (p.rescheduleScrub).arb = p.arb := rfl
@[simp] theorem Part.rescheduleScrub_chan (p : Part) : (p.rescheduleScrub).chan = p.chan := rfl
@[simp] theorem Part.rescheduleScrub_attention (p : Part) : (p.rescheduleScrub).attention = p.attention := rfl
@[simp] theorem Part.rescheduleScrub_refusals (p : Part) : (p.rescheduleScrub).refusals = p.refusals := rfl
@[simp] theorem Part.rescheduleScrub_mode (p : Part) : (p.rescheduleScrub).mode = p.mode := rfl
@[simp] theorem Part.rescheduleScrub_store (p : Part) : (p.rescheduleScrub).store = p.store := rfl
@[simp] theorem Part.rescheduleScrub_queue (p : Part) : (p.rescheduleScrub).queue = p.queue := rfl
@[simp] theorem Part.rescheduleScrub_asm (p : Part) : (p.rescheduleScrub).asm = p.asm := rfl
@[simp] theorem Part.rescheduleScrub_route (p : Part) : (p.rescheduleScrub).route = p.route := rfl
@[simp] theorem Part.rescheduleScrub_clock (p : Part) : (p.rescheduleScrub).clock = p.clock := rfl
@[simp] theorem Part.rescheduleScrub_ctxs (p : Part) : (p.rescheduleScrub).ctxs = p.ctxs := rfl
@[simp] theorem Part.rescheduleScrub_scan (p : Part) : (p.rescheduleScrub).scan = p.scan := rfl
@[simp] theorem Part.rescheduleScrub_cons (p : Part) : (p.rescheduleScrub).cons = p.cons := rfl
@[simp] theorem Part.rescheduleScrub_claims (p : Part) : (p.rescheduleScrub).claims = p.claims := rfl
@[simp] theorem Part.rescheduleScrub_claimQueue (p : Part) : (p.rescheduleScrub).claimQueue = p.claimQueue := rfl
@[simp] theorem Part.rescheduleScrub_verify (p : Part) : (p.rescheduleScrub).verify = p.verify := rfl
@[simp] theorem Part.rescheduleScrub_retire (p : Part) : (p.rescheduleScrub).retire = p.retire := rfl
@[simp] theorem Part.rescheduleScrub_scrub (p : Part) : (p.rescheduleScrub).scrub = { p.scrub with due := p.scrubInterval.map (p.clock.now + ·) } := rfl

/-! ### Part.disturbLoad -/

@[simp] theorem Part.disturbLoad_power (p : Part) : (p.disturbLoad).power = p.power := rfl
@[simp] theorem Part.disturbLoad_pins (p : Part) : (p.disturbLoad).pins = p.pins := rfl
@[simp] theorem Part.disturbLoad_backup (p : Part) : (p.disturbLoad).backup = p.backup := rfl
@[simp] theorem Part.disturbLoad_freeCount (p : Part) : (p.disturbLoad).freeCount = p.freeCount := rfl
@[simp] theorem Part.disturbLoad_arb (p : Part) : (p.disturbLoad).arb = p.arb := rfl
@[simp] theorem Part.disturbLoad_chan (p : Part) : (p.disturbLoad).chan = p.chan := rfl
@[simp] theorem Part.disturbLoad_attention (p : Part) : (p.disturbLoad).attention = p.attention := rfl
@[simp] theorem Part.disturbLoad_refusals (p : Part) : (p.disturbLoad).refusals = p.refusals := rfl
@[simp] theorem Part.disturbLoad_mode (p : Part) : (p.disturbLoad).mode = p.mode := rfl
@[simp] theorem Part.disturbLoad_store (p : Part) : (p.disturbLoad).store = p.store := rfl
@[simp] theorem Part.disturbLoad_queue (p : Part) : (p.disturbLoad).queue = p.queue := rfl
@[simp] theorem Part.disturbLoad_asm (p : Part) : (p.disturbLoad).asm = p.asm := rfl
@[simp] theorem Part.disturbLoad_clock (p : Part) : (p.disturbLoad).clock = p.clock := rfl
@[simp] theorem Part.disturbLoad_ctxs (p : Part) : (p.disturbLoad).ctxs = p.ctxs := rfl
@[simp] theorem Part.disturbLoad_scan (p : Part) : (p.disturbLoad).scan = p.scan := rfl
@[simp] theorem Part.disturbLoad_cons (p : Part) : (p.disturbLoad).cons = p.cons := rfl
@[simp] theorem Part.disturbLoad_claims (p : Part) : (p.disturbLoad).claims = p.claims := rfl
@[simp] theorem Part.disturbLoad_claimQueue (p : Part) : (p.disturbLoad).claimQueue = p.claimQueue := rfl
@[simp] theorem Part.disturbLoad_verify (p : Part) : (p.disturbLoad).verify = p.verify := rfl
@[simp] theorem Part.disturbLoad_retire (p : Part) : (p.disturbLoad).retire = p.retire := rfl
@[simp] theorem Part.disturbLoad_scrub (p : Part) : (p.disturbLoad).scrub = p.scrub := rfl

/-! ### Part.setBlankPos -/

@[simp] theorem Part.setBlankPos_power (p : Part) (w : Nat) : (p.setBlankPos w).power = p.power := rfl
@[simp] theorem Part.setBlankPos_pins (p : Part) (w : Nat) : (p.setBlankPos w).pins = p.pins := rfl
@[simp] theorem Part.setBlankPos_backup (p : Part) (w : Nat) : (p.setBlankPos w).backup = p.backup := rfl
@[simp] theorem Part.setBlankPos_freeCount (p : Part) (w : Nat) : (p.setBlankPos w).freeCount = p.freeCount := rfl
@[simp] theorem Part.setBlankPos_arb (p : Part) (w : Nat) : (p.setBlankPos w).arb = p.arb := rfl
@[simp] theorem Part.setBlankPos_chan (p : Part) (w : Nat) : (p.setBlankPos w).chan = p.chan := rfl
@[simp] theorem Part.setBlankPos_attention (p : Part) (w : Nat) : (p.setBlankPos w).attention = p.attention := rfl
@[simp] theorem Part.setBlankPos_refusals (p : Part) (w : Nat) : (p.setBlankPos w).refusals = p.refusals := rfl
@[simp] theorem Part.setBlankPos_mode (p : Part) (w : Nat) : (p.setBlankPos w).mode = p.mode := rfl
@[simp] theorem Part.setBlankPos_store (p : Part) (w : Nat) : (p.setBlankPos w).store = p.store := rfl
@[simp] theorem Part.setBlankPos_queue (p : Part) (w : Nat) : (p.setBlankPos w).queue = p.queue := rfl
@[simp] theorem Part.setBlankPos_asm (p : Part) (w : Nat) : (p.setBlankPos w).asm = p.asm := rfl
@[simp] theorem Part.setBlankPos_route (p : Part) (w : Nat) : (p.setBlankPos w).route = p.route := rfl
@[simp] theorem Part.setBlankPos_clock (p : Part) (w : Nat) : (p.setBlankPos w).clock = p.clock := rfl
@[simp] theorem Part.setBlankPos_ctxs (p : Part) (w : Nat) : (p.setBlankPos w).ctxs = p.ctxs := rfl
@[simp] theorem Part.setBlankPos_scan (p : Part) (w : Nat) : (p.setBlankPos w).scan = p.scan := rfl
@[simp] theorem Part.setBlankPos_cons (p : Part) (w : Nat) : (p.setBlankPos w).cons = p.cons := rfl
@[simp] theorem Part.setBlankPos_claims (p : Part) (w : Nat) : (p.setBlankPos w).claims = p.claims := rfl
@[simp] theorem Part.setBlankPos_claimQueue (p : Part) (w : Nat) : (p.setBlankPos w).claimQueue = p.claimQueue := rfl
@[simp] theorem Part.setBlankPos_verify (p : Part) (w : Nat) : (p.setBlankPos w).verify = p.verify := rfl
@[simp] theorem Part.setBlankPos_scrub (p : Part) (w : Nat) : (p.setBlankPos w).scrub = p.scrub := rfl

/-! ### Part.setFormatStage -/

@[simp] theorem Part.setFormatStage_power (p : Part) (g : FormatStage) : (p.setFormatStage g).power = p.power := rfl
@[simp] theorem Part.setFormatStage_pins (p : Part) (g : FormatStage) : (p.setFormatStage g).pins = p.pins := rfl
@[simp] theorem Part.setFormatStage_backup (p : Part) (g : FormatStage) : (p.setFormatStage g).backup = p.backup := rfl
@[simp] theorem Part.setFormatStage_freeCount (p : Part) (g : FormatStage) : (p.setFormatStage g).freeCount = p.freeCount := rfl
@[simp] theorem Part.setFormatStage_arb (p : Part) (g : FormatStage) : (p.setFormatStage g).arb = p.arb := rfl
@[simp] theorem Part.setFormatStage_chan (p : Part) (g : FormatStage) : (p.setFormatStage g).chan = p.chan := rfl
@[simp] theorem Part.setFormatStage_attention (p : Part) (g : FormatStage) : (p.setFormatStage g).attention = p.attention := rfl
@[simp] theorem Part.setFormatStage_refusals (p : Part) (g : FormatStage) : (p.setFormatStage g).refusals = p.refusals := rfl
@[simp] theorem Part.setFormatStage_mode (p : Part) (g : FormatStage) : (p.setFormatStage g).mode = p.mode := rfl
@[simp] theorem Part.setFormatStage_store (p : Part) (g : FormatStage) : (p.setFormatStage g).store = p.store := rfl
@[simp] theorem Part.setFormatStage_queue (p : Part) (g : FormatStage) : (p.setFormatStage g).queue = p.queue := rfl
@[simp] theorem Part.setFormatStage_asm (p : Part) (g : FormatStage) : (p.setFormatStage g).asm = p.asm := rfl
@[simp] theorem Part.setFormatStage_route (p : Part) (g : FormatStage) : (p.setFormatStage g).route = p.route := rfl
@[simp] theorem Part.setFormatStage_clock (p : Part) (g : FormatStage) : (p.setFormatStage g).clock = p.clock := rfl
@[simp] theorem Part.setFormatStage_ctxs (p : Part) (g : FormatStage) : (p.setFormatStage g).ctxs = p.ctxs := rfl
@[simp] theorem Part.setFormatStage_scan (p : Part) (g : FormatStage) : (p.setFormatStage g).scan = p.scan := rfl
@[simp] theorem Part.setFormatStage_cons (p : Part) (g : FormatStage) : (p.setFormatStage g).cons = p.cons := rfl
@[simp] theorem Part.setFormatStage_claims (p : Part) (g : FormatStage) : (p.setFormatStage g).claims = p.claims := rfl
@[simp] theorem Part.setFormatStage_claimQueue (p : Part) (g : FormatStage) : (p.setFormatStage g).claimQueue = p.claimQueue := rfl
@[simp] theorem Part.setFormatStage_verify (p : Part) (g : FormatStage) : (p.setFormatStage g).verify = p.verify := rfl
@[simp] theorem Part.setFormatStage_scrub (p : Part) (g : FormatStage) : (p.setFormatStage g).scrub = p.scrub := rfl

/-! ### Part.clearDirect -/

@[simp] theorem Part.clearDirect_power (p : Part) : (p.clearDirect).power = p.power := rfl
@[simp] theorem Part.clearDirect_pins (p : Part) : (p.clearDirect).pins = p.pins := rfl
@[simp] theorem Part.clearDirect_backup (p : Part) : (p.clearDirect).backup = p.backup := rfl
@[simp] theorem Part.clearDirect_freeCount (p : Part) : (p.clearDirect).freeCount = p.freeCount := rfl
@[simp] theorem Part.clearDirect_arb (p : Part) : (p.clearDirect).arb = p.arb := rfl
@[simp] theorem Part.clearDirect_chan (p : Part) : (p.clearDirect).chan = p.chan := rfl
@[simp] theorem Part.clearDirect_attention (p : Part) : (p.clearDirect).attention = p.attention := rfl
@[simp] theorem Part.clearDirect_refusals (p : Part) : (p.clearDirect).refusals = p.refusals := rfl
@[simp] theorem Part.clearDirect_mode (p : Part) : (p.clearDirect).mode = p.mode := rfl
@[simp] theorem Part.clearDirect_store (p : Part) : (p.clearDirect).store = { p.store with direct := [] } := rfl
@[simp] theorem Part.clearDirect_queue (p : Part) : (p.clearDirect).queue = p.queue := rfl
@[simp] theorem Part.clearDirect_asm (p : Part) : (p.clearDirect).asm = p.asm := rfl
@[simp] theorem Part.clearDirect_route (p : Part) : (p.clearDirect).route = p.route := rfl
@[simp] theorem Part.clearDirect_clock (p : Part) : (p.clearDirect).clock = p.clock := rfl
@[simp] theorem Part.clearDirect_ctxs (p : Part) : (p.clearDirect).ctxs = p.ctxs := rfl
@[simp] theorem Part.clearDirect_scan (p : Part) : (p.clearDirect).scan = p.scan := rfl
@[simp] theorem Part.clearDirect_cons (p : Part) : (p.clearDirect).cons = p.cons := rfl
@[simp] theorem Part.clearDirect_claims (p : Part) : (p.clearDirect).claims = p.claims := rfl
@[simp] theorem Part.clearDirect_claimQueue (p : Part) : (p.clearDirect).claimQueue = p.claimQueue := rfl
@[simp] theorem Part.clearDirect_verify (p : Part) : (p.clearDirect).verify = p.verify := rfl
@[simp] theorem Part.clearDirect_retire (p : Part) : (p.clearDirect).retire = p.retire := rfl
@[simp] theorem Part.clearDirect_scrub (p : Part) : (p.clearDirect).scrub = p.scrub := rfl

/-! ### Part.stopContexts -/

@[simp] theorem Part.stopContexts_power (p : Part) : (p.stopContexts).power = p.power := rfl
@[simp] theorem Part.stopContexts_pins (p : Part) : (p.stopContexts).pins = p.pins := rfl
@[simp] theorem Part.stopContexts_backup (p : Part) : (p.stopContexts).backup = p.backup := rfl
@[simp] theorem Part.stopContexts_freeCount (p : Part) : (p.stopContexts).freeCount = p.freeCount := rfl
@[simp] theorem Part.stopContexts_arb (p : Part) : (p.stopContexts).arb = p.arb := rfl
@[simp] theorem Part.stopContexts_chan (p : Part) : (p.stopContexts).chan = p.chan := rfl
@[simp] theorem Part.stopContexts_attention (p : Part) : (p.stopContexts).attention = p.attention := rfl
@[simp] theorem Part.stopContexts_refusals (p : Part) : (p.stopContexts).refusals = p.refusals := rfl
@[simp] theorem Part.stopContexts_mode (p : Part) : (p.stopContexts).mode = p.mode := rfl
@[simp] theorem Part.stopContexts_store (p : Part) : (p.stopContexts).store = p.store := rfl
@[simp] theorem Part.stopContexts_queue (p : Part) : (p.stopContexts).queue = p.queue := rfl
@[simp] theorem Part.stopContexts_asm (p : Part) : (p.stopContexts).asm = p.asm := rfl
@[simp] theorem Part.stopContexts_route (p : Part) : (p.stopContexts).route = p.route := rfl
@[simp] theorem Part.stopContexts_clock (p : Part) : (p.stopContexts).clock = p.clock := rfl
@[simp] theorem Part.stopContexts_ctxs (p : Part) : (p.stopContexts).ctxs = p.ctxs.map Ctx.stopped := rfl
@[simp] theorem Part.stopContexts_scan (p : Part) : (p.stopContexts).scan = p.scan := rfl
@[simp] theorem Part.stopContexts_cons (p : Part) : (p.stopContexts).cons = p.cons := rfl
@[simp] theorem Part.stopContexts_claims (p : Part) : (p.stopContexts).claims = p.claims := rfl
@[simp] theorem Part.stopContexts_claimQueue (p : Part) : (p.stopContexts).claimQueue = p.claimQueue := rfl
@[simp] theorem Part.stopContexts_verify (p : Part) : (p.stopContexts).verify = p.verify := rfl
@[simp] theorem Part.stopContexts_retire (p : Part) : (p.stopContexts).retire = p.retire := rfl
@[simp] theorem Part.stopContexts_scrub (p : Part) : (p.stopContexts).scrub = p.scrub := rfl

/-! ### Part.initContexts -/

@[simp] theorem Part.initContexts_power (p : Part) : (p.initContexts).power = p.power := rfl
@[simp] theorem Part.initContexts_pins (p : Part) : (p.initContexts).pins = p.pins := rfl
@[simp] theorem Part.initContexts_backup (p : Part) : (p.initContexts).backup = p.backup := rfl
@[simp] theorem Part.initContexts_freeCount (p : Part) : (p.initContexts).freeCount = p.freeCount := rfl
@[simp] theorem Part.initContexts_arb (p : Part) : (p.initContexts).arb = p.arb := rfl
@[simp] theorem Part.initContexts_chan (p : Part) : (p.initContexts).chan = p.chan := rfl
@[simp] theorem Part.initContexts_attention (p : Part) : (p.initContexts).attention = p.attention := rfl
@[simp] theorem Part.initContexts_refusals (p : Part) : (p.initContexts).refusals = p.refusals := rfl
@[simp] theorem Part.initContexts_mode (p : Part) : (p.initContexts).mode = p.mode := rfl
@[simp] theorem Part.initContexts_store (p : Part) : (p.initContexts).store = p.store := rfl
@[simp] theorem Part.initContexts_queue (p : Part) : (p.initContexts).queue = p.queue := rfl
@[simp] theorem Part.initContexts_asm (p : Part) : (p.initContexts).asm = p.asm := rfl
@[simp] theorem Part.initContexts_route (p : Part) : (p.initContexts).route = p.route := rfl
@[simp] theorem Part.initContexts_clock (p : Part) : (p.initContexts).clock = p.clock := rfl
@[simp] theorem Part.initContexts_scan (p : Part) : (p.initContexts).scan = p.scan := rfl
@[simp] theorem Part.initContexts_cons (p : Part) : (p.initContexts).cons = p.cons := rfl
@[simp] theorem Part.initContexts_claims (p : Part) : (p.initContexts).claims = p.claims := rfl
@[simp] theorem Part.initContexts_claimQueue (p : Part) : (p.initContexts).claimQueue = p.claimQueue := rfl
@[simp] theorem Part.initContexts_verify (p : Part) : (p.initContexts).verify = p.verify := rfl
@[simp] theorem Part.initContexts_retire (p : Part) : (p.initContexts).retire = p.retire := rfl
@[simp] theorem Part.initContexts_scrub (p : Part) : (p.initContexts).scrub = p.scrub := rfl

/-! ### Part.stopScanning -/

@[simp] theorem Part.stopScanning_power (p : Part) : (p.stopScanning).power = p.power := rfl
@[simp] theorem Part.stopScanning_pins (p : Part) : (p.stopScanning).pins = p.pins := rfl
@[simp] theorem Part.stopScanning_backup (p : Part) : (p.stopScanning).backup = p.backup := rfl
@[simp] theorem Part.stopScanning_freeCount (p : Part) : (p.stopScanning).freeCount = p.freeCount := rfl
@[simp] theorem Part.stopScanning_arb (p : Part) : (p.stopScanning).arb = p.arb := rfl
@[simp] theorem Part.stopScanning_chan (p : Part) : (p.stopScanning).chan = p.chan := rfl
@[simp] theorem Part.stopScanning_attention (p : Part) : (p.stopScanning).attention = p.attention := rfl
@[simp] theorem Part.stopScanning_refusals (p : Part) : (p.stopScanning).refusals = p.refusals := rfl
@[simp] theorem Part.stopScanning_mode (p : Part) : (p.stopScanning).mode = p.mode := rfl
@[simp] theorem Part.stopScanning_store (p : Part) : (p.stopScanning).store = p.store := rfl
@[simp] theorem Part.stopScanning_queue (p : Part) : (p.stopScanning).queue = p.queue := rfl
@[simp] theorem Part.stopScanning_asm (p : Part) : (p.stopScanning).asm = p.asm := rfl
@[simp] theorem Part.stopScanning_route (p : Part) : (p.stopScanning).route = p.route := rfl
@[simp] theorem Part.stopScanning_clock (p : Part) : (p.stopScanning).clock = p.clock := rfl
@[simp] theorem Part.stopScanning_ctxs (p : Part) : (p.stopScanning).ctxs = p.ctxs := rfl
@[simp] theorem Part.stopScanning_cons (p : Part) : (p.stopScanning).cons = p.cons := rfl
@[simp] theorem Part.stopScanning_claims (p : Part) : (p.stopScanning).claims = p.claims := rfl
@[simp] theorem Part.stopScanning_claimQueue (p : Part) : (p.stopScanning).claimQueue = p.claimQueue := rfl
@[simp] theorem Part.stopScanning_verify (p : Part) : (p.stopScanning).verify = p.verify := rfl
@[simp] theorem Part.stopScanning_retire (p : Part) : (p.stopScanning).retire = p.retire := rfl
@[simp] theorem Part.stopScanning_scrub (p : Part) : (p.stopScanning).scrub = p.scrub := rfl

/-! ### Part.releaseCons -/

@[simp] theorem Part.releaseCons_power (p : Part) : (p.releaseCons).power = p.power := rfl
@[simp] theorem Part.releaseCons_pins (p : Part) : (p.releaseCons).pins = p.pins := rfl
@[simp] theorem Part.releaseCons_backup (p : Part) : (p.releaseCons).backup = p.backup := rfl
@[simp] theorem Part.releaseCons_freeCount (p : Part) : (p.releaseCons).freeCount = p.freeCount := rfl
@[simp] theorem Part.releaseCons_arb (p : Part) : (p.releaseCons).arb = p.arb := rfl
@[simp] theorem Part.releaseCons_chan (p : Part) : (p.releaseCons).chan = p.chan := rfl
@[simp] theorem Part.releaseCons_attention (p : Part) : (p.releaseCons).attention = p.attention := rfl
@[simp] theorem Part.releaseCons_refusals (p : Part) : (p.releaseCons).refusals = p.refusals := rfl
@[simp] theorem Part.releaseCons_mode (p : Part) : (p.releaseCons).mode = p.mode := rfl
@[simp] theorem Part.releaseCons_store (p : Part) : (p.releaseCons).store = p.store := rfl
@[simp] theorem Part.releaseCons_queue (p : Part) : (p.releaseCons).queue = p.queue := rfl
@[simp] theorem Part.releaseCons_asm (p : Part) : (p.releaseCons).asm = p.asm := rfl
@[simp] theorem Part.releaseCons_route (p : Part) : (p.releaseCons).route = p.route := rfl
@[simp] theorem Part.releaseCons_clock (p : Part) : (p.releaseCons).clock = p.clock := rfl
@[simp] theorem Part.releaseCons_ctxs (p : Part) : (p.releaseCons).ctxs = p.ctxs := rfl
@[simp] theorem Part.releaseCons_scan (p : Part) : (p.releaseCons).scan = p.scan := rfl
@[simp] theorem Part.releaseCons_cons (p : Part) : (p.releaseCons).cons = List.replicate 32 none := rfl
@[simp] theorem Part.releaseCons_claims (p : Part) : (p.releaseCons).claims = p.claims := rfl
@[simp] theorem Part.releaseCons_claimQueue (p : Part) : (p.releaseCons).claimQueue = p.claimQueue := rfl
@[simp] theorem Part.releaseCons_verify (p : Part) : (p.releaseCons).verify = p.verify := rfl
@[simp] theorem Part.releaseCons_retire (p : Part) : (p.releaseCons).retire = p.retire := rfl
@[simp] theorem Part.releaseCons_scrub (p : Part) : (p.releaseCons).scrub = p.scrub := rfl

/-! ### Part.latchFailure -/

@[simp] theorem Part.latchFailure_power (p : Part) : (p.latchFailure).power = p.power := rfl
@[simp] theorem Part.latchFailure_pins (p : Part) : (p.latchFailure).pins = p.pins := rfl
@[simp] theorem Part.latchFailure_freeCount (p : Part) : (p.latchFailure).freeCount = p.freeCount + 1 := rfl
@[simp] theorem Part.latchFailure_arb (p : Part) : (p.latchFailure).arb = p.arb := rfl
@[simp] theorem Part.latchFailure_chan (p : Part) : (p.latchFailure).chan = p.chan := rfl
@[simp] theorem Part.latchFailure_attention (p : Part) : (p.latchFailure).attention = p.attention := rfl
@[simp] theorem Part.latchFailure_refusals (p : Part) : (p.latchFailure).refusals = p.refusals := rfl
@[simp] theorem Part.latchFailure_mode (p : Part) : (p.latchFailure).mode = p.mode := rfl
@[simp] theorem Part.latchFailure_store (p : Part) : (p.latchFailure).store = p.store := rfl
@[simp] theorem Part.latchFailure_queue (p : Part) : (p.latchFailure).queue = p.queue := rfl
@[simp] theorem Part.latchFailure_asm (p : Part) : (p.latchFailure).asm = p.asm := rfl
@[simp] theorem Part.latchFailure_route (p : Part) : (p.latchFailure).route = p.route := rfl
@[simp] theorem Part.latchFailure_clock (p : Part) : (p.latchFailure).clock = p.clock := rfl
@[simp] theorem Part.latchFailure_ctxs (p : Part) : (p.latchFailure).ctxs = p.ctxs := rfl
@[simp] theorem Part.latchFailure_scan (p : Part) : (p.latchFailure).scan = p.scan := rfl
@[simp] theorem Part.latchFailure_cons (p : Part) : (p.latchFailure).cons = p.cons := rfl
@[simp] theorem Part.latchFailure_claims (p : Part) : (p.latchFailure).claims = p.claims := rfl
@[simp] theorem Part.latchFailure_claimQueue (p : Part) : (p.latchFailure).claimQueue = p.claimQueue := rfl
@[simp] theorem Part.latchFailure_verify (p : Part) : (p.latchFailure).verify = p.verify := rfl
@[simp] theorem Part.latchFailure_retire (p : Part) : (p.latchFailure).retire = p.retire := rfl
@[simp] theorem Part.latchFailure_scrub (p : Part) : (p.latchFailure).scrub = p.scrub := rfl

/-! ### State.answerRead -/

@[simp] theorem State.answerRead_pending (s : State) (w : Word) : (s.answerRead w).pending = s.pending := rfl
@[simp] theorem State.answerRead_mem (s : State) (w : Word) : (s.answerRead w).mem = s.mem := rfl
@[simp] theorem State.answerRead_port (s : State) (w : Word) : (s.answerRead w).port = { s.port with readData := some w } := rfl
@[simp] theorem State.answerRead_part (s : State) (w : Word) : (s.answerRead w).part = s.part := rfl

/-! ### State.setWaiting -/

@[simp] theorem State.setWaiting_pending (s : State) (ws : List Work) : (s.setWaiting ws).pending = s.pending := rfl
@[simp] theorem State.setWaiting_mem (s : State) (ws : List Work) : (s.setWaiting ws).mem = s.mem := rfl
@[simp] theorem State.setWaiting_port (s : State) (ws : List Work) : (s.setWaiting ws).port = { s.port with waiting := ws } := rfl
@[simp] theorem State.setWaiting_part (s : State) (ws : List Work) : (s.setWaiting ws).part = s.part := rfl

/-! ### Part.holdFields, Part.vacateVerify and Part.restartOperation -/

/-- All that holding route fields changes: the fields, and the next scrub due time when the scrub period hours change (R88, R188). -/
theorem Part.holdFields_eq (p : Part) (h : Held) :
    p.holdFields h = { p with
      route := { p.route with held := some h }
      scrub := { p.scrub with
        due := if p.route.held.map Held.scrubHours = some h.scrubHours then p.scrub.due
          else ({ p with route := { p.route with held := some h } } : Part).scrubInterval.map (p.clock.now + ·) } } := by
  unfold Part.holdFields
  split <;> rfl

@[simp] theorem Part.vacateVerify_verify (p : Part) : p.vacateVerify.verify = none := rfl
@[simp] theorem Part.vacateVerify_retire (p : Part) : p.vacateVerify.retire = p.retire := rfl
@[simp] theorem Part.vacateVerify_scrub (p : Part) : p.vacateVerify.scrub = p.scrub := rfl
@[simp] theorem Part.vacateVerify_claims (p : Part) : p.vacateVerify.claims = p.claims := rfl

/-- The scrub engine's turn changes the scrub state alone (R189). -/
theorem Part.scrubTurn_eq (p : Part) (ended : Bool) : p.scrubTurn ended = { p with scrub := (p.scrubTurn ended).scrub } := by
  unfold Part.scrubTurn Part.abandonStep Part.beginStep
  repeat' split
  all_goals rfl

/-- A restart keeps a WAITING batch WAITING (R73, R179; log 51). -/
theorem Part.restartOperation_keeps_waiting (p : Part) (h : p.retire.state = .waiting) :
    p.restartOperation.retire = p.retire := by
  have idle : p.verifyRunning = false → p.terminateNow = p := fun hv => by simp [Part.terminateNow, h, hv]
  unfold Part.restartOperation
  cases hv : p.verify with
  | none => rw [idle (by simp [Part.verifyRunning, hv])]
  | some v =>
    cases hs : v.suspended with
    | true => simp [h, hs, idle (by simp [Part.verifyRunning, hv, hs])]
    | false => simp [h, hs]; rw [Part.scrubTurn_eq]; rfl

/-! ### Part.passCheck and lastRecord -/

/-- A CHECK phase goes on while it has a segment to read or its VERIFY is suspended (R165). -/
theorem Part.passCheck_eq {p : Part} (h : ∀ v, p.verify = some v → v.phase = .check → v.todo = [] → v.suspended = true) :
    p.passCheck = p := by
  unfold Part.passCheck
  split
  · rfl
  · rename_i v hv
    split
    · rename_i hc
      simp [h v hv hc.1 hc.2.1] at hc
    · rfl

theorem lastRecord_of_record {hs : List Found} {h : Found} (hl : h.last ≠ 0) (fuel : Nat) :
    lastRecord hs (fuel + 1) h = some (h.number, h.last) := by simp [lastRecord, hl]

theorem lastRecord_of_header {hs : List Found} {h g : Found} (hl : h.last = 0) (hp : h.predecessor hs = some g) (fuel : Nat) :
    lastRecord hs (fuel + 1) h = lastRecord hs fuel g := by simp [lastRecord, hl, hp]

theorem lastRecord_missing {hs : List Found} {h : Found} (hl : h.last = 0) (hp : h.predecessor hs = none) (fuel : Nat) :
    lastRecord hs fuel h = none := by cases fuel <;> simp [lastRecord, hl, hp]

end Sys2Proof.Machine
end

