-- ==== Sys2Proof/Laws/Port.lean ====
section
/-! SUPPORT. What the operations of the upstream port can do to the queue and to the record memory. -/

namespace Sys2Proof.Machine

/-- The queue is as it was, and a canonical memory stays canonical. -/
def State.Keeps (s t : State) : Prop := t.pending = s.pending ∧ (s.mem.wf → t.mem.wf)

theorem State.Keeps.refl (s : State) : State.Keeps s s := ⟨rfl, id⟩

theorem State.Keeps.trans {s t u : State} (h : State.Keeps s t) (k : State.Keeps t u) : State.Keeps s u :=
  ⟨k.1.trans h.1, k.2 ∘ h.2⟩

/-- A change of the chip or of the port alone. -/
theorem State.Keeps.of_eq {s t : State} (hp : t.pending = s.pending) (hm : t.mem = s.mem) : State.Keeps s t :=
  ⟨hp, fun h => hm ▸ h⟩

theorem State.forward_keeps {a : Addr} {d : Word} {s t : State} (h : s.forward a d = some t) : State.Keeps s t := by
  unfold State.forward at h
  split at h
  · cases h
    exact ⟨rfl, fun hw => Memory.wf_write hw _ _⟩
  · cases h

/-- What a write forwarded to memory does. -/
theorem State.forward_eq {s : State} (h : s.part.portFree = true) (a : Addr) (d : Word) :
    s.forward a d = some { s with mem := s.mem.write a.toNat d, part := s.part.upstreamGrant } := by
  simp [State.forward, h]

theorem State.acceptWord_keeps {a : Addr} {d : Word} {n : Nat} {x : Assembly} {s t : State} (h : s.acceptWord a d n x = some t) :
    State.Keeps s t := by
  unfold State.acceptWord at h
  simp only at h
  split at h
  · cases h
  · rename_i u hu
    cases h
    exact (State.forward_keeps hu).trans (State.Keeps.of_eq rfl rfl)

theorem State.writeRecord_keeps {a : Addr} {d : Word} {n : Nat} {s t : State} (h : s.writeRecord a d n = some t) :
    State.Keeps s t := by
  unfold State.writeRecord at h
  simp only at h
  split at h
  · exact State.acceptWord_keeps h
  · split at h
    · cases h; exact State.Keeps.of_eq rfl rfl
    · split at h
      · cases h
      · obtain ⟨u, hu, rfl⟩ := Option.map_eq_some_iff.mp h
        exact (State.forward_keeps hu).trans (State.Keeps.of_eq rfl rfl)

theorem State.classify_keeps {a : Addr} {d : Word} {n : Nat} {m : Option Mode} {s t : State} (h : s.classify a d n m = some t) :
    State.Keeps s t := by
  unfold State.classify at h
  simp only at h
  split at h
  · exact State.forward_keeps h
  · cases h; exact State.Keeps.of_eq rfl rfl
  · split at h
    · split at h
      · cases h; exact State.Keeps.of_eq rfl rfl
      · split at h
        · split at h
          · cases h; exact State.Keeps.of_eq rfl rfl
          · obtain ⟨u, hu, rfl⟩ := Option.map_eq_some_iff.mp h
            exact (State.forward_keeps hu).trans (State.Keeps.of_eq rfl rfl)
        · exact State.forward_keeps h
    · split at h
      · cases h; exact State.Keeps.of_eq rfl rfl
      · split at h
        · cases h
        · exact State.writeRecord_keeps h

theorem State.police_keeps {a : Addr} {d : Word} {m : Option Mode} {s t : State} {more : List Work}
    (h : s.police a d m = some (t, more)) : State.Keeps s t := by
  unfold State.police at h
  split at h
  · cases h
  · cases h; exact State.Keeps.refl s

theorem State.place_keeps {a : Addr} {d : Word} {n : Nat} {m : Option Mode} {s t : State} {more : List Work}
    (h : s.place a d n m = some (t, more)) : State.Keeps s t := by
  unfold State.place at h
  simp only at h
  split at h
  · split at h
    · rename_i u hu
      cases h
      exact (State.Keeps.of_eq (t := { s with part := s.part.voidAssembly n true }) rfl rfl).trans (State.classify_keeps hu)
    · split at h
      · cases h
      · cases h; exact State.Keeps.of_eq rfl rfl
  · obtain ⟨u, hu, he⟩ := Option.map_eq_some_iff.mp h
    cases he
    exact State.classify_keeps hu

theorem State.modeRead_keeps {a : Addr} {s t : State} (h : s.modeRead a = some t) : State.Keeps s t := by
  unfold State.modeRead at h
  simp only at h
  repeat' split at h
  all_goals first
    | cases h; exact State.Keeps.of_eq rfl rfl
    | cases h

theorem State.arriveRead_keeps (a : Addr) (s : State) : State.Keeps s (s.arriveRead a).1 := by
  unfold State.arriveRead
  simp only
  repeat' split
  all_goals exact State.Keeps.of_eq rfl rfl

/-- One piece of work changes the queue nowhere and keeps the memory canonical. -/
theorem State.tryWork_keeps {w : Work} {s t : State} {more : List Work} (h : s.tryWork w = some (t, more)) :
    State.Keeps s t := by
  cases w with
  | write a d dock =>
    simp only [State.tryWork] at h
    cases h; exact State.Keeps.of_eq rfl rfl
  | gate a d dock =>
    simp only [State.tryWork] at h
    cases h; exact State.Keeps.of_eq rfl rfl
  | read a =>
    simp only [State.tryWork, Option.some.injEq] at h
    have := State.arriveRead_keeps a s
    rw [h] at this
    exact this
  | police a d m => exact State.police_keeps h
  | place a d n m => exact State.place_keeps h
  | modeRead a =>
    simp only [State.tryWork] at h
    obtain ⟨u, hu, he⟩ := Option.map_eq_some_iff.mp h
    cases he
    exact State.modeRead_keeps hu

theorem State.pump_keeps (n : Nat) : ∀ s : State, State.Keeps s (s.pump n) := by
  induction n with
  | zero => exact State.Keeps.refl
  | succ n ih =>
    intro s
    unfold State.pump
    split
    · exact State.Keeps.refl s
    · split
      · exact State.Keeps.refl s
      · rename_i t more ht
        exact (State.tryWork_keeps ht).trans ((State.Keeps.of_eq rfl rfl).trans (ih _))

theorem State.settle_keeps (s : State) : State.Keeps s s.settle := by
  unfold State.settle
  simp only
  split
  · exact (State.pump_keeps _ s).trans (State.Keeps.of_eq rfl rfl)
  · exact State.pump_keeps _ s

theorem State.access_keeps (w : Work) (s : State) : State.Keeps s (s.access w) := by
  unfold State.access
  simp only
  split
  · exact (State.Keeps.of_eq (t := s.setWaiting _) rfl rfl).trans (State.settle_keeps _)
  · split
    · exact State.Keeps.refl s
    · exact State.Keeps.of_eq rfl rfl

theorem State.giveCommand_keeps (a : Addr) (c : Command) (ps : List Word) (dock : Bool) (s : State) :
    State.Keeps s (s.giveCommand a c ps dock) := by
  have fold : ∀ (ds : List Word) (t : State),
      State.Keeps t (ds.foldl (fun s d => s.access (.write a d dock)) t) := by
    intro ds
    induction ds with
    | nil => exact State.Keeps.refl
    | cons d ds ih => exact fun t => (State.access_keeps _ t).trans (ih _)
  exact (State.Keeps.of_eq (t := { s with part := s.part.setDock dock }) rfl rfl).trans (fold _ _)

theorem State.stop_keeps (cut : Cut) (pw : Power) (s : State) : State.Keeps s (s.stop cut pw) :=
  ⟨rfl, fun h => Memory.wf_writeAll _ h⟩

theorem State.restartMem_wf {s : State} (h : s.mem.wf) : s.restartMem.wf := by
  unfold State.restartMem
  split
  · exact Memory.wf_writeWords _ h _
  · exact h

/-! ## What the policer does with a write handed on -/

/-- A write that breaks nothing is handed on to its placement with the route clock (R30, R39). -/
theorem State.police_unbroken {s : State} {a : Addr} (h : s.part.breaks a = false) (d : Word) (m : Option Mode) :
    s.police a d m = some (s, [.place a d s.part.clock.now m]) := by
  simp [State.police, h]

/-- A write that breaks nothing is placed by its address. -/
theorem State.place_unbroken {s : State} {a : Addr} (h : s.part.breaks a = false) (d : Word) (n : Nat) (m : Option Mode) :
    s.place a d n m = (s.classify a d n m).map (fun u => (u, [])) := by
  simp [State.place, h]

/-! ## When nothing waits -/

/-- With nothing waiting, the arbiter's grant is all that settling does. -/
theorem State.settle_quiet {s : State} (h : s.port.waiting = []) :
    s.settle = { s with part := s.part.grantPort } := by
  simp [State.settle, h, State.pump]

/-- A row that comes about, in a state in which no access waits. -/
theorem State.whenReady_next {ready : Part → Bool} {f : State → State} {s : State} (hr : s.part.running = true)
    (h : ready s.part = true) (hw : (f s).port.waiting = []) :
    s.whenReady ready f = .next { f s with part := (f s).part.grantPort } := by
  simp [State.whenReady, hr, h, State.settle_quiet hw]

theorem State.partEvent_next {ready : Part → Bool} {f : Part → Part} {s : State} (hq : s.Quiet)
    (h : ready s.part = true) :
    s.partEvent ready f = .next { s with part := (f s.part).grantPort } :=
  State.whenReady_next hq.1 h hq.2

theorem State.onRunning_next {f : Part → Part} {s : State} (h : s.part.running = true) :
    s.onRunning f = .next { s with part := f s.part } := by
  simp [State.onRunning, h]

/-- At rest, the arbiter grants nothing. -/
theorem Part.grantPort_atRest {p : Part} (h : p.atRest = true) : p.grantPort = p := by
  unfold Part.atRest at h
  unfold Part.grantPort Part.mayGrant
  cases hb : p.arb.burst <;> cases hq : p.req2Waiting <;> cases hl : p.lowGrant <;> simp_all

end Sys2Proof.Machine
end

