-- ==== Sys2Proof/Laws/Commands.lean ====
section
/-! SUPPORT. A command given to a part that is ready: its writes are consumed one by one, and its effect is what Part.judge
makes of it, followed by the arbiter's grant. -/

namespace Sys2Proof.Machine

/-- The same running command, presented or not. -/
def Running.unpresented (r : Running) : Running := { r with presented := false }

theorem Part.readBurst_chan (p : Part) (pins : Pins) (ch : Channel)
    (h : ch.running.map (fun r => r.work) = p.chan.running.map (fun r => r.work)) :
    ({ p with pins := pins, chan := ch } : Part).readBurst = p.readBurst := by
  unfold Part.readBurst
  cases h1 : ch.running <;> cases h2 : p.chan.running <;> simp_all

/-- What the arbiter grants depends on the command channel through the running command's work alone. -/
theorem Part.atRest_chan (p : Part) (pins : Pins) (ch : Channel)
    (h : ch.running.map (fun r => r.work) = p.chan.running.map (fun r => r.work)) :
    ({ p with pins := pins, chan := ch } : Part).atRest = p.atRest := by
  have hb := Part.readBurst_chan p pins ch h
  have hl : ({ p with pins := pins, chan := ch } : Part).lowGrant = p.lowGrant := by
    unfold Part.lowGrant
    rw [hb]
    rfl
  unfold Part.atRest
  rw [hl]
  rfl

/-- What the arbiter could grant depends on nothing else. -/
theorem Part.atRest_congr {p q : Part} (harb : q.arb = p.arb) (hstore : q.store = p.store) (hqueue : q.queue = p.queue)
    (hmode : q.mode = p.mode) (hasm : q.asm = p.asm) (hretire : q.retire = p.retire) (hverify : q.verify = p.verify)
    (hstep : q.scrub.step.isSome = p.scrub.step.isSome)
    (hwork : q.chan.running.map (fun r => r.work) = p.chan.running.map (fun r => r.work)) : q.atRest = p.atRest := by
  have hb : q.readBurst = p.readBurst := by
    unfold Part.readBurst
    cases h1 : q.chan.running <;> cases h2 : p.chan.running <;> simp_all
  have hl : q.longHasBurst = p.longHasBurst := by
    unfold Part.longHasBurst
    rw [hretire, hverify]
  have h2 : q.req2Waiting = p.req2Waiting := by
    cases p
    cases q
    subst harb hstore hqueue hmode hasm hretire hverify
    rfl
  unfold Part.atRest Part.lowGrant
  rw [harb, hb, hl, h2, hstep]

/-- A write that the part consumes at once. -/
theorem State.access_consumed {s : State} (hq : s.Quiet) {a : Addr} {d : Word} {dock : Bool} {p : Part}
    (h : s.part.arrive a d dock = (p, [])) :
    s.access (.write a d dock) = { s with part := p.grantPort } := by
  obtain ⟨hr, hw⟩ := hq
  obtain ⟨pending, mem, ⟨waiting, readData⟩, part⟩ := s
  simp only at hr hw h
  subst hw
  simp [State.access, hr, State.settle, State.setWaiting, State.pump, State.tryWork, h]

theorem Part.collecting_idle {p : Part} (h : p.chan.gate = .idle) : p.collecting = false := by
  simp [Part.collecting, h]

/-- The parameter words are collected one by one, and the last one completes the command (R53). -/
theorem State.collect_params (a : Addr) (c : Command) (dock : Bool) (rest : List Word) :
    ∀ (got : List Word) (s : State) (p : Part), p.running = true → s.port.waiting = [] → p.atRest = true →
      s.part = { p with chan := { p.presents a c got .running .ok [] with gate := .parameters a c got } } →
      got.length + rest.length = c.paramCount → rest ≠ [] →
      rest.foldl (fun s d => s.access (.write a d dock)) s
        = { s with part := (Part.judge c (got ++ rest) dock { p with chan := p.presents a c (got ++ rest) .running .ok [] }).grantPort } := by
  induction rest with
  | nil => intro got s p _ _ _ _ _ h; exact absurd rfl h
  | cons d rest ih =>
    intro got s p hr hw hat hs hlen _
    have hquiet : s.Quiet := ⟨by rw [hs]; exact hr, hw⟩
    simp only [List.length_cons] at hlen
    cases hrest : rest with
    | nil =>
      subst hrest
      simp only [List.length_nil] at hlen
      have harr : s.part.arrive a d dock
          = (Part.judge c (got ++ [d]) dock { p with chan := p.presents a c (got ++ [d]) .running .ok [] }, []) := by
        rw [hs]
        simp [Part.arrive, Part.collecting, Part.gateWrite, Part.takeParameter, Part.presents, hlen.symm]
      simp only [List.foldl_cons, List.foldl_nil]
      rw [State.access_consumed hquiet harr]
    | cons e more =>
      have hlt : ¬ c.paramCount ≤ (got ++ [d]).length := by
        rw [hrest] at hlen
        simp only [List.length_append, List.length_cons, List.length_nil] at *
        omega
      let q : Part := { p with chan := { p.presents a c (got ++ [d]) .running .ok [] with gate := .parameters a c (got ++ [d]) } }
      have harr : s.part.arrive a d dock = (q, []) := by
        rw [hs]
        simp only [Part.arrive, Part.collecting, Part.gateWrite, Part.takeParameter, Part.presents, if_true,
          Option.map_some, hlt, if_false, q]
      have hq : q.grantPort = q := by
        apply Part.grantPort_atRest
        rw [show q.atRest = p.atRest from Part.atRest_chan p p.pins _ (by
          simp only [Part.presents, Option.map_map]; rfl)]
        exact hat
      rw [← hrest]
      simp only [List.foldl_cons]
      rw [State.access_consumed hquiet harr, hq]
      have := ih (got ++ [d]) { s with part := q } p hr hw hat rfl (by simp [List.length_append]; omega) (by rw [hrest]; simp)
      rw [this]
      simp [List.append_assoc]

/-- A command given to a part that is ready takes its effect at its last write. -/
theorem State.giveCommand_ready {s : State} (h : s.Ready) (a : Addr) (c : Command) (ps : List Word) (dock : Bool)
    (hlen : ps.length = c.paramCount) :
    s.giveCommand a c ps dock = { s with part := (Part.judge c ps dock (s.part.taken a c ps dock)).grantPort } := by
  obtain ⟨⟨hr, hw⟩, hg, hat⟩ := h
  let p : Part := s.part.setDock dock
  have hpr : p.running = true := hr
  have hpg : p.chan.gate = .idle := hg
  have hpat : p.atRest = true := by
    rw [show p.atRest = s.part.atRest from Part.atRest_chan s.part _ s.part.chan rfl]; exact hat
  let p1 : Part := { p with chan := { p.endPresentation.chan with gate := .keyed a } }
  let p2 : Part := { p with chan := { p.endPresentation.chan with gate := .gated a } }
  have hwork : ∀ (g : Gate) (cur : Option CurrentCommand) (n : Nat),
      ({ gate := g, current := cur, running := p.chan.running.map (fun r => { r with presented := false }),
         protectErrors := n } : Channel).running.map (fun r => r.work) = p.chan.running.map (fun r => r.work) := by
    intro g cur n
    simp only [Option.map_map]
    rfl
  have hrest : ∀ (g : Gate) (cur : Option CurrentCommand) (n : Nat),
      ({ p with chan := { gate := g, current := cur, running := p.chan.running.map (fun r => { r with presented := false }),
                          protectErrors := n } } : Part).grantPort
        = { p with chan := { gate := g, current := cur, running := p.chan.running.map (fun r => { r with presented := false }),
                             protectErrors := n } } := by
    intro g cur n
    apply Part.grantPort_atRest
    rw [Part.atRest_chan p p.pins _ (hwork g cur n)]
    exact hpat
  have h1 : ({ s with part := p } : State).access (.write a keyWord1 dock) = { s with part := p1 } := by
    have : p.arrive a keyWord1 dock = (p1, []) := by
      simp [Part.arrive, Part.collecting_idle hpg, Part.gateWrite, Part.endPresentation, hpg, Part.setGate, p1]
    rw [State.access_consumed (s := { s with part := p }) ⟨hpr, hw⟩ this]
    exact congrArg (fun q => { s with part := q }) (hrest _ _ _)
  have h2 : ({ s with part := p1 } : State).access (.write a keyWord2 dock) = { s with part := p2 } := by
    have : p1.arrive a keyWord2 dock = (p2, []) := by
      simp [Part.arrive, Part.collecting, Part.gateWrite, Part.endPresentation, Part.setGate, p1, p2]
      constructor
      · cases p.chan.current <;> rfl
      · cases p.chan.running <;> rfl
    rw [State.access_consumed (s := { s with part := p1 }) ⟨hpr, hw⟩ this]
    exact congrArg (fun q => { s with part := q }) (hrest _ _ _)
  have hcode : Command.ofCode c.code = some c := by cases c <;> decide
  have htake : p2.arrive a c.code dock = ((p2.endPresentation).takeCommand a c dock, []) := by
    have hc : p2.collecting = false := rfl
    have hg2 : p2.endPresentation.chan.gate = .gated a := rfl
    simp only [Part.arrive, hc, Bool.false_eq_true, if_false, Part.gateWrite, hg2, hcode, if_true]
  have hrun : ∀ o : Option Running, (o.map (fun r => ({ r with presented := false } : Running))).map (fun r => { r with presented := false })
      = o.map (fun r => { r with presented := false }) := by intro o; cases o <;> rfl
  have hfold : s.giveCommand a c ps dock
      = ps.foldl (fun s d => s.access (.write a d dock)) (({ s with part := p2 } : State).access (.write a c.code dock)) := by
    show List.foldl _ _ _ = _
    simp only [List.foldl_cons]
    rw [show ({ s with part := s.part.setDock dock } : State) = { s with part := p } from rfl, h1, h2]
  rw [hfold, State.access_consumed (s := { s with part := p2 }) ⟨hpr, hw⟩ htake]
  cases ps with
  | nil =>
    have h0 : c.paramCount = 0 := by simpa using hlen.symm
    simp only [List.foldl_nil, Part.takeCommand, h0, if_true]
    congr 3
    simp only [Part.present, Part.endPresentation, p2, Part.taken, Part.presents, hrun, p, Part.setDock]
  | cons d ds =>
    have h0 : ¬ c.paramCount = 0 := by rw [← hlen]; simp
    let q : Part := { p with chan := { p.presents a c [] .running .ok [] with gate := .parameters a c [] } }
    have hq : (p2.endPresentation).takeCommand a c dock = q := by
      simp only [Part.takeCommand, h0, if_false, Part.present, Part.endPresentation, p2, Part.presents, hrun, q]
    have hqg : q.grantPort = q := hrest _ _ _
    rw [hq, hqg]
    have := State.collect_params a c dock (d :: ds) [] { s with part := q } p hpr hw hpat rfl (by simpa using hlen) (by simp)
    rw [this]
    rfl

/-- A row that gives a command is the sequence of its writes. -/
theorem State.exec_given {i : Instr} {s : State} {a : Addr} {c : Command} {ps : List Word} {dock : Bool}
    (h : s.given i = some (a, c, ps, dock)) :
    exec i s = .next (s.giveCommand a c ps dock) ∧ ps.length = c.paramCount := by
  cases i <;> simp only [State.given, reduceCtorEq, Option.some.injEq, Prod.mk.injEq] at h
  all_goals
    obtain ⟨rfl, rfl, rfl, rfl⟩ := h
    exact ⟨rfl, rfl⟩

/-- A row that gives a command to a part that is ready. -/
theorem State.exec_ready {i : Instr} {s : State} {a : Addr} {c : Command} {ps : List Word} {dock : Bool} (hs : s.Ready)
    (h : s.given i = some (a, c, ps, dock)) :
    exec i s = .next { s with part := (Part.judge c ps dock (s.part.taken a c ps dock)).grantPort } := by
  obtain ⟨he, hl⟩ := State.exec_given h
  rw [he, State.giveCommand_ready hs a c ps dock hl]

/-- The running command stays the running command when it is no longer presented. -/
theorem Part.presents_work (p : Part) (a : Addr) (c : Command) (ps : List Word) (st : CmdState) (o : CmdOutcome)
    (rs : List Word) :
    (p.presents a c ps st o rs).running.map (fun r => r.work) = p.chan.running.map (fun r => r.work) := by
  simp only [Part.presents, Option.map_map]
  rfl

/-- A command that passes checks 1 to 3 of R54 and whose effect leaves the arbiter at rest. -/
theorem State.command_completes {i : Instr} {s : State} {a : Addr} {c : Command} {ps : List Word} {dock : Bool} {q : Part}
    (hs : s.Ready) (h : s.given i = some (a, c, ps, dock)) (hb : c.passesBusy = true ∨ s.part.chan.running = none)
    (hm : s.part.mode.admits c = true) (hp : c.wellProtected ps = true)
    (hq : Part.carryOut c ps dock (s.part.taken a c ps dock) = q) (hr : q.atRest = true) :
    exec i s = .next { s with part := q } := by
  rw [State.exec_ready hs h]
  have : Part.judge c ps dock (s.part.taken a c ps dock) = q := by
    unfold Part.judge
    rw [if_neg, if_neg, if_neg, hq]
    · simp [hp]
    · show ¬ (!s.part.mode.admits c) = true
      simp [hm]
    · rcases hb with hb | hb <;> simp [hb, Part.taken, Part.presents]
  rw [this, Part.grantPort_atRest hr]

end Sys2Proof.Machine
end

