-- ==== Sys2Proof/WellFormed.lean ====
section
/-! DEFINITION. Which commands name something that exists: a burst has at most 16 words (R46), a compartment is 0 to 7
(R94), a consignment table index 0 to 31 (R139). -/

namespace Sys2Proof

/-- A cut of an arbiter burst leaves at most the 16 words of a burst written (R46); the mount's own writes are a run of bursts. -/
def Cut.wellFormed : Cut → Bool
  | .clean => true
  | .recordStore n => n ≤ 16
  | .longOperation n => n ≤ 16
  | .mount _ => true

def Instr.wellFormed : Instr → Bool
  | .gapTimerExpiry c => c < 8
  | .continuousExcursionDeadline i => i < 32
  | .resetAssert cut => cut.wellFormed
  | .supplyFail cut => cut.wellFormed
  | .upstreamWrite _ _ _ => true
  | .upstreamRead _ => true
  | .report _ => true
  | .acknowledge _ _ => true
  | .identity _ => true
  | .whereIs _ _ => true
  | .clockSet _ _ _ _ _ _ _ => true
  | .routeLoad _ _ _ _ => true
  | .routeLoadReadBurst => true
  | .routeEnd _ => true
  | .routeEndRecordJoin => true
  | .rescan _ _ => true
  | .audit _ => true
  | .claimOpen _ _ _ => true
  | .claimRead _ _ => true
  | .claimClose _ _ => true
  | .progress _ => true
  | .suspend _ => true
  | .resume _ => true
  | .terminate _ => true
  | .serviceEnter _ _ _ _ _ => true
  | .serviceEnterReadEnd _ => true
  | .serviceLeave _ => true
  | .retire _ _ => true
  | .format _ _ _ _ _ => true
  | .formatBurst => true
  | .directWriteComplete => true
  | .conditionRewrite => true
  | .recordWriterServe => true
  | .recordWriterWriteComplete => true
  | .withheldSummary => true
  | .restartRecordsJoin => true
  | .outageRecordJoin => true
  | .scanVisit _ => true
  | .lineWatchSample _ => true
  | .dwell => true
  | .collectionWindowExpiry => true
  | .blankingMark => true
  | .blankingBurst => true
  | .verifyStart => true
  | .verifyBurst => true
  | .extractRecordAdd => true
  | .scrubStepDue => true
  | .scrubBurst => true
  | .dockFall => true
  | .reset _ => true
  | .warmRestart _ => true
  | .coldRestart _ => true
  | .mountEnd => true
  | .routeClockAdvance => true
  | .backupDomainLoss => true

end Sys2Proof
end

