-- ==== Sys2Proof/Tests/Slice0.lean ====
section
/-! SUPPORT. Small tests: the well-formedness smoke tests, the first power-up, the spec's worked example of a protected parameter,
and for each statement of Certificates/Slice0/Obligations.lean a state and operands that meet its hypotheses, clause by clause. -/

namespace Sys2Proof.Tests

set_option Elab.async false

open Sys2Proof Sys2Proof.Machine

/-! ## Fixtures -/

/-- GUARDED with an empty 64-segment store and a valid clock at 1,000. -/
def guarded : Part :=
  { State.reset.part with mode := .guarded, store := Store.formatted 1 0 0
                          clock := { now := 1000, valid := true, floor := 900, mark := none } }

def service : Part := { guarded with mode := .service }

def on (p : Part) : State := { State.reset with part := p }

def cls0 : ClassEntry :=
  { code := 1, hold := 80, soft := 100, melt := 200, budget := 10, maxExcursion := 5, dwell := 30, refreeze := 0, gap := 2 }

/-- One enabled compartment, with contact slots 0 and 1 and seal slot 16. -/
def sheet0 : Sheet :=
  { routeNumber := 7, retentionDays := 30, scrubHours := 24, serviceWord := 0x55, skew := 60, scanMode := 1
    classes := [cls0], comps := [{ enabled := 1, cls := 0, probe := 2, contacts := 3, seals := 1 }] }

def ctx0 : Ctx := Ctx.initial cls0 900 false

def slot0 : Slot := { Slot.cold with changedAt := some 900 }

/-- A LOADED route with its scanner RUNNING. -/
def loaded : Part :=
  { guarded with
    route := { Route.cold with state := .loaded, sheet := some sheet0, held := some sheet0.held, start := some 900 }
    ctxs := guarded.ctxs.set 0 ctx0
    scan := { Scanner.cold with run := .running, extended := true, slots := List.replicate 24 slot0 } }

def cargo : Consignment :=
  { id := 77, comp := 0, cls := 0, loaded := 10, remaining := 10, loadTime := 950, base := Figures.zero, closing := none,
    worst := none, flags := Flags.clear, openings := 0, dwells := 0, drops := 0, state := .loaded }

def carrying : Part := { loaded with cons := loaded.cons.set 3 (some cargo) }

def halted : Part :=
  { carrying with route := { carrying.route with state := .halted }
                  clock := { now := 950, valid := false, floor := 900, mark := some 940 } }

/-- `st` has segment `n` open with append slot `k`; nothing is owed. -/
def opened (st : Stream) (n k : Nat) (p : Part) : Part :=
  p
  |> Part.modSeg n (fun e => { e with state := .opened, stream := some st, count := some (k - 1), firstRec := some 1 })
  |> Part.modStream st (fun e => { e with openSeg := some n, append := some k })

def stalled (st : Stream) (p : Part) : Part :=
  { p with store := { p.store with pool := [] } } |> Part.modStream st (fun e => { e with stalled := true })

def assembling (st : Stream) (k : Kind) (n slot next : Nat) : Assembly :=
  { seg := n, slot := slot, stream := st, kind := k, next := next, words := List.replicate (min next 12) k.headerWord,
    receipt := if 12 < next then some 990 else none, chain := if 12 < next then some 5 else none, promise := false }

def bursting (b : Burst) (p : Part) : Part := { p with arb := { p.arb with burst := some b } }

def entry (k : Kind) (t : Option Taken) : QueueEntry := { stream := .event, kind := k, body := [1, 2], taken := t }

def taken0 : Taken := { seg := 3, slot := 4, seq := 5, words := List.replicate 16 7 }

def queued (n : Nat) (p : Part) : Part := { p with queue := List.replicate n (entry .outage none) }

/-- A VERIFY of claim 2 in the verify slot. -/
def verifying (suspended : Bool) (ph : Phase) (p : Part) : Part :=
  { p with
    claims := p.claims.modify 2 (fun c => { c with state := .verifying, id := some 77, held := [4, 9] })
    verify := some { Verify.start 2 with suspended := suspended, phase := ph } }

def verify0 (suspended : Bool) (ph : Phase) : Verify := { Verify.start 2 with suspended := suspended, phase := ph }

def batch0 (current : Option Nat) (pos : BlankPos) (completed : Nat) (window : Bool) : Batch :=
  { segs := [3, 4], current := current, pos := pos, completed := completed, window := window }

def retiring (st : RetireState) (b : Batch) (p : Part) : Part := { p with retire := { state := st, batch := some b, fmt := none } }

def formatting (st : FormatStage) (p : Part) : Part :=
  { p with retire := { state := .formatRunning, batch := none, fmt := some { code := 1, stage := st } } }

def running (w : RunningWork) (p : Part) : Part :=
  { p with chan := { p.chan with
      current := some { echo := 0x7E06, params := [], state := .running, outcome := .ok, results := [], toggle := false,
                        addr := some 5, readPos := 0 }
      running := some { work := w, presented := true } } }

def current0 (st : CmdState) (pos : Nat) (results : List Word) : CurrentCommand :=
  { echo := 0x7E05, params := [], state := st, outcome := .ok, results := results, toggle := true, addr := some 5, readPos := pos }

def presenting (c : CurrentCommand) (p : Part) : Part := { p with chan := { p.chan with current := some c } }

def gated (g : Gate) (p : Part) : Part := { p with chan := { p.chan with gate := g } }

/-! ## Well-formedness (a burst has at most 16 words, R46; compartments 0 to 7, R94; table indices 0 to 31, R139) -/

theorem test_wf_gap_timer : (Instr.gapTimerExpiry 7).wellFormed = true ∧ (Instr.gapTimerExpiry 8).wellFormed = false := by decide
theorem test_wf_deadline :
    (Instr.continuousExcursionDeadline 31).wellFormed = true ∧ (Instr.continuousExcursionDeadline 32).wellFormed = false := by decide
theorem test_wf_reset_assert :
    (Instr.resetAssert (.recordStore 16)).wellFormed = true ∧ (Instr.resetAssert (.recordStore 17)).wellFormed = false
      ∧ (Instr.resetAssert (.longOperation 17)).wellFormed = false := by decide
theorem test_wf_supply_fail :
    (Instr.supplyFail (.longOperation 16)).wellFormed = true ∧ (Instr.supplyFail (.longOperation 17)).wellFormed = false
      ∧ (Instr.supplyFail (.recordStore 17)).wellFormed = false := by decide

/-! ## The first power-up, and single effects -/

/-- Four steps from a part without SUPPLY: the backup domain lost, SUPPLY back, the mount of a memory that nothing has written. -/
theorem test_first_power_up :
    exec (.coldRestart false) (on { Part.cold with power := .off, backup := { Part.cold.backup with lost := true } })
        = .next (on { Part.cold with backup := { Part.cold.backup with mounting := true } })
      ∧ exec .mountEnd (on { Part.cold with backup := { Part.cold.backup with mounting := true } }) = .next State.reset :=
  ⟨rfl, rfl⟩

/-- The worked example of R58: a mistyped complement is a PROTECT_MISMATCH, and the corrected words are well formed. -/
theorem test_protected_example :
    Command.wellProtected .clockSet [0x4C10, 0x2E9B, 0xB3EF, 0xD165, 0x4C10, 0x2E9B] = false
      ∧ Command.wellProtected .clockSet [0x4C10, 0x2E9B, 0xB3EF, 0xD164, 0x4C10, 0x2E9B] = true := by decide

/-- N_SEG of the three store size codes, and the addresses of section 6.1. -/
theorem test_geometry : [segCount 1, segCount 2, segCount 3] = [64, 128, 256] ∧ slotAddr 2 3 = 32816 ∧ addrSeg 32816 = 2
    ∧ addrSlot 32816 = 3 ∧ addrWord 32816 = 0 := by decide

/-- The CRC of the reflected generator on the check string "12", 0x31 0x32, seeded with all ones (log 13). -/
theorem test_crc_of_one_word : crcWord 0 0 = 0 ∧ crcWord 0 1 ≠ crcWord 0 0x8000 := by decide +kernel

theorem test_memory_stays_canonical :
    Memory.write (Memory.write [] 5 7) 3 9 = [(3, 9), (5, 7)] ∧ Memory.write [(3, 9), (5, 7)] 3 0xFFFF = [(5, 7)]
      ∧ Memory.read [(5, 7)] 3 = 0xFFFF := by decide

/-- The status word of a DONE command: echo 05, state 1, toggle, outcome OK (R213). -/
theorem test_status_word : (current0 .done 0 []).statusWord = 0x0505 := by decide

/-! ## Witnesses: the machine -/

theorem witness_StepRunsTheFrontCommand : ∃ s : State, ∃ c rest, s.pending = c :: rest ∧ rest ≠ [] :=
  ⟨{ State.reset with pending := [.report 3, .verifyStart] }, .report 3, [.verifyStart], rfl, by decide⟩

theorem witness_EveryStepKeepsCountsInRange :
    carrying.countsInRange ∧ carrying.tablesSized ∧ carrying.causesInRange ∧ step (on carrying) = .next (on carrying) := by
  refine ⟨⟨by decide +kernel, by decide +kernel, by decide +kernel, by decide +kernel, by decide +kernel, by decide +kernel, ?_⟩,
    by decide +kernel, by decide +kernel, rfl⟩
  intro o ho k hk
  have h : carrying.cons.all (fun o => match o with | some k => decide k.countsInRange | none => true) = true := by decide +kernel
  have hx := List.all_eq_true.mp h o ho
  subst hk
  exact of_decide_eq_true hx

/-- A batch is being blanked: segment 3 is RETIRING, segment 4 CLOSED, and neither is in the pool. -/
def blankingBatch : Part :=
  { guarded with
    store := { guarded.store with
      pool := guarded.store.pool.filter (fun n => n != 3 && n != 4)
      segs := (guarded.store.segs.set 2 { SegEntry.blankEntry with state := .retiring }).set 3
        { SegEntry.blankEntry with state := .closed } }
    retire := { state := .blanking, batch := some (batch0 (some 3) (.word 31) 0 false), fmt := none } }

theorem witness_EveryStepKeepsThePoolAscending : blankingBatch.poolSound := by
  refine ⟨by decide +kernel, ?_, ?_, by decide +kernel, by decide +kernel⟩
  · intro st n h
    cases st <;> exact (Option.some_ne_none n (h.symm.trans rfl)).elim
  · intro b hb
    obtain rfl : batch0 (some 3) (.word 31) 0 false = b := by injection hb
    refine ⟨by decide +kernel, ?_, ?_⟩
    · intro n hn
      obtain rfl : n = 4 := by simpa [batch0] using hn
      exact ⟨_, rfl, Or.inl rfl⟩
    · intro n hn
      obtain rfl : 3 = n := by injection hn
      exact ⟨by decide +kernel, _, rfl, rfl⟩

theorem witness_EveryStepKeepsTheMemoryCanonical : (on carrying).memSound ∧ (on carrying).Rested := by decide +kernel

/-- A VERIFY is running, and a claim waits behind it. -/
theorem witness_EveryStepKeepsOneLongOperation :
    ({ verifying false .check guarded with claimQueue := [1] } : Part).oneLongOperation := by
  refine ⟨by decide +kernel, by decide +kernel, ?_, by decide +kernel, by decide +kernel⟩
  intro v hv
  cases hv
  exact ⟨by decide +kernel, by decide +kernel⟩

/-! ## Witnesses: the record store and the arbiter -/

theorem witness_OpeningTakesTheLowestBlankSegment : guarded.store.pool = (0 + 1) :: (List.range 62).map (· + 2) := by decide +kernel

def direct0 (k : DirectKind) : DirectEntry := { kind := k, seg := 3, slot := 4, words := List.replicate 16 1 }

theorem witness_Requester2WritesInOrder :
    (let s := on { guarded with store := { guarded.store with direct := [direct0 .answer] } }
     s.Quiet ∧ s.part.arb.burst = none ∧ s.part.store.direct = [direct0 .answer])
    ∧ (let s := on (guarded.modSeg 3 (fun e => { e with owed := .faulted }))
       s.Quiet ∧ s.part.arb.burst = none ∧ s.part.store.direct = []
        ∧ s.part.store.segs[2]? = some { SegEntry.blankEntry with owed := .faulted }
        ∧ (s.part.store.segs.take 2).all (fun g => g.owed == .none) = true) := by decide +kernel

theorem witness_Requester2WritesInOrder_queue :
    let base (s : State) : Prop := s.Quiet ∧ s.part.arb.burst = none ∧ s.part.store.direct = [] ∧ s.part.owedRewrite = none
      ∧ s.part.retire.state ≠ .formatRunning ∧ s.part.asm = none ∧ s.part.queue = [entry .outage none]
    (base (on (queued 1 (opened .event 2 1022 guarded)))
      ∧ (opened .event 2 1022 guarded).store.streams.event.append = some 1022)
    ∧ (base (on (queued 1 guarded)) ∧ guarded.store.streams.event.openSeg = none ∧ guarded.mayTake .event = true)
    ∧ (base (on (queued 1 { guarded with store := { guarded.store with pool := [] } }))
      ∧ ({ guarded with store := { guarded.store with pool := [] } } : Part).mayTake .event = false)
    ∧ ((on { guarded with queue := [entry .outage (some taken0)] }).Quiet
      ∧ ({ guarded with queue := [entry .outage (some taken0)] } : Part).owedRewrite = none) := by decide +kernel

theorem witness_RecordsLeaveAndJoinTheQueue :
    let burst : Burst := .record 0x8000 [1]
    let one (k : Kind) (n : Nat) (p : Part) : Part :=
      bursting burst { p with queue := entry k (some taken0) :: List.replicate n (entry .outage none) }
    let frozen (o : Option (List Word)) (p : Part) : Part := { p with scan := { p.scan with run := .frozen, owed := o } }
    ((on (one .outage 11 loaded)).Quiet ∧ loaded.scan.run ≠ .frozen)
    ∧ (let p := one .routeEnd 0 (opened .event 2 5 { guarded with route := { guarded.route with closePending := true } })
       (on p).Quiet ∧ p.scan.run ≠ .frozen ∧ p.asm = none ∧ p.route.closeWait = none ∧ p.store.streams.event.openSeg = some 2)
    ∧ ((on (frozen none (one .outage 12 loaded))).Quiet ∧ 11 < (List.replicate 12 (entry .outage none)).length)
    ∧ ((on (frozen none (one .outage 11 loaded))).Quiet ∧ (frozen none loaded).scan.owed = none)
    ∧ ((on (frozen (some [4]) (one .outage 11 loaded))).Quiet ∧ (frozen (some [4]) loaded).scan.owed = some [4])
    ∧ (on (frozen (some [4]) (one .outage 10 loaded))).Quiet := by decide +kernel

theorem witness_RecordsLeaveAndJoinTheQueue_waiting :
    (let p := queued 11 { loaded with route := { loaded.route with endRecord := some [1], outageRecord := some [2] } }
     p.running = true ∧ p.queue.length = 11 ∧ p.route.endRecord = some [1] ∧ p.route.outageRecord = some [2])
    ∧ (let o : OwedOutage := { fail := 5, restart := 70000, secs := 9, merged := 1, comps := 5, count := 3 }
       let r : OwedRestart := { fail := 5, restart := 70000, merged := 1, ended := .none, voided := none }
       let q : Part := { loaded with backup := { loaded.backup with outage := some o, restart := some r } }
       (queued 10 q).queue.length = 10 ∧ (queued 11 q).queue.length = 11 ∧ q.backup.outage = some o ∧ q.backup.restart = some r
        ∧ q.running = true)
    ∧ (let p := queued 15 { loaded with ctxs := loaded.ctxs.set 0 { ctx0 with summaryOwed := true, withheld := 3 } }
       p.queue.length ≤ 15 ∧ p.ctxs[0]? = some { ctx0 with summaryOwed := true, withheld := 3 } ∧ p.running = true) := by
  decide +kernel

theorem witness_ArbiterGrantChangesOnlyItsOwn :
    (let p := running .routeLoad guarded
     p.running = true ∧ p.arb.burst = none ∧ p.req2Waiting = false ∧ p.readBurst = some .sheetRead ∧ p.longHasBurst = false)
    ∧ (let p : Part := { guarded with scrub := { guarded.scrub with step := some { check := .start 3, abandoned := false } } }
       p.readBurst = none ∧ p.longHasBurst = false ∧ p.scrub.step ≠ none ∧ p.req2Waiting = false)
    ∧ (let p := retiring .blanking (batch0 (some 3) .rewrite 0 false) guarded
       p.longHasBurst = true ∧ p.readBurst = none ∧ p.verifyRunning = false ∧ p.req2Waiting = false) := by decide +kernel

theorem witness_SlotChangesStartWhatWaits :
    (let p := verifying true .check (retiring .waiting (batch0 none .rewrite 0 false) guarded)
     p.retire.state = .waiting ∧ p.verifyRunning = false)
    ∧ (let p : Part := { guarded with claimQueue := [1] }
       p.verify = none ∧ p.retire.state = .empty ∧ (p.slotsChanged false).longRunning = true)
    ∧ (let p : Part := { guarded with claimQueue := [1],
                                      scrub := { guarded.scrub with step := some { check := .start 3, abandoned := false } } }
       (p.slotsChanged false).longRunning = true ∧ p.scrub.step ≠ none ∧ p.arb.burst ≠ some .scrub) := by decide +kernel

/-! ## Witnesses: the upstream port -/

theorem witness_TheGateConsumesTheKeySequence :
    ((on guarded).Quiet ∧ guarded.atRest = true ∧ guarded.chan.gate = .idle)
    ∧ ((on (gated (.keyed 9) guarded)).Quiet ∧ (gated (.keyed 9) guarded).atRest = true)
    ∧ ((on (gated (.gated 9) guarded)).Quiet ∧ Command.ofCode 0x7E15 = none ∧ Command.ofCode 0x7E00 = none
      ∧ (gated (.gated 9) guarded).chan.current = none)
    ∧ (on (gated (.parameters 8 .clockSet [1]) (running .routeLoad (bursting .sheetRead guarded)))).Quiet
    ∧ (Command.ofCode 0x7E01 = some .report ∧ Command.report.paramCount = 0 ∧ Command.ofCode 0x7E05 = some .clockSet
      ∧ Command.clockSet.paramCount = 6)
    ∧ ((on (gated (.parameters 8 .clockSet [1, 2, 3, 4]) (presenting (current0 .running 0 []) guarded))).Quiet
      ∧ [1, 2, 3, 4].length + 1 < 6 ∧ 6 ≤ [1, 2, 3, 4, 5].length + 1)
    ∧ (let p := gated (.keyed 9) State.reset.part
       (on p).Quiet ∧ p.atRest = true ∧ p.mode = .unformatted ∧ p.arb.burst = none ∧ p.req2Waiting = false
        ∧ p.chan.current = none) := by decide +kernel

abbrev writable (p : Part) : Prop := (on p).Ready ∧ p.asm = none

def retired63 : Part := guarded.modSeg 63 (fun e => { e with state := .retiring })
def appends : Part := opened .delivery 2 1023 (opened .sample 1 1 guarded)
def appendsNoPool : Part := { appends with store := { appends.store with pool := [] } }

/-- FOREIGN_STORE, LABEL, ROUTE_LOCKED, OUT_OF_STORE and RETIRING. -/
theorem witness_RefusedWritesAreLoggedWithTheirCause :
    writable { guarded with mode := .foreign }
    ∧ (writable guarded ∧ (15#22).toNat < 16)
    ∧ (writable carrying ∧ carrying.route.state ≠ .idle ∧ 16 ≤ (2047#22).toNat ∧ (2047#22).toNat < 2048)
    ∧ (writable guarded ∧ guarded.store.nSeg ≤ (1048576#22).toNat / 16384)
    ∧ (writable retired63 ∧ retired63.store.segs[62]? = some { SegEntry.blankEntry with state := .retiring }
        ∧ (1048575#22).toNat / 16384 = 63) := by decide +kernel

/-- COMMITTED, STORE_FULL, NOT_APPEND_SLOT, then BAD_HEADER and WRONG_STREAM, then NO_ROOM_FOR_ANSWER. -/
theorem witness_RefusedWritesAreLoggedWithTheirCause_append :
    (writable appends ∧ (appends.seg 1).map (fun e => (e.state, e.count)) = some (.opened, some 0) ∧ (16399#22).toNat % 16384 / 16 = 0)
    ∧ (writable (stalled .sample guarded) ∧ (stalled .sample guarded).store.streams.sample.stalled = true
        ∧ Kind.ofHeader 0xC501 = some .sample)
    ∧ (writable guarded ∧ guarded.store.segs[4]? = some SegEntry.blankEntry)
    ∧ (appends.store.streams.sample.openSeg = some 1 ∧ appends.store.streams.sample.append = some 1
        ∧ (16400#22).toNat / 16384 = 1 ∧ (16400#22).toNat % 16384 / 16 = 1 ∧ (16400#22).toNat % 16 = 0)
    ∧ (writable appendsNoPool ∧ appendsNoPool.store.streams.delivery.append = some 1023 ∧ (49136#22).toNat % 16384 / 16 = 1023) := by
  decide +kernel

theorem witness_ForwardedWritesReachMemory :
    let base (p : Part) : Prop := (on p).Ready ∧ p.asm = none ∧ p.arb.burst = none ∧ p.arb.fairness < 8
    (base State.reset.part ∧ State.reset.part.mode = .unformatted)
    ∧ (base guarded ∧ 2048 ≤ (2048#22).toNat ∧ (16383#22).toNat < 16384)
    ∧ (base guarded ∧ guarded.route.state = .idle ∧ 16 ≤ (16#22).toNat ∧ (2047#22).toNat < 2048)
    ∧ Memory.wf [(3, 9), (5, 7)] := by decide +kernel

theorem witness_ARecordIsTakenWordByWord_word0 :
    (let p := opened .sample 1 1023 guarded
     (on p).Ready ∧ p.asm = none ∧ p.retire.state ≠ .formatRunning ∧ p.arb.burst = none ∧ p.arb.fairness < 8
      ∧ p.store.direct = [] ∧ (32752#22).toNat = 1 * 16384 + 16 * 1023
      ∧ (p.seg 1).map (fun e => (e.state, e.count.getD 0)) = some (.opened, 1022))
    ∧ (let p := opened .delivery 2 1023 guarded
       (on p).Ready ∧ p.mayTake .delivery = true ∧ p.store.streams.delivery.append = some 1023
        ∧ (49136#22).toNat = 2 * 16384 + 16 * 1023) := by decide +kernel

def inAssembly (st : Stream) (k : Kind) (n slot next : Nat) : Part :=
  { opened st n slot guarded with asm := some (assembling st k n slot next) }

theorem witness_ARecordIsTakenWordByWord :
    let fits (next a : Nat) : Prop :=
      let p := inAssembly .sample .sample 1 3 next
      (on p).Ready ∧ p.arb.burst = none ∧ p.arb.fairness < 8 ∧ 1 < p.store.nSeg ∧ p.store.direct = []
        ∧ a = 1 * 16384 + 16 * 3 + next
    fits 1 16433 ∧ fits 11 16443 ∧ fits 12 16444 ∧ fits 13 16445 ∧ fits 14 16446 := by decide +kernel

/-- A SAMPLE in slot 1,023 with the route LOADED, and requests in slots 1,022 and 1,023. -/
def lastWord (st : Stream) (k : Kind) (slot : Nat) (p : Part) : Part :=
  { opened st 1 slot p with asm := some (assembling st k 1 slot 15) }

theorem witness_Word15CommitsTheRecord :
    (let p := lastWord .sample .sample 1023 carrying
     (on p).Ready ∧ p.route.state = .loaded ∧ p.arb.burst = none ∧ p.store.direct = []
      ∧ p.store.streams.sample.openSeg = some 1 ∧ p.route.closeWait = none ∧ p.chan.running = none
      ∧ (assembling .sample .sample 1 1023 15).chain = some 5 ∧ (32767#22).toNat = 1 * 16384 + 16 * 1023 + 15)
    ∧ (let p := lastWord .delivery .load 1022 carrying
       (on p).Ready ∧ p.arb.burst = none ∧ p.store.direct = [] ∧ p.store.streams.delivery.openSeg = some 1
        ∧ p.route.closeWait = none ∧ p.chan.running = none ∧ (assembling .delivery .load 1 1022 15).receipt = some 990) := by
  decide +kernel

theorem witness_ABreakingWriteVoidsTheRecord :
    let p := inAssembly .sample .sample 1 1023 7
    (on p).Ready ∧ p.store.direct = [] ∧ p.store.streams.sample.openSeg = some 1 ∧ p.route.closeWait = none
      ∧ p.chan.running = none ∧ (15#22).toNat < 16 := by decide +kernel

theorem witness_TheLastSlotClosesTheSegment :
    (let p := opened .sample 1 1023 guarded
     p.store.streams.sample.openSeg = some (0 + 1) ∧ p.asm = none ∧ p.mayTake .sample = true
      ∧ ({ p with store := { p.store with pool := [2, 3] } } : Part).mayTake .sample = false
      ∧ (formatting .label p).retire.state = .formatRunning ∧ p.store.streams.event.openSeg ≠ some (0 + 1))
    ∧ (let p := lastWord .delivery .unload 1023 guarded
       (on p).Ready ∧ p.arb.burst = none ∧ p.store.direct = [] ∧ p.store.streams.delivery.openSeg = some 1
        ∧ p.route.closeWait = none ∧ p.chan.running = none ∧ (32767#22).toNat = 1 * 16384 + 16383
        ∧ p.store.pool = (0 + 1) :: p.store.pool.tail) := by decide +kernel

def listed (k : DirectKind) (p : Part) : Part := { p with store := { p.store with direct := [direct0 k] } }

/-- A burst holds back writes and reads, a header of segment 3 those to it, a VOID a break and a word 0. -/
theorem witness_StretchedAccessesWaitAndAreServed :
    (let p := bursting .sheetRead guarded
     (on p).Quiet ∧ p.atRest = true ∧ p.chan.gate = .idle ∧ p.asm = none ∧ 2048 ≤ (2048#22).toNat ∧ (16383#22).toNat < 16384)
    ∧ (let p := bursting .sheetRead (inAssembly .sample .sample 1 1023 12)
       (on p).Quiet ∧ p.atRest = true ∧ (32764#22).toNat = 1 * 16384 + 16 * 1023 + 12)
    ∧ (let p := listed .header guarded
       (on p).Quiet ∧ p.atRest = true ∧ (49152#22).toNat / 16384 = 3 ∧ p.shut 3 = false
        ∧ p.store.direct.any (fun e => e.kind == .header && e.seg == 3) = true)
    ∧ (let p := listed .void (inAssembly .sample .sample 1 3 7)
       (on p).Quiet ∧ p.atRest = true ∧ p.store.direct.any (fun e => e.kind == .void) = true
        ∧ (32767#22).toNat ≠ 1 * 16384 + 16 * 3 + 7)
    ∧ (let p := listed .void (opened .sample 1 1023 guarded)
       (on p).Quiet ∧ p.atRest = true ∧ (p.placeWrite 32752 0xC501).toOption.isSome = true)
    ∧ (let p := bursting .sheetRead State.reset.part
       (on p).Quiet ∧ p.atRest = true ∧ p.mode = .unformatted) := by decide +kernel

theorem witness_StretchedAccessesWaitAndAreServed_served :
    (let s : State := { on (bursting .sheetRead guarded) with port := { waiting := [.place 9000 5 990 none], readData := none } }
     s.part.running = true ∧ s.tryWork (.place 9000 5 990 none) = none)
    ∧ (let p := listed .void State.reset.part
       p.running = true ∧ p.mode = .unformatted ∧ p.arb.burst = none ∧ p.store.direct = [direct0 .void]
        ∧ ({ p with arb := { p.arb with fairness := 0 }, store := { p.store with direct := [] } } : Part).req2Waiting = false)
    ∧ (let p := bursting (.record 0x8000 [1]) { inAssembly .sample .sample 1 1023 12 with queue := [entry .outage (some taken0)] }
       p.running = true ∧ p.scan.run ≠ .frozen ∧ p.arb.fairness < 8 ∧ p.store.direct = []
        ∧ (32764#22).toNat = 1 * 16384 + 16 * 1023 + 12) := by decide +kernel

/-- In GUARDED and SERVICE: what a header holds (a write refused by its place, a word 0, a read), what a VOID holds (a word 0, a break). -/
theorem witness_StretchedAccessesWaitAndAreServed_held :
    let writes (k : DirectKind) (p : Part) : Prop :=
      (listed k p).running = true ∧ (p.mode = .guarded ∨ p.mode = .service) ∧ (listed k p).arb.burst = none
        ∧ (listed k p).store.direct = [direct0 k]
    (writes .header guarded ∧ guarded.asm = none ∧ (49152#22).toNat / 16384 = 3 ∧ guarded.shut 3 = false
      ∧ (guarded.placeWrite 49152 5).toOption = none)
    ∧ (let p := opened .sample 3 5 service
       writes .header p ∧ writes .void p ∧ p.asm = none ∧ (p.placeWrite 49232 0xC501).toOption.isSome = true)
    ∧ (let p := inAssembly .sample .sample 1 3 7
       writes .void p ∧ (15#22).toNat < 16 ∧ p.store.streams.sample.openSeg = some 1 ∧ p.route.closeWait = none
        ∧ p.chan.running = none) := by decide +kernel

/-- A FORMAT is about to write its label: K1 stands in the gate, or waits for the burst to end. -/
theorem witness_StretchedAccessesWaitAndAreServed_released :
    let p := bursting .longOperation (formatting .write State.reset.part)
    p.running = true ∧ p.arb.burst = some .longOperation ∧ p.mode = .unformatted ∧ (gated (.keyed 9) p).chan.gate = .keyed 9
      ∧ p.retire.state = .formatRunning ∧ p.retire.fmt = some { code := 1, stage := .write } ∧ p.arb.fairness < 8 := by decide +kernel

/-- A K1 released in UNFORMATTED is forwarded in GUARDED; a plain write of the same word is refused (R31, R51). -/
theorem test_released_key :
    ((on guarded).classify 5 keyWord1 990 (some .unformatted)).map (fun s => s.mem.read 5) = some keyWord1
      ∧ ((on guarded).classify 5 keyWord1 990 none).map (fun s => s.part.refusals.count) = some 1 := by decide +kernel

theorem witness_ReadsReturnMemoryBlankOrStatus :
    ((on guarded).Ready ∧ guarded.store.nSeg ≤ (1048576#22).toNat / 16384)
    ∧ (let p := guarded.modSeg 63 (fun e => { e with state := .retiring })
       (on p).Ready ∧ p.store.segs[62]? = some { SegEntry.blankEntry with state := .retiring })
    ∧ ((on guarded).Ready ∧ guarded.arb.burst = none ∧ guarded.arb.fairness < 8 ∧ guarded.store.segs[0]? = some SegEntry.blankEntry)
    ∧ (on (presenting (current0 .running 0 []) guarded)).Ready
    ∧ (on (presenting (current0 .done 0 [8]) guarded)).Ready
    ∧ ((on (presenting (current0 .refused 1 [8]) guarded)).Ready ∧ (current0 .refused 1 [8]).results[0]? = some 8) := by
  decide +kernel

/-! ## Witnesses: the commands -/

theorem witness_TheFirstThreeChecksOfACommand :
    ((on (running .routeLoad (bursting .sheetRead guarded))).Ready
      ∧ (on (running .routeLoad (bursting .sheetRead guarded))).given (.audit 5) = some (5, .audit, [], false))
    ∧ ((on State.reset.part).Ready ∧ State.reset.part.mode.admits .audit = false)
    ∧ ((on guarded).Ready ∧ guarded.mode.admits .routeLoad = true ∧ Command.wellProtected .routeLoad [1, 2, 3] = false) := by
  decide +kernel

theorem witness_reporting_commands : (on guarded).Ready ∧ State.reset.Ready ∧ (on (running .routeLoad (bursting .sheetRead guarded))).Ready := by
  decide +kernel

theorem witness_ClaimReadReturnsTheFindings :
    let p (st : ClaimState) : Part := { guarded with claims := guarded.claims.modify 7 (fun c => { c with state := st }) }
    let c (st : ClaimState) : Claim := { Claim.free with state := st }
    ((on guarded).Free ∧ 8 ≤ (8#16).toNat) ∧ ((on (p .closed)).Free ∧ (p .closed).claims[7]? = some (c .closed))
    ∧ ((on (p .queued)).Free ∧ (p .queued).claims[7]? = some (c .queued))
    ∧ ((on (p .verifying)).Free ∧ (p .verifying).claims[7]? = some (c .verifying))
    ∧ ((on (p .ready)).Free ∧ (p .ready).claims[7]? = some (c .ready)) := by decide +kernel

theorem witness_WhereFindsOrOpensTheSegment :
    (on (bursting .longOperation (formatting .label service))).FreeInStore
    ∧ ((on guarded).FreeInStore ∧ 3 < (4#16).toNat)
    ∧ ((on (stalled .claim guarded)).FreeInStore ∧ (stalled .claim guarded).store.streams.claim.stalled = true)
    ∧ ((on (opened .claim 3 5 guarded)).FreeInStore ∧ (opened .claim 3 5 guarded).store.streams.claim.openSeg = some 3)
    ∧ (let p : Part := { guarded with asm := some (assembling .sample .sample 9 1 3) }
       (on p).FreeInStore ∧ p.store.streams.sample.openSeg = none)
    ∧ ((on guarded).FreeInStore ∧ guarded.mayTake .claim = true)
    ∧ (let p : Part := { guarded with store := { guarded.store with pool := [4, 5] } }
       (on p).FreeInStore ∧ p.mayTake .claim = false ∧ p.mayTake .event = true) := by decide +kernel

theorem witness_ClockSetSetsTheClockOrResumesTheRoute :
    ((on loaded).Free ∧ loaded.route.state = .loaded)
    ∧ ((on guarded).Free ∧ guarded.route.state = .idle ∧ 899 < guarded.clock.floor ∧ guarded.clock.floor ≤ 900)
    ∧ ((on halted).FreeInStore ∧ halted.route.state = .halted ∧ halted.clock.valid = false ∧ halted.clock.mark = some 940
        ∧ (queued 11 halted).queue.length ≤ 11 ∧ (on (queued 11 halted)).FreeInStore) := by decide +kernel

theorem witness_RouteLoadReadsTheSheet :
    ((on loaded).Free ∧ loaded.route.state ≠ .idle)
    ∧ (let p : Part := { guarded with clock := { guarded.clock with valid := false } }
       (on p).Free ∧ p.route.state = .idle)
    ∧ (on { guarded with route := { guarded.route with closePending := true } }).Free
    ∧ ((on guarded).Free ∧ guarded.clock.valid = true ∧ guarded.route.closePending = false) := by decide +kernel

def reading (n : Nat) (d : Bool) (p : Part) : Part :=
  bursting .sheetRead (running .routeLoad
    { p with route := { p.route with load := some { routeNumber := 7, words := List.replicate n 0, check := 0, disturbed := d } } })

theorem witness_RouteLoadReadsTheSheet_bursts :
    (on (reading 0 true guarded)).Quiet ∧ (on (reading 2000 false guarded)).Quiet ∧ (on (reading 2016 true guarded)).Quiet
      ∧ (reading 2016 true guarded).arb.burst = some .sheetRead := by decide +kernel

/-- The 2,016 words before the last burst of a sheet that passes its checks. -/
def goodWords : List Word :=
  [7, 30, 24, 0x55, 60, 1] ++ List.replicate 10 0 ++ [1, 80, 100, 200, 10, 5, 30, 0, 2] ++ List.replicate 247 0 ++ [1, 0, 2, 3, 1]
    ++ List.replicate 1739 0

/-- The last burst of a read of `ws` is in progress, `n` records queued. -/
def lastRead (ws : List Word) (n : Nat) : Part :=
  bursting .sheetRead (running .routeLoad (queued n { guarded with route := { guarded.route with
    load := some { routeNumber := 7, words := ws, check := 0, disturbed := false } } }))

/-- The same read in a part that holds route fields of `hours` scrub hours, with the next step due at 5,000. -/
def lastReadHolding (hours : Word) : Part :=
  { lastRead goodWords 0 with
    route := { (lastRead goodWords 0).route with held := some { sheet0.held with scrubHours := hours } }
    scrub := { guarded.scrub with due := some 5000 } }

/-- A next due time of 5,000 stays with the same scrub period hours, and moves with others (R188). -/
theorem test_holdFields :
    ((lastReadHolding 24).holdFields sheet0.held).scrub.due = some 5000
      ∧ ((lastReadHolding 25).holdFields sheet0.held).scrub.due = some (1000 + 86400 / 63) := by decide +kernel

theorem witness_ACheckedSheetIsInstalled :
    (on (lastRead goodWords 10)).Quiet ∧ (lastRead goodWords 10).queue.length ≤ 10 ∧ (on (lastRead goodWords 11)).Quiet
      ∧ (lastRead goodWords 11).queue.length = 11 ∧ goodWords.length = 2016 ∧ (lastRead goodWords 11).scan.run = .stopped
      ∧ (Sheet.ofWords (goodWords ++ List.replicate 16 0xFFFF)).failure 7 = none
      ∧ (on (lastReadHolding 24)).Quiet ∧ (lastReadHolding 24).route.held.map Held.scrubHours = some 24
      ∧ (on (lastReadHolding 25)).Quiet := by decide +kernel

/-- The gap limit of class 0 is 0: check 4 fails at its last field. -/
theorem witness_TheSheetCheckNamesTheFirstFailure :
    (on (lastRead (goodWords.set 24 0) 0)).Quiet ∧ (goodWords.set 24 0).length = 2016
      ∧ (Sheet.ofWords (goodWords.set 24 0 ++ List.replicate 16 0xFFFF)).failure 7 = some { part := 4, entry := 0, field := some 8 }
      ∧ (on (lastRead goodWords 12)).Quiet ∧ 12 ≤ (lastRead goodWords 12).queue.length := by decide +kernel

theorem witness_RouteEndStopsTheRoute :
    (on carrying).FreeInStore ∧ ((on loaded).FreeInStore ∧ loaded.route.state = .loaded) ∧ (on guarded).FreeInStore
      ∧ (on (queued 11 loaded)).FreeInStore ∧ (on (queued 12 loaded)).FreeInStore := by decide +kernel

theorem witness_RescanAndAuditAskForVisits :
    (on guarded).FreeInStore ∧ (on loaded).FreeInStore ∧ (23#16).toNat < 24 ∧ 24 ≤ (24#16).toNat
      ∧ (on { loaded with scan := { loaded.scan with rescan := some 3, audit := .waiting } }).FreeInStore := by decide +kernel

theorem witness_ClaimsAreOpenedAndClosed :
    let full : Part := { guarded with claims := guarded.claims.map (fun c => { c with state := .ready, id := some 1 }) }
    let seven : Part := { full with claims := full.claims.set 7 Claim.free }
    (on guarded).FreeInStore
    ∧ ((on full).FreeInStore ∧ full.claims.length = 8 ∧ full.claims.all (fun c => c.state != .closed) = true)
    ∧ ((on seven).FreeInStore ∧ seven.claims[7]? = some Claim.free ∧ (seven.claims.take 7).all (fun c => c.state != .closed) = true) := by
  decide +kernel

theorem witness_ClaimsAreOpenedAndClosed_close :
    (let p : Part := { guarded with claims := guarded.claims.modify 7 (fun c => { c with state := .ready, held := [4, 9] }) }
     (on p).FreeInStore ∧ p.claims[7]? = some { Claim.free with state := .ready, held := [4, 9] } ∧ p.verify = none)
    ∧ ((on (bursting .longOperation (verifying false .check guarded))).FreeInStore
      ∧ (verifying false .check guarded).verifyRunning = true)
    ∧ (let p := bursting .sheetRead (verifying false .check guarded)
       (on p).FreeInStore ∧ p.arb.burst ≠ some .longOperation)
    ∧ (on (verifying true .check guarded)).FreeInStore := by decide +kernel

def blanking0 : Part := retiring .blanking (batch0 none .rewrite 0 false) guarded
def heldBatch0 : Part := retiring .suspended (batch0 (some 3) (.word 31) 0 false) guarded

theorem witness_SuspendAndResumeHoldTheOperation :
    ((on (bursting .longOperation (formatting .label service))).FreeInStore ∧ (on guarded).FreeInStore
      ∧ (on (bursting .longOperation (verifying false .check guarded))).FreeInStore
      ∧ (on blanking0).FreeInStore ∧ blanking0.arb.burst ≠ some .longOperation)
    ∧ (on (bursting .scrub (verifying false .check guarded))).FreeInStore
    ∧ (on (bursting .scrub (verifying false .check heldBatch0))).FreeInStore := by decide +kernel

theorem witness_SuspendAndResumeHoldTheOperation_resume :
    (on (verifying true .check blanking0)).FreeInStore
    ∧ ((on heldBatch0).FreeInStore ∧ heldBatch0.verifyRunning = false)
    ∧ (on (verifying true .locate guarded)).FreeInStore
    ∧ ((on (verifying true .check guarded)).FreeInStore ∧ (verify0 true .check).todo = [])
    ∧ ((on (verifying true .check guarded)).FreeInStore
      ∧ { verify0 true .check with todo := [8] }.todo ≠ []) := by decide +kernel

theorem witness_TerminateEndsTheRunningOperation :
    (on guarded).FreeInStore ∧ (on (bursting .longOperation (verifying false .check guarded))).FreeInStore
    ∧ (on (bursting .scrub (formatting .label service))).FreeInStore
    ∧ (on (bursting .scrub (retiring .blanking (batch0 (some 3) (.word 31) 0 false) guarded))).FreeInStore
    ∧ (on (retiring .blanking (batch0 none .rewrite 0 false) guarded)).FreeInStore
    ∧ (on (bursting .scrub (formatting .write service))).FreeInStore
    ∧ (on (bursting .scrub (verifying false .check guarded))).FreeInStore := by decide +kernel

/-- A CLOSED EVENT segment 8 with its header and one record in memory. -/
def header0 : List Word :=
  [0xC510, 1, 1, 1, 1, 0, 0, 0, 900, 0, blank, blank, 900, 0, 59876, 43929]
def record0 : List Word :=
  [0xC52B, 1, 2, blank, blank, blank, blank, blank, blank, blank, blank, blank, 950, 0, 37594, 54523]
def memory0 : Memory := ((Memory.writeWords [] (slotAddr 8 0) header0).writeWords (slotAddr 8 1) record0)

def closed0 : SegEntry :=
  { state := .closed, stream := some .event, segSeq := some 1, openTime := some 900, closeTime := some 951, firstRec := some 1,
    count := some 1, entryChain := some 0, exitChain := some 3573256922, holds := 0, owed := .none }

def withClosed (p : Part) : Part := p.modSeg 8 (fun _ => closed0)

def checking : Part :=
  bursting .longOperation
    { withClosed (verifying false .check guarded) with
      verify := some { verify0 false .check with check := { seg := 8, slot := 1, limit := some 2, exit := none, chain := 2878990820 } } }

/-- A VERIFY of claim 2 whose walk reads slot `k` of segment 6, number 4 of the DELIVERY stream, one accepted PROOF read. -/
def walk0 (k : Option Nat) : Verify :=
  { verify0 false .locate with
    count := 1
    locate := { number := 4, seg := 6, slot := k, proof := some (700, 4), newest := none, delivered := 0 } }

def deliverySeg (n : Nat) (number : BitVec 16) (p : Part) : Part :=
  p.modSeg n (fun e => { e with state := .closed, stream := some .delivery, segSeq := some number, count := some 1023,
                                firstRec := some 1, openTime := some 5, closeTime := some 800 })

def walking (v : Verify) (p : Part) : Part :=
  { deliverySeg 6 4 p with
    claims := p.claims.set 2 { Claim.free with state := .verifying, id := some 77 }
    verify := some v }

def acked0 : Memory := Memory.writeWords [] (slotAddr 6 1023) [0xC530, 77, 0, 0]

theorem witness_WaitingCommandsActAtTheEndOfTheBurst_locate :
    let p := bursting .longOperation (running .suspend (walking (walk0 (some 1023)) guarded))
    (on p).Quiet ∧ p.chan.running = some { work := .suspend, presented := true } ∧ (p.claim 2).id = some 77
      ∧ isAcceptedLoad 77 (acked0.slot 6 1023) = true := by decide +kernel

theorem witness_WaitingCommandsActAtTheEndOfTheBurst :
    (let p := bursting .longOperation (running .suspend (retiring .blanking (batch0 (some 3) (.word 16) 0 false) guarded))
     (on p).Quiet ∧ p.chan.running = some { work := .suspend, presented := true } ∧ p.chan.current ≠ none)
    ∧ (let p := bursting .longOperation (running .terminate (retiring .blanking (batch0 (some 63) (.word 16383) 0 false) guarded))
       (on p).Quiet ∧ p.chan.running = some { work := .terminate, presented := true })
    ∧ (let p := bursting .longOperation (running .terminate (formatting .label service))
       (on p).Quiet ∧ p.route.state ≠ .loaded ∧ p.retire.fmt = some { code := 1, stage := .label })
    ∧ (∀ w ∈ [RunningWork.suspend, .terminate, .claimClose 2],
        let p := running w checking
        (on p).Quiet ∧ p.chan.running = some { work := w, presented := true } ∧ p.retire.state ≠ .blanking
          ∧ p.retire.state ≠ .formatRunning ∧ p.store.segs[7]? = some closed0 ∧ p.claims[2]? ≠ none) := by decide +kernel

theorem witness_ServiceIsEnteredAndLeft :
    let held : Part := { guarded with route := { guarded.route with held := some sheet0.held } }
    (on service).FreeInStore ∧ (on guarded).FreeInStore ∧ (on loaded).FreeInStore ∧ (on held).FreeInStore
      ∧ held.route.held = some { retentionDays := 30, scrubHours := 24, serviceWord := 0x55 }
      ∧ (on (bursting .fieldRead (running (.serviceEnter 0x55) guarded))).Quiet
      ∧ Memory.read [(17, 3650), (18, 168), (19, 0x55)] 19 = 0x55 ∧ Memory.read [] 17 = 0xFFFF := by decide +kernel

theorem witness_ServiceIsEnteredAndLeft_end :
    (on guarded).FreeInStore ∧ (on service).FreeInStore
      ∧ (on (retiring .collecting (batch0 none .rewrite 0 true) service)).FreeInStore
      ∧ (on guarded).Quiet ∧ (on service).Quiet := by decide +kernel

theorem witness_RetireAndFormatAreAdmitted :
    let seg (st : SegState) (holds : Nat) : Part :=
      { service.modSeg 3 (fun e => { e with state := st, holds := holds, closeTime := some 100 }) with
        route := { service.route with held := some sheet0.held }
        clock := { service.clock with now := 100 + 30 * 86400 } }
    let full : Batch := { batch0 none .rewrite 0 true with segs := List.replicate 32 5 }
    (on service).Free ∧ service.mode = .service ∧ (on (seg .closed 0)).Free ∧ (seg .closed 0).clock.valid = true
      ∧ (on (seg .faulted 1)).Free ∧ (on (seg .scrap 0)).Free ∧ (on (seg .opened 0)).Free
      ∧ (on (retiring .waiting (batch0 none .rewrite 0 false) (seg .scrap 0))).Free
      ∧ (on (retiring .collecting (batch0 none .rewrite 0 true) (seg .scrap 0))).Free ∧ 3 ∈ (batch0 none .rewrite 0 true).segs
      ∧ (on (retiring .collecting full (seg .scrap 0))).Free ∧ 3 ∉ full.segs ∧ full.segs.length = 32 := by decide +kernel

theorem witness_RetireAndFormatAreAdmitted_format :
    (on service).Free ∧ State.reset.Free ∧ (∀ c ∈ service.claims, c.state = .closed) ∧ service.scan.run ≠ .frozen
      ∧ (on { loaded with mode := .service }).Free
      ∧ (on { service with claims := service.claims.modify 0 (fun c => { c with state := .ready }) }).Free
      ∧ (on (retiring .collecting (batch0 none .rewrite 0 true) service)).Free := by decide +kernel

/-! ## Witnesses: exposure, consignments, the scanner -/

theorem witness_TimersExpire :
    (let x := { ctx0 with gapExpiry := some 1000 }
     let p : Part := { carrying with ctxs := carrying.ctxs.set 0 x }
     p.running = true ∧ p.ctxs[0]? = some x ∧ x.thermal ≠ .idle ∧ x.gap = false ∧ 1000 ≤ p.clock.now
      ∧ (queued 16 p).queue.length = 16 ∧ carrying.ctxs[7]? = some Ctx.cold
      ∧ ({ p.clock with now := 999 } : Clock).now < 1000)
    ∧ (let x := { ctx0 with thermal := .excursion, episodeStart := some 700 }
       let p : Part := { carrying with ctxs := carrying.ctxs.set 0 x, cons := carrying.cons.set 3 (some { cargo with loadTime := 650 }) }
       p.cons[3]? = some (some { cargo with loadTime := 650 }) ∧ p.ctxs[0]? = some x
        ∧ max 700 650 + (p.classOfComp 0).maxExcursion.toNat * 60 = p.clock.now
        ∧ ({ p.clock with now := 999 } : Clock).now < 1000) := by decide +kernel

theorem witness_IntervalsThermalStateAndFigures : ctx0.intervalStart = some 900 ∧ ctx0.doorExcess ≤ ctx0.excess := by decide

/-- A reading above the hold limit charges the rate of the reading before it (R100, its rates and its cap). -/
theorem test_interval :
    (Ctx.account cls0 1030 { ctx0 with lastReading := some 90, doorSecs := 7 }).excess = 1200
      ∧ (Ctx.account cls0 1030 { ctx0 with lastReading := some 90, doorSecs := 7 }).doorExcess = 70
      ∧ (Ctx.account cls0 1030 { ctx0 with lastReading := some 90, doorSecs := 7 }).gapSecs = 10 := by decide

theorem witness_IntervalsThermalStateAndFigures_states :
    loaded.ctxs[0]? = some ctx0 ∧ ctx0.thermal = .inSpec ∧ (loaded.classOfComp 0).hold.toInt = 80
      ∧ ({ ctx0 with thermal := .excursion, episodeStart := some 950 } : Ctx).thermal = .excursion := by decide

theorem witness_IntervalsThermalStateAndFigures_figures : cargo.closing = none ∧ carrying.ctxs[cargo.comp]? = some ctx0 := by decide

/-- The words of a SAMPLE, a LOAD, a DELIVERY and an UNLOAD of the fixtures' compartment and consignments. -/
def sample0 (c reading : Word) : List Word := [0xC501, 990, 0, c, 0, 0x8000, reading, 0x8000, 0x8000, blank, blank, blank]
def load0 (id c quantity : Word) : List Word := [0xC502, 0, 0, id, 0, c, quantity, 9, blank, blank, blank, blank]
def delivery0 (id stop quantity reading kind : Word) : List Word := [0xC503, 0, 0, id, 0, stop, quantity, reading, 0, kind, blank, blank]

/-- Valid at both ends of the range, invalid beyond; a compartment that is IDLE, one above 7. -/
theorem witness_ASampleIsTaken :
    carrying.route.state = .loaded ∧ carrying.ctxs[0]? = some ctx0 ∧ ctx0.thermal ≠ .idle ∧ carrying.ctxs[7]? = some Ctx.cold
      ∧ (carrying.sheet.comp 0).probe.toNat = 2
      ∧ [((sample0 0 600).getD 6 blank).toInt, ((sample0 0 0xFDA8).getD 6 blank).toInt, ((sample0 0 601).getD 6 blank).toInt] = [600, -600, 601]
      ∧ 8 ≤ ((sample0 8 90).getD 3 blank).toNat ∧ guarded.route.state ≠ .loaded
      ∧ carrying.cons[3]? = some (some cargo) ∧ cargo.state = .loaded ∧ cargo.comp = 0
      ∧ (carrying.classOfComp 0).melt.toInt = 200 := by decide +kernel

/-- A LOAD for each refusal, and one that takes entry 0, and entry 31. -/
theorem witness_LoadsAreJudged :
    carrying.cons.length = 32 ∧ guarded.route.state ≠ .loaded ∧ carrying.route.state = .loaded
      ∧ carrying.cons.any (fun o => match o with | some k => k.id == 77 | none => false) = true
      ∧ carrying.cons.any (fun o => match o with | some k => k.id == 78 | none => false) = false
      ∧ (carrying.sheet.comp 7).enabled ≠ 1 ∧ (carrying.sheet.comp 0).enabled = 1 ∧ carrying.cons[0]? = some none
      ∧ (let full : Part := { carrying with cons := List.replicate 31 (some cargo) ++ [none] }
         full.cons[31]? = some none ∧ (full.cons.take 31).all Option.isSome = true ∧ full.cons.length = 32)
      ∧ ({ carrying with cons := List.replicate 32 (some cargo) } : Part).cons.all Option.isSome = true := by decide +kernel

/-- A DELIVERY in full, in part and refused at the stop; each error; the same with an UNLOAD. -/
theorem witness_DeliveriesAndUnloadsAreJudged :
    carrying.cons.length = 32 ∧ carrying.cons[3]? = some (some cargo) ∧ cargo.state = .loaded ∧ cargo.remaining = 10
      ∧ (carrying.cons.take 3).any (fun o => match o with | some k => k.id == 77 | none => false) = false
      ∧ carrying.cons.any (fun o => match o with | some k => k.id == 79 | none => false) = false
      ∧ carrying.ctxs[cargo.comp]? = some ctx0 ∧ halted.route.state = .halted ∧ carrying.route.state ≠ .halted
      ∧ [(delivery0 77 5 10 0x8000 0).getD 6 blank, (delivery0 77 5 1 0x8000 1).getD 6 blank, (delivery0 77 5 10 0x8000 2).getD 6 blank]
          = [10, 1, 10]
      ∧ ((delivery0 77 0 10 0x8000 3).getD 9 blank).toNat = 3 ∧ ((delivery0 77 5 11 0x8000 1).getD 6 blank).toNat = 11
      ∧ ({ cargo with state := .done } : Consignment).state ≠ .loaded := by decide +kernel

theorem witness_TheVerdictIsTheHighestThatHolds :
    ({ cargo with flags := { Flags.clear with breached := true } } : Consignment).verdict
        { excursion := 0, excess := 10, door := 6, gap := 0 } 80 = .breachHandling
      ∧ ({ cargo with flags := { Flags.clear with breached := true } } : Consignment).verdict
        { excursion := 0, excess := 10, door := 5, gap := 0 } 80 = .breachRefrigeration
      ∧ cargo.verdict Figures.zero 80 = .clean := by decide

theorem witness_AScanVisitJudgesItsSlot :
    let at_ (k agree : Nat) : Part :=
      { carrying with scan := { carrying.scan with position := k, slots := carrying.scan.slots.modify k (fun x => { x with agree := agree }) } }
    ((queued 11 (at_ 0 0)).running = true ∧ (queued 11 (at_ 0 0)).queue.length ≤ 11 ∧ (at_ 0 0).scan.run = .running)
    ∧ ((at_ 15 1).scan.slots[15]? = some { slot0 with agree := 1 } ∧ (at_ 15 2).scan.slots[15]? = some { slot0 with agree := 2 })
    ∧ ((at_ 16 2).scan.slots[16]? = some { slot0 with agree := 2 } ∧ (at_ 23 2).scan.slots[23]? = some { slot0 with agree := 2 })
    ∧ ((at_ 0 2).scan.slots[0]? = some { slot0 with agree := 2 } ∧ (at_ 3 2).scan.slots[3]? = some { slot0 with agree := 2 })
    ∧ ({ carrying.scan with rescan := some 23 } : Scanner).rescan = some 23
    ∧ ({ carrying.scan with audit := .waiting } : Scanner).position = 0
    ∧ ({ (at_ 23 2).scan with audit := .inProgress } : Scanner).position = 23
    ∧ ({ slot0 with agree := 1, watch := some 970 } : Slot).watch.isSome = true
    ∧ (queued 10 (at_ 15 2)).queue.length ≤ 10 ∧ (queued 11 (at_ 15 2)).queue.length = 11 := by decide +kernel

theorem witness_LineWatchAndDwell :
    (({ loaded with scan := { loaded.scan with run := .frozen } } : Part).running = true)
    ∧ (let x := { slot0 with accepted := true, changedAt := some 969 }
       let p : Part := queued 11 { carrying with scan := { carrying.scan with dwellTest := some 0, slots := carrying.scan.slots.set 1 x } }
       p.scan.slots[1]? = some x ∧ (List.range 1).all (fun j => decide (j < 0) || (p.dwellDue j).isNone) = true
        ∧ (p.classOfComp 0).dwell.toNat = 30 ∧ 30 < p.clock.now - 969 ∧ p.scan.run = .running) := by decide +kernel

/-! ## Witnesses: long operations and the scrub -/

theorem witness_TheBatchIsBlankedInOrder :
    let bl (cur : Option Nat) (pos : BlankPos) (n : Nat) := retiring .blanking (batch0 cur pos n false) guarded
    (on (retiring .collecting (batch0 none .rewrite 0 true) guarded)).Quiet
    ∧ ((on (bl none .rewrite 0)).Quiet ∧ (bl none .rewrite 0).req2Waiting = false ∧ (batch0 none .rewrite 0 false).segs[0]? = some 3)
    ∧ (on (bursting .scrub (bl none .rewrite 1))).Quiet
    ∧ (let p : Part := { bl none .rewrite 0 with asm := some (assembling .sample .sample 3 4 7) }
       (on p).Quiet ∧ (on (bursting .scrub p)).Quiet ∧ p.store.streams.sample.openSeg ≠ some 3 ∧ p.route.closeWait = none
        ∧ p.store.direct = [] ∧ p.queue = [] ∧ p.arb.burst = none)
    ∧ (on (bursting .longOperation (bl (some 3) .rewrite 0))).Quiet
    ∧ (on (bursting .longOperation (bl (some 3) (.word 16) 0))).Quiet
    ∧ ((on (bursting .longOperation (bl (some 3) (.word 15) 0))).Quiet ∧ 0 + 1 < (batch0 none .rewrite 0 false).segs.length)
    ∧ ((on (bursting .longOperation (bl (some 4) (.word 15) 1))).Quiet ∧ (batch0 none .rewrite 0 false).segs.length ≤ 1 + 1)
    ∧ (let p := bursting .longOperation (retiring .blanking (batch0 (some 3) (.word 15) 0 false) (stalled .claim (stalled .event guarded)))
       (on p).Quiet ∧ p.store.streams.event.stalled = true ∧ p.store.pool = []) := by
  decide +kernel

theorem witness_FormatBlanksThenWritesTheLabel :
    let f (st : FormatStage) := on (bursting .longOperation (formatting st service))
    (f .label).Quiet ∧ (f (.segment 1 16)).Quiet ∧ (f (.segment 62 15)).Quiet ∧ (f (.segment 63 15)).Quiet ∧ (f .write).Quiet
      ∧ 32 * 2 ^ 1 = 64 ∧ service.scan.run ≠ .frozen ∧ service.chan.running = none
      ∧ (on (running .routeLoad (bursting .longOperation (formatting .write service)))).Quiet := by decide +kernel

/-- The header and the record as section 6.4 and R23 build them, and their chains. -/
theorem test_record_chain_agrees :
    recordWords .header (headerBody .event 1 1 0 900) 900 0 = header0
      ∧ recordWords .outage [1, 2] 950 (recordChainField header0) = record0 ∧ recordChainField header0 = 2878990820 ∧ recordChainField record0 = 3573256922
      ∧ headerAgrees closed0 header0 = true ∧ slotAgrees closed0 (recordChainField header0) record0 = true := by decide +kernel

theorem test_slot_in_memory :
    Memory.slot memory0 8 1 = record0 ∧ recordChain (recordChainField header0) record0 = recordChainField record0
      ∧ recordChain (recordChainField header0) (Memory.slot [] 8 1) ≠ recordChainField (Memory.slot [] 8 1) := by decide +kernel

def writing : Part :=
  queued 11
    { verifying false .write guarded with
      verify := some { verify0 false .write with extracts := [(.extractSummary, [1]), (.extractProof, [2])] } }

def numbered5 (p : Part) : Part := p.modStream .delivery (fun x => { x with nextSeq := 5 })

/-- The grants of the walk's first burst, of a segment's first burst; the end of slot 1 with and without a next segment; slot 1,023. -/
theorem witness_VerifyLocatesTheConsignment :
    (let p := numbered5 (walking (verify0 false .locate) guarded)
     (on p).Quiet ∧ p.arb.burst = none ∧ p.req2Waiting = false ∧ p.lowGrant = some .longOperation ∧ (verify0 false .locate).count = 0
      ∧ p.store.streams.delivery.nextSeq - 1 = 4
      ∧ (p.store.segs[5]?).map (fun e => (e.stream, e.segSeq, e.count)) = some (some .delivery, some 4, some 1023)
      ∧ (p.store.segs.take 5).all (fun e => e.stream != some .delivery) = true)
    ∧ (let p := walking (walk0 none) guarded
       (on p).Quiet ∧ p.lowGrant = some .longOperation ∧ p.req2Waiting = false)
    ∧ (let p := bursting .longOperation (walking (walk0 (some 1023)) guarded)
       (on p).Quiet ∧ p.verify = some (walk0 (some 1023)) ∧ p.claims[2]? = some { Claim.free with state := .verifying, id := some 77 }
        ∧ p.chan.running = none)
    ∧ (let p := bursting .longOperation (deliverySeg 9 3 (walking (walk0 (some 1)) guarded))
       (on p).Quiet ∧ (p.store.segs[8]?).map (fun e => e.segSeq) = some (some 3)
        ∧ (p.store.segs.take 8).all (fun e => e.segSeq != some 3) = true)
    ∧ (let p := bursting .longOperation (walking (walk0 (some 1)) guarded)
       (on p).Quiet ∧ p.store.segs.all (fun e => e.segSeq != some 3) = true) := by decide +kernel

/-- An accepted LOAD_ACK of id 77 in slot 1,023 of segment 6, and an accepted PROOF in the slot above. -/
theorem witness_VerifyLocatesTheConsignment_words :
    let m := (Memory.writeWords [] (slotAddr 6 1023) [0xC530, 77, 0, 0]).writeWords (slotAddr 6 1022) [0xC531, 77, 0, 5, 0x6000]
    (m.read (6 * 16384 + 16 * 1023) = Kind.loadAck.headerWord ∧ m.read (6 * 16384 + 16 * 1023 + 3) = 0)
    ∧ (m.read (6 * 16384 + 16 * 1022) = Kind.proof.headerWord ∧ (m.read (6 * 16384 + 16 * 1022 + 4)).toNat / 4096 ≤ 6) := by
  decide +kernel

/-- A claim whose window is 100 to 500. -/
def claim0 (held : List Nat) : Claim :=
  { Claim.free with state := .verifying, id := some 77, comp := some 2, windowStart := some 100, windowEnd := some 500, held := held }

def eventSeg (st : SegState) (number : BitVec 16) (openTime closeTime : Nat) : SegEntry :=
  { SegEntry.blankEntry with state := st, stream := some .event, segSeq := some number, openTime := some openTime,
                             closeTime := some closeTime, firstRec := some 100, count := some 50 }

def holding (c : Claim) (e : SegEntry) (p : Part) : Part := { p.modSeg 4 (fun _ => e) with claims := p.claims.set 2 c }

/-- The window's both ends, a RETIRING segment, a full list, the three states of a batch, the cover with and without a break. -/
theorem witness_VerifyHoldsAndCollects :
    (let p := holding (claim0 []) (eventSeg .closed 3 500 600) guarded
     (on p).Quiet ∧ p.claims[2]? = some (claim0 []) ∧ p.store.segs[3]? = some (eventSeg .closed 3 500 600)
      ∧ decide (500 ≤ 500) = true ∧ decide (501 ≤ 500) = false)
    ∧ ((eventSeg .closed 3 50 100).closeTime = some 100 ∧ (eventSeg .retiring 3 50 100).state = .retiring)
    ∧ ({ claim0 (List.replicate 64 9) with listTruncated := true } : Claim).listTruncated = true
    ∧ (64 ≤ (claim0 (List.replicate 64 9)).held.length ∧ (claim0 (List.replicate 63 9)).held.length ≤ 63)
    ∧ (let p := retiring .suspended (batch0 none .rewrite 0 false) guarded
       p.retire.state ≠ .collecting ∧ ((batch0 none .rewrite 0 false).segs.drop 0).contains 4 = true
        ∧ ((batch0 none .rewrite 2 false).segs.drop 2).contains 4 = false)
    ∧ (let p := (holding (claim0 [4, 7]) (eventSeg .closed 5 150 300) guarded).modSeg 7 (fun _ => eventSeg .closed 6 301 400)
       (on p).Quiet ∧ ([4, 7].filterMap p.seg).filter (fun e => e.stream == some .event)
          = [] ++ eventSeg .closed 5 150 300 :: [eventSeg .closed 6 301 400]
        ∧ ([4, 7].filterMap p.seg).filter (fun e => e.stream == some .sample) = [])
    ∧ (eventSeg .closed 8 301 400).segSeq ≠ (eventSeg .closed 5 150 300).segSeq.map (fun q => q + 1)
    ∧ (let q := (List.range' 1 63).foldl (Part.considerHold 2 100 500) (holding (claim0 []) (eventSeg .closed 1 100 600) guarded)
       (q.claim 2).held = [4])
    ∧ (let p := holding (claim0 []) (eventSeg .closed 3 500 600) (verifying false .check guarded)
       (on p).Quiet ∧ p.verify = some (verify0 false .check) ∧ (verify0 false .check).todo = [] ∧ (verify0 false .check).checked = []
        ∧ p.claims[2]? = some (claim0 [])) := by decide +kernel

/-- A COLLECT burst that goes on, and the last. -/
theorem witness_VerifyHoldsAndCollects_collect :
    let v (last : Nat) (todo : List (Nat × Nat)) : Verify :=
      { verify0 false .collect with collect := { Collect.start with todo := (4, last) :: todo, slot := 50 } }
    let p (v : Verify) : Part :=
      bursting .longOperation { holding (claim0 [4]) (eventSeg .closed 3 50 300) guarded with verify := some v }
    (on (p (v 51 []))).Quiet ∧ (on (p (v 50 [(9, 3)]))).Quiet ∧ (on (p (v 50 []))).Quiet ∧ (p (v 50 [])).chan.running = none
      ∧ (p (v 50 [])).claims[2]? = some (claim0 [4]) ∧ (eventSeg .closed 3 50 300).firstRec ≠ none := by decide +kernel

/-- A check of segment 8 at slot `k`, its limit `l`. -/
def check0 (k l : Nat) (exit : Option DWord) : ChainCheck :=
  { seg := 8, slot := k, limit := some l, exit := exit, chain := 2878990820 }

def checkingAt (c : ChainCheck) (todo : List Nat) (checked : List (Nat × Nat)) (e : SegEntry) : Part :=
  bursting .longOperation { verifying false .check (guarded.modSeg 8 (fun _ => e)) with
    verify := some { verify0 false .check with check := c, todo := todo, checked := checked } }

/-- The words that the check reads are those of test_slot_in_memory and of the header; slot 0 and the limit, with a next segment and
without; a mismatch in memory that nothing has written. -/
theorem witness_VerifyChecksAndWritesItsExtract :
    ((on (checkingAt (check0 0 1 (some 3573256922)) [8, 9] [] closed0)).Quiet
      ∧ (checkingAt (check0 0 1 none) [8, 9] [] closed0).store.segs[7]? = some closed0)
    ∧ (on (checkingAt (check0 1 1 (some 3573256922)) [8, 9] [] closed0)).Quiet
    ∧ ((on (checkingAt (check0 1 1 (some 3573256922)) [8] [(3, 0)] closed0)).Quiet
      ∧ ([(3, 0)] ++ [(8, 1)]).filter (fun x : Nat × Nat => x.2 != 0) ≠ [])
    ∧ (let p := checkingAt (check0 1 1 (some 4)) [8, 9] [] closed0
       (on p).Quiet ∧ (p.claims[2]?).map (fun c => c.state) = some .verifying ∧ some (4 : DWord) ≠ some 3573256922)
    ∧ (on (checkingAt (check0 0 0 none) [8, 9] [] { closed0 with state := .faulted })).Quiet
    ∧ (on (checkingAt (check0 0 0 none) [8, 9] [] { closed0 with state := .opened, closeTime := none })).Quiet
    ∧ ((on writing).Quiet ∧ writing.queue.length ≤ 11 ∧ writing.store.streams.claim.stalled = false
      ∧ writing.verify.map Verify.suspended = some false) := by decide +kernel

def scrubStep0 (limit : Nat) : ScrubStep :=
  { check := { seg := 8, slot := 1, limit := some limit, exit := some 3573256922, chain := 2878990820 }, abandoned := false }

def scrubbing (x : Option ScrubStep) : Part :=
  { withClosed guarded with scrub := { pointer := 8, due := some 1000, owed := 0, step := x } }

theorem witness_TheScrubChecksClosedSegments :
    ((on (scrubbing none)).Quiet ∧ (scrubbing none).longRunning = false ∧ (scrubbing none).store.segs[7]? = some closed0
      ∧ (((scrubbing none).store.segs.take 7).drop 7).all (fun g => g.state != .closed) = true)
    ∧ ((on (verifying false .check (scrubbing none))).Quiet ∧ (verifying false .check (scrubbing none)).longRunning = true)
    ∧ ((on (bursting .scrub (scrubbing (some (scrubStep0 2))))).Quiet
      ∧ (scrubbing (some (scrubStep0 1))).scrub.step = some (scrubStep0 1))
    ∧ (let x : ScrubStep := { check := check0 0 1 (some 3573256922), abandoned := false }
       (on (bursting .scrub (scrubbing (some x)))).Quiet ∧ (scrubbing (some x)).longRunning = false)
    ∧ (let x : ScrubStep := { check := .start 8, abandoned := false }
       (on (bursting .scrub (scrubbing (some x)))).Quiet ∧ x.check.slot = 0 ∧ x.check.limit = none ∧ closed0.count = some 1)
    ∧ (let x : ScrubStep := { check := check0 1 1 (some 4), abandoned := false }
       (on (bursting .scrub (scrubbing (some x)))).Quiet ∧ some (4 : DWord) ≠ some 3573256922) := by decide +kernel

/-! ## Witnesses: the route clock, supplies and restarts -/

theorem witness_TheRouteClockAdvances :
    carrying.clock.now < 4294967295 ∧ carrying.backup.lost = false
      ∧ ({ carrying with power := .off } : Part).backup.lost = false := by decide

theorem witness_ResetAndSupplyFailureStopThePart :
    guarded.power = .on ∧ (bursting (.record 0x8000 (List.replicate 16 3)) guarded).arb.burst = some (.record 0x8000 (List.replicate 16 3))
      ∧ ({ guarded with power := .resetHeld } : Part).power = .resetHeld ∧ ({ guarded with power := .off } : Part).power = .off
      ∧ (let p := bursting .longOperation (retiring .blanking (batch0 (some 3) (.word 15) 0 false) guarded)
         p.power = .on ∧ p.retire.batch = some (batch0 (some 3) (.word 15) 0 false))
      ∧ (listed .answer guarded).store.direct = [direct0 .answer] ∧ (listed .answer guarded).arb.burst = none
      ∧ ({ Part.cold with backup := { Part.cold.backup with mounting := true } } : Part).power = .on := by
  decide

/-- A restart that ends the VERIFY keeps the batch WAITING; the next test of the slots begins its blanking (R73, R179; log 51). -/
theorem test_waiting_over_a_restart :
    let p := retiring .waiting (batch0 none .rewrite 0 false) (verifying false .check guarded)
    let q := p.restartShared true
    q.retire = p.retire ∧ q.verify = none ∧ (q.slotsChanged false).retire.state = .blanking := by decide +kernel

theorem witness_RestartsClearTheChannelAndKeepTheEvidence :
    (let s := on { inAssembly .sample .sample 1 3 7 with power := .resetHeld }
     s.port.waiting = [] ∧ s.part.backup.mounting = false ∧ s.part.power = .resetHeld ∧ s.part.asm ≠ none)
    ∧ (let s := on { verifying false .check service with power := .off }
       s.part.backup.lost = false ∧ s.part.verifyRunning = true ∧ s.part.mode = .service)
    ∧ (let p := retiring .waiting (batch0 none .rewrite 0 false) (verifying false .check guarded)
       p.retire.state = .waiting ∧ p.verifyRunning = true)
    ∧ (let p := retiring .suspended (batch0 (some 3) (.word 15) 0 false) (verifying true .check service)
       p.retire.state = .suspended ∧ p.verify ≠ none ∧ p.verifyRunning = false)
    ∧ (retiring .collecting (batch0 none .rewrite 0 false) service).retire.state = .collecting
    ∧ (let p := { guarded with scrub := { guarded.scrub with owed := 255, step := some { check := .start 3, abandoned := false } } }
       p.longRunning = false ∧ p.scrub.step ≠ none)
    ∧ (let p : Part := { loaded with power := .off, backup := { loaded.backup with supplyFail := 980 } }
       p.asm = none ∧ p.longRunning = false ∧ p.retire.state = .empty ∧ p.scrub.step = none ∧ p.scrub.owed = 0 ∧ p.claimQueue = []
        ∧ p.verify = none ∧ p.queue.length ≤ 11 ∧ p.mode = .guarded ∧ p.backup.outage = none ∧ p.backup.restart = none
        ∧ p.ctxs.length = 8 ∧ p.cons.all Option.isNone = true) := by decide +kernel

/-- A store label of size code 1 with a unique number of zeros, and a stray word that makes segment 1 SCRAP. -/
def label0 : List Word := [0x6C52, 1, 0x2345, 1, 0, 0, 0, 0, 0x1A20, 2, blank, blank, blank, blank]
def labelled : Memory := (Memory.writeWords [] 0 (label0 ++ dwords (labelSeed label0))).write 16384 5

/-- Two segments of the DELIVERY stream, the newer one a header alone, and a FAULTED one of EVENT. -/
def found0 : List Found :=
  [{ number := 3, state := .opened, stream := .delivery, segSeq := 1, openTime := 50, first := 1, entry := 5, last := 1023 },
    { number := 6, state := .opened, stream := .delivery, segSeq := 2, openTime := 60, first := 1024, entry := 5, last := 0 },
    { number := 9, state := .faulted, stream := .event, segSeq := 3, openTime := 70, first := 1000, entry := 5, last := 1 }]

theorem witness_TheMountReadsTheStore :
    (found0.map (fun h => h.number)).Nodup ∧ (∀ h ∈ found0, h.number ≠ 63)
      ∧ (found0.filter (fun g => g.stream == .delivery && g.state == .opened && g.number != 6)).all
          (fun f => decide (f.first.toNat < 1024)) = true
      ∧ (∀ h ∈ found0, h.stream ≠ .claim)
      ∧ (found0.find? (fun g => g.stream == .delivery && g.segSeq + 1 == 2)).map (fun g => g.number) = some 3
      ∧ Memory.header memory0 8 ≠ none ∧ (Memory.header memory0 8).map (fun h => h.last) = some 1
      ∧ Memory.read (Memory.writeWords [] (slotAddr 3 1023) [0xC502]) (3 * 16384 + 16 * 1023) = Kind.load.headerWord := by
  decide +kernel

/-- A request below slot 1,022, one in slot 1,023, also behind two segments without a record, with and without a BLANK segment; a
record list with a ROUTE_START, with a ROUTE_END and with neither; the answers of the rebuild. -/
theorem witness_TheMountRecoversTheRoute :
    let d (n k : Nat) (number : BitVec 16) : Found :=
      { number := n, state := .closed, stream := .delivery, segSeq := number, openTime := 50, first := 1, entry := 5, last := k }
    (lastDelivery [d 3 1021 1] = some (3, 1021) ∧ lastDelivery [d 3 1023 1] = some (3, 1023) ∧ lastDelivery [] = none
      ∧ lastDelivery [d 5 0 3, d 3 1023 1, d 4 0 2] = some (3, 1023) ∧ lastDelivery [d 5 0 3, d 3 1023 0, d 4 0 2] = none)
    ∧ ((opened .delivery 3 1022 guarded).store.streams.delivery.openSeg = some 3 ∧ guarded.store.streams.delivery.openSeg = none
      ∧ guarded.store.pool = 1 :: guarded.store.pool.tail ∧ ({ guarded with store := { guarded.store with pool := [] } } : Part).store.pool = [])
    ∧ (guarded.recordsOf .event [] = [] ∧ wordAt [0xC520, 7] 0 = Kind.routeStart.headerWord
      ∧ wordAt [0xC521] 0 = Kind.routeEnd.headerWord)
    ∧ (let p := (opened .event 2 2 guarded).modSeg 2 (fun e => { e with segSeq := some 0 })
       p.recordsOf .event (Memory.writeWords [] (slotAddr 2 1) [0xC520]) = [] ++ (0xC520 :: List.replicate 15 blank) :: [])
    ∧ (wordAt [0xC531, 77, 0, 0, 0x6FFF] 0 = Kind.proof.headerWord ∧ (wordAt [0xC531, 77, 0, 0, 0x6FFF] 4).toNat / 4096 ≤ 6
      ∧ wordAt [0xC530, 77, 0, 0, 31] 0 = Kind.loadAck.headerWord ∧ (wordAt [0xC530, 77, 0, 0, 31] 4).toNat = 31)
    ∧ (let p : Part := { Part.cold with mode := .guarded, store := { Store.absent with nSeg := 64, formatTime := some 4 },
                                        backup := { Part.cold.backup with mounting := true } }
       (on p).port.waiting = [] ∧ p.power = .on ∧ p.store.formatTime = some 4) := by decide +kernel

theorem witness_AColdRestartMountsTheStore :
    Memory.label [] = none
    ∧ (labelled.label = some { code := 1, time := 0x12345, unique := [0, 0, 0, 0], seed := labelSeed label0 }
      ∧ (∀ n < 64, 1 ≤ n → labelled.header n = none)) := by
  decide +kernel

/-- The same label with another unique number. -/
def label1 : List Word := [0x6C52, 1, 0x2345, 1, 1, 0, 0, 0, 0x1A20, 2, blank, blank, blank, blank]
def labelled1 : Memory := Memory.writeWords [] 0 (label1 ++ dwords (labelSeed label1))

/-- Whatever the part's unique number is, one of two labels is foreign to it. -/
theorem witness_AColdRestartMountsTheStore_foreign : ∃ m : Memory, ∃ l, m.label = some l ∧ l.unique ≠ uniqueWords := by
  have h0 : labelled.label = some { code := 1, time := 0x12345, unique := [0, 0, 0, 0], seed := labelSeed label0 } := by decide +kernel
  have h1 : labelled1.label = some { code := 1, time := 0x12345, unique := [1, 0, 0, 0], seed := labelSeed label1 } := by decide +kernel
  by_cases h : uniqueWords = [0, 0, 0, 0]
  · exact ⟨labelled1, _, h1, by rw [h]; decide⟩
  · exact ⟨labelled, _, h0, fun e => h e.symm⟩

/-- A label of the part's own is read back with its unique number. -/
theorem witness_AColdRestartMountsTheStore_own :
    (Memory.writeWords [] 0 (labelWords 1 5)).label
      = some { code := 1, time := 5, unique := uniqueWords, seed := labelSeed (labelHead 1 5) } := by
  have h := Memory.readWords_writeWords Memory.wf_nil 0 (labelWords 1 5)
  have hl : (labelWords 1 5).length = 16 := rfl
  rw [hl] at h
  have hs : dwordAt (labelWords 1 5) 14 = labelSeed (labelHead 1 5) := joinD_words _
  have ht : (labelWords 1 5).take 14 = labelHead 1 5 := rfl
  have hu : ((labelWords 1 5).drop 4).take 4 = uniqueWords := rfl
  have hc : wordAt (labelWords 1 5) 0 = 0x6C52 ∧ wordAt (labelWords 1 5) 1 = 1 ∧ num32At (labelWords 1 5) 2 = 5 := ⟨rfl, rfl, rfl⟩
  simp only [Memory.label, h, hs, ht, hu, hc]
  simp
end Sys2Proof.Tests
end

/-! # Proofs: the record memory stays canonical

Every row either leaves the record memory alone or writes it through `Memory.write`, so `State.Keeps` holds of every row. -/

namespace Sys2Proof.Machine

/-! ## The shapes of a row -/

theorem State.Keeps.ite {s t : State} {c : Prop} [Decidable c] (h : c → State.Keeps s t) :
    State.Keeps s (if c then t else s) := by
  split
  · exact h ‹c›
  · exact State.Keeps.refl s

/-- A row that acts and then lets the port settle. -/
theorem State.Keeps.settled {s t : State} (h : State.Keeps s t) : State.Keeps s t.settle :=
  h.trans (State.settle_keeps t)

/-! ## What the bursts of a row write -/

theorem State.sheetBurst_keeps (s : State) : State.Keeps s s.sheetBurst := State.Keeps.of_eq rfl rfl

theorem State.fieldBurst_keeps (dock : Bool) (s : State) : State.Keeps s (s.fieldBurst dock) := by
  unfold State.fieldBurst
  simp only
  split <;> exact State.Keeps.of_eq rfl rfl

theorem State.writeDirect_keeps (s : State) : State.Keeps s s.writeDirect := by
  unfold State.writeDirect
  split
  · exact State.Keeps.refl s
  · exact ⟨rfl, fun h => Memory.wf_writeWords _ h _⟩

theorem State.writeCondition_keeps (s : State) : State.Keeps s s.writeCondition := by
  unfold State.writeCondition
  split
  · exact State.Keeps.refl s
  · exact ⟨rfl, fun h => Memory.wf_write h _ _⟩

theorem State.writeRecordBurst_keeps (s : State) : State.Keeps s s.writeRecordBurst := by
  unfold State.writeRecordBurst
  split
  · exact ⟨rfl, fun h => Memory.wf_writeWords _ h _⟩
  · exact State.Keeps.refl s

theorem State.writeRetiring_keeps (n : Nat) (s : State) : State.Keeps s (s.writeRetiring n) :=
  ⟨rfl, fun h => Memory.wf_write h _ _⟩

theorem State.markNext_keeps (s : State) : State.Keeps s s.markNext := by
  have marked : State.Keeps s { s with part := s.part.takeNextSeg } := State.Keeps.of_eq rfl rfl
  unfold State.markNext
  simp only
  split
  · split
    · exact marked.trans (State.writeRetiring_keeps _ _)
    · exact marked
  · exact marked

theorem State.blankBurst_keeps (s : State) : State.Keeps s s.blankBurst := by
  unfold State.blankBurst
  simp only
  split
  · exact ⟨rfl, fun h => Memory.wf_write h _ _⟩
  · split
    · exact ⟨rfl, fun h => Memory.wf_writeWords _ h _⟩
    · exact State.Keeps.of_eq rfl rfl
  · exact State.Keeps.of_eq rfl rfl

theorem State.formatBurst_keeps (s : State) : State.Keeps s s.formatBurst := by
  unfold State.formatBurst
  simp only
  split
  · exact State.Keeps.of_eq rfl rfl
  · split <;> exact ⟨rfl, fun h => Memory.wf_writeWords _ h _⟩

theorem State.verifyBurst_keeps (s : State) : State.Keeps s s.verifyBurst := by
  unfold State.verifyBurst
  simp only
  split <;> exact State.Keeps.of_eq rfl rfl

theorem State.scrubBurst_keeps (s : State) : State.Keeps s s.scrubBurst := by
  unfold State.scrubBurst
  simp only
  split <;> exact State.Keeps.of_eq rfl rfl

/-- A restart makes the label burst of R196, and the mount its own writes; both keep the canonical form. -/
theorem State.restarted_keeps (s : State) (p : Part) : State.Keeps s { s with mem := s.restartMem, part := p } :=
  ⟨rfl, State.restartMem_wf⟩

theorem execSupplyFail_keeps (cut : Cut) {s t : State} (h : execSupplyFail cut s = .next t) : State.Keeps s t := by
  cases h
  split
  · exact State.Keeps.refl s
  · exact (State.stop_keeps _ .off s).trans (State.Keeps.of_eq (t := { State.stop _ _ s with port := _, part := _ }) rfl rfl)

/-! ## Every row -/

/-- No row changes the queue, and every row keeps a canonical memory canonical. -/
theorem exec_keeps {i : Instr} {s t : State} (h : exec i s = .next t) : State.Keeps s t := by
  cases hg : s.given i with
  | some g =>
    obtain ⟨a, c, ps, dock⟩ := g
    rw [(State.exec_given hg).1] at h
    cases h
    exact State.giveCommand_keeps a c ps dock s
  | none =>
    cases i <;> simp only [State.given, reduceCtorEq] at hg
    case upstreamWrite a d dock =>
      cases h
      exact (State.Keeps.of_eq (t := { s with part := s.part.setDock dock }) rfl rfl).trans (State.access_keeps _ _)
    case upstreamRead a => cases h; exact State.access_keeps _ _
    case routeLoadReadBurst => cases h; exact State.Keeps.ite fun _ => State.Keeps.settled (State.sheetBurst_keeps s)
    case serviceEnterReadEnd dock => cases h; exact State.Keeps.ite fun _ => State.Keeps.settled (State.fieldBurst_keeps dock s)
    case directWriteComplete => cases h; exact State.Keeps.ite fun _ => State.Keeps.settled (State.writeDirect_keeps s)
    case conditionRewrite => cases h; exact State.Keeps.ite fun _ => State.Keeps.settled (State.writeCondition_keeps s)
    case recordWriterWriteComplete => cases h; exact State.Keeps.ite fun _ => State.Keeps.settled (State.writeRecordBurst_keeps s)
    case blankingMark => cases h; exact State.Keeps.ite fun _ => State.Keeps.settled (State.markNext_keeps s)
    case blankingBurst => cases h; exact State.Keeps.ite fun _ => State.Keeps.settled (State.blankBurst_keeps s)
    case formatBurst => cases h; exact State.Keeps.ite fun _ => State.Keeps.settled (State.formatBurst_keeps s)
    case verifyBurst => cases h; exact State.Keeps.ite fun _ => State.Keeps.settled (State.verifyBurst_keeps s)
    case scrubBurst => cases h; exact State.Keeps.ite fun _ => State.Keeps.settled (State.scrubBurst_keeps s)
    case recordWriterServe | collectionWindowExpiry | verifyStart | extractRecordAdd | scrubStepDue =>
      cases h; exact State.Keeps.ite fun _ => State.Keeps.settled (State.Keeps.of_eq rfl rfl)
    case routeEndRecordJoin | outageRecordJoin | restartRecordsJoin | withheldSummary | gapTimerExpiry
        | continuousExcursionDeadline | scanVisit | lineWatchSample | dwell | coldRestart | routeClockAdvance
        | backupDomainLoss =>
      cases h; exact State.Keeps.ite fun _ => State.Keeps.of_eq rfl rfl
    case dockFall =>
      cases h
      split
      · exact (State.Keeps.of_eq (t := { s with part := s.part.dockFalls }) rfl rfl).settled
      · exact State.Keeps.of_eq rfl rfl
    case resetAssert cut => cases h; exact State.Keeps.ite fun _ => State.stop_keeps _ _ s
    case supplyFail cut => exact execSupplyFail_keeps cut h
    case reset dock => cases h; exact State.Keeps.ite fun _ => (State.restarted_keeps s _).settled
    case warmRestart dock => cases h; exact State.Keeps.ite fun _ => (State.restarted_keeps s _).settled
    case mountEnd =>
      cases h
      exact State.Keeps.ite fun _ => State.Keeps.settled ⟨rfl, fun hm => Memory.wf_writeAll _ hm⟩

/-- A step is the idle of an empty queue or a row on the state without it. -/
theorem step_cases {s t : State} (h : step s = .next t) :
    t = s ∨ ∃ c rest, s.pending = c :: rest ∧ exec c { s with pending := rest } = .next t := by
  unfold step at h
  split at h
  · cases h; exact .inl rfl
  · exact .inr ⟨_, _, ‹_›, h⟩

/-- Settles O3: every row writes the record memory through `Memory.write` alone, which keeps the form. -/
theorem everyStepKeepsTheMemoryCanonical : Obligations.EveryStepKeepsTheMemoryCanonical := by
  intro s t hs h
  obtain rfl | ⟨c, rest, -, hx⟩ := step_cases h
  · exact hs
  · exact (exec_keeps hx).2 hs

end Sys2Proof.Machine

/-! # Laws: what the engines leave unchanged

Each engine of the part changes its own fields. `Part.EvidenceOnly` is the frame of the exposure, consignment and scan engines
and of the record writer queue; `Part.StoreOnly` that of the segment and stream tables; `Part.GrantOnly` that of a grant of the
arbiter. -/

namespace Sys2Proof.Machine

/-! ## The exposure, consignment and scan engines and the record writer queue -/

/-- Only the record writer queue, the scanner, the contexts, the consignments and the pending causes may differ. -/
structure Part.EvidenceOnly (p q : Part) : Prop where
  power : q.power = p.power
  pins : q.pins = p.pins
  backup : q.backup = p.backup
  freeCount : q.freeCount = p.freeCount
  arb : q.arb = p.arb
  chan : q.chan = p.chan
  refusals : q.refusals = p.refusals
  mode : q.mode = p.mode
  store : q.store = p.store
  asm : q.asm = p.asm
  route : q.route = p.route
  clock : q.clock = p.clock
  claims : q.claims = p.claims
  claimQueue : q.claimQueue = p.claimQueue
  verify : q.verify = p.verify
  retire : q.retire = p.retire
  scrub : q.scrub = p.scrub

theorem Part.EvidenceOnly.of_fields {p : Part} (queue : List QueueEntry) (scan : Scanner) (ctxs : List Ctx)
    (cons : List (Option Consignment)) (attention : Word) :
    Part.EvidenceOnly p
      { p with queue := queue, scan := scan, ctxs := ctxs, cons := cons, attention := attention } := by
  constructor <;> rfl

theorem Part.EvidenceOnly.refl (p : Part) : Part.EvidenceOnly p p := .of_fields _ _ _ _ _

theorem Part.EvidenceOnly.trans {p q r : Part} (h : Part.EvidenceOnly p q) (k : Part.EvidenceOnly q r) :
    Part.EvidenceOnly p r where
  power := k.power.trans h.power
  pins := k.pins.trans h.pins
  backup := k.backup.trans h.backup
  freeCount := k.freeCount.trans h.freeCount
  arb := k.arb.trans h.arb
  chan := k.chan.trans h.chan
  refusals := k.refusals.trans h.refusals
  mode := k.mode.trans h.mode
  store := k.store.trans h.store
  asm := k.asm.trans h.asm
  route := k.route.trans h.route
  clock := k.clock.trans h.clock
  claims := k.claims.trans h.claims
  claimQueue := k.claimQueue.trans h.claimQueue
  verify := k.verify.trans h.verify
  retire := k.retire.trans h.retire
  scrub := k.scrub.trans h.scrub

/-- A fold whose every step is within the frame. -/
theorem Part.EvidenceOnly.foldl {α : Type} {f : Part → α → Part} (hf : ∀ p a, Part.EvidenceOnly p (f p a)) (l : List α) :
    ∀ p, Part.EvidenceOnly p (l.foldl f p) := by
  induction l with
  | nil => exact .refl
  | cons a l ih => exact fun p => (hf p a).trans (ih _)

theorem Part.EvidenceOnly.ite {p q r : Part} {c : Prop} [Decidable c] (h : Part.EvidenceOnly p q)
    (k : Part.EvidenceOnly p r) : Part.EvidenceOnly p (if c then q else r) := by
  split
  · exact h
  · exact k

theorem Part.raise_only (c : Word) (p : Part) : Part.EvidenceOnly p (p.raise c) := .of_fields _ _ _ _ _
theorem Part.modCtx_only (c : Nat) (f : Ctx → Ctx) (p : Part) : Part.EvidenceOnly p (p.modCtx c f) := .of_fields _ _ _ _ _
theorem Part.modCons_only (i : Nat) (f : Consignment → Consignment) (p : Part) : Part.EvidenceOnly p (p.modCons i f) :=
  .of_fields _ _ _ _ _
theorem Part.mapLoaded_only (sel : Consignment → Bool) (f : Consignment → Consignment) (p : Part) :
    Part.EvidenceOnly p (p.mapLoaded sel f) := .of_fields _ _ _ _ _
theorem Part.modSlot_only (k : Nat) (f : Slot → Slot) (p : Part) : Part.EvidenceOnly p (p.modSlot k f) :=
  .of_fields _ _ _ _ _
theorem Part.withhold_only (c : Nat) (p : Part) : Part.EvidenceOnly p (p.withhold c) := .of_fields _ _ _ _ _

/-! ### The queue and the scanner's freeze -/

theorem Part.freezeCheck_only (p : Part) : Part.EvidenceOnly p p.freezeCheck :=
  .ite (.of_fields _ _ _ _ _) (.refl p)

theorem Part.addRecord_only (st : Stream) (k : Kind) (body : List Word) (p : Part) :
    Part.EvidenceOnly p (p.addRecord st k body) :=
  (EvidenceOnly.of_fields (p := p) _ p.scan p.ctxs p.cons p.attention).trans (Part.freezeCheck_only _)

theorem Part.addExposure_only (c : Nat) (k : Kind) (body : List Word) (p : Part) :
    Part.EvidenceOnly p (p.addExposure c k body) :=
  .ite (Part.addRecord_only _ _ _ p) (Part.withhold_only c p)

theorem Part.addFault_only (body : List Word) (p : Part) : Part.EvidenceOnly p (p.addFault body) :=
  .ite (Part.addRecord_only _ _ _ p) (.of_fields _ _ _ _ _)

theorem Part.resumeScanner_only (p : Part) : Part.EvidenceOnly p p.resumeScanner := by
  unfold Part.resumeScanner
  split
  · split
    · exact .of_fields _ _ _ _ _
    · have h (body : List Word) := (EvidenceOnly.of_fields (p := p) p.queue { p.scan with owed := none } p.ctxs p.cons
        p.attention).trans (Part.addRecord_only .event .doorStatus body _)
      exact .ite ((h _).trans (.of_fields _ _ _ _ _)) (h _)
  · exact .refl p

/-! ### Samples, alerts and timers -/

theorem Part.alert_only (k : Consignment) (condemned breached : Bool) (triggers reading : Word) (p : Part) :
    Part.EvidenceOnly p (p.alert k condemned breached triggers reading) :=
  (Part.addExposure_only _ _ _ p).trans (Part.raise_only _ _)

theorem Part.evaluate_only (c : Nat) (r : Int) (i : Nat) (p : Part) : Part.EvidenceOnly p (p.evaluate c r i) := by
  unfold Part.evaluate
  split
  · exact .refl p
  · exact .ite (.ite ((Part.modCons_only _ _ p).trans (Part.alert_only _ _ _ _ _ _)) (Part.modCons_only _ _ p)) (.refl p)

theorem Part.evaluateAll_only (c : Nat) (r : Int) (p : Part) : Part.EvidenceOnly p (p.evaluateAll c r) :=
  EvidenceOnly.foldl (fun p i => Part.evaluate_only c r i p) _ p

theorem Part.endGap_only (c t : Nat) (p : Part) : Part.EvidenceOnly p (p.endGap c t) :=
  .ite ((Part.modCtx_only _ _ p).trans (Part.addExposure_only _ _ _ _)) (.refl p)

theorem Part.evaluateThermal_only (c : Nat) (r : Int) (t : Nat) (unit : Word) (p : Part) :
    Part.EvidenceOnly p (p.evaluateThermal c r t unit) := by
  unfold Part.evaluateThermal
  simp only
  split
  · exact .refl p
  · exact .ite (((Part.modCtx_only _ _ p).trans (Part.addExposure_only _ _ _ _)).trans (Part.raise_only _ _)) (.refl p)
  · exact .ite (Part.modCtx_only _ _ p)
      (((Part.modCtx_only _ _ p).trans (Part.addExposure_only _ _ _ _)).trans (Part.raise_only _ _))

theorem Part.takeSample_only (c : Nat) (r : Int) (t : Nat) (unit : Word) (p : Part) :
    Part.EvidenceOnly p (p.takeSample c r t unit) :=
  ((((Part.modCtx_only _ _ p).trans (Part.endGap_only _ _ _)).trans (Part.evaluateThermal_only _ _ _ _ _)).trans
    (Part.evaluateAll_only _ _ _)).trans (Part.modCtx_only _ _ _)

theorem Part.consumeSample_only (ws : List Word) (t : Nat) (p : Part) : Part.EvidenceOnly p (p.consumeSample ws t) := by
  unfold Part.consumeSample
  simp only
  refine .ite (.refl p) (.ite (.refl p) (.ite (.refl p) ?_))
  split
  · exact Part.modCtx_only _ _ p
  · exact (EvidenceOnly.ite (Part.modCtx_only _ _ p) (.refl p)).trans (Part.takeSample_only _ _ _ _ _)

theorem Part.expireGapTimer_only (c : Nat) (p : Part) : Part.EvidenceOnly p (p.expireGapTimer c) :=
  (((Part.modCtx_only _ _ p).trans (Part.addExposure_only _ _ _ _)).trans (Part.mapLoaded_only _ _ _)).trans
    (Part.raise_only _ _)

theorem Part.expireDeadline_only (i : Nat) (p : Part) : Part.EvidenceOnly p (p.expireDeadline i) := by
  unfold Part.expireDeadline
  split
  · exact .refl p
  · exact (Part.modCons_only _ _ p).trans (Part.alert_only _ _ _ _ _ _)

theorem Part.addSummary_only (c : Nat) (p : Part) : Part.EvidenceOnly p (p.addSummary c) :=
  (Part.modCtx_only _ _ p).trans (Part.addRecord_only _ _ _ _)

/-! ### Outages -/

theorem Part.budgetTest_only (c i : Nat) (p : Part) : Part.EvidenceOnly p (p.budgetTest c i) := by
  unfold Part.budgetTest
  split
  · exact .refl p
  · exact .ite ((Part.modCons_only _ _ p).trans (Part.alert_only _ _ _ _ _ _)) (.refl p)

theorem Part.closeAtRestart_only (tf tr : Nat) (p : Part) (c : Nat) : Part.EvidenceOnly p (p.closeAtRestart tf tr c) :=
  .ite (.refl p) (((Part.modCtx_only _ _ p).trans
    (EvidenceOnly.foldl (fun p i => Part.budgetTest_only c i p) _ _)).trans (Part.modCtx_only _ _ _))

theorem Part.closeIntervals_only (p : Part) : Part.EvidenceOnly p p.closeIntervals :=
  EvidenceOnly.foldl (fun q c => Part.closeAtRestart_only _ _ q c) _ p

theorem Part.chargeOutage_only (secs : Nat) (cs : List Nat) (p : Part) : Part.EvidenceOnly p (p.chargeOutage secs cs) :=
  EvidenceOnly.foldl (fun q _ => (Part.modCtx_only _ _ q).trans (Part.mapLoaded_only _ _ _)) cs p

/-! ### Requests -/

theorem Part.loadRequest_only (ws : List Word) (t : Nat) (p : Part) : Part.EvidenceOnly p (p.loadRequest ws t).2 := by
  unfold Part.loadRequest
  simp only
  split
  · exact .refl p
  · split
    · exact .refl p
    · exact .of_fields _ _ _ _ _

theorem Part.judgeHandover_only (reading : Word) (i : Nat) (k : Consignment) (p : Part) :
    Part.EvidenceOnly p (p.judgeHandover reading i k) := by
  unfold Part.judgeHandover
  simp only
  split
  · exact .refl p
  · exact .ite ((Part.modCons_only _ _ p).trans (Part.alert_only _ _ _ _ _ _)) (Part.modCons_only _ _ p)

theorem Part.applyDelivery_only (b : DeliveryBody) (i : Nat) (p : Part) : Part.EvidenceOnly p (p.applyDelivery b i) := by
  refine .ite (Part.modCons_only _ _ p) ?_
  simp only
  split
  · exact .ite ((Part.modCons_only _ _ p).trans (Part.modCons_only _ _ _)) (Part.modCons_only _ _ p)
  · exact Part.modCons_only _ _ p

theorem Part.deliveryRequest_only (ws : List Word) (p : Part) : Part.EvidenceOnly p (p.deliveryRequest ws).2 := by
  unfold Part.deliveryRequest
  simp only
  split
  · exact .refl p
  · exact (Part.judgeHandover_only _ _ _ p).trans (Part.applyDelivery_only _ _ _)

theorem Part.unloadRequest_only (ws : List Word) (p : Part) : Part.EvidenceOnly p (p.unloadRequest ws).2 := by
  unfold Part.unloadRequest
  simp only
  split
  · exact .refl p
  · exact Part.modCons_only _ _ p

/-- The answer to a request is the consignment engine's business alone (R143). -/
theorem Part.answerRequest_only (k : Kind) (ws : List Word) (t : Nat) (p : Part) :
    Part.EvidenceOnly p (p.answerRequest k ws t).2 := by
  unfold Part.answerRequest
  split
  · exact Part.loadRequest_only ws t p
  · exact Part.unloadRequest_only ws p
  · exact Part.deliveryRequest_only ws p

/-! ### Scanning -/

theorem Part.tellDoor_only (k : Nat) (p : Part) : Part.EvidenceOnly p (p.tellDoor k) := .of_fields _ _ _ _ _

theorem Part.acceptContact_only (s : Nat) (p : Part) : Part.EvidenceOnly p (p.acceptContact s) := by
  have told (body : List Word) := ((Part.modSlot_only s (Slot.accept p.clock.now) p).trans
    (Part.addRecord_only .event .doorChange body _)).trans (Part.tellDoor_only s _)
  exact .ite ((told _).trans (Part.mapLoaded_only _ _ _)) (told _)

theorem Part.acceptSeal_only (s : Nat) (p : Part) : Part.EvidenceOnly p (p.acceptSeal s) := by
  have told (body : List Word) := (Part.modSlot_only s (Slot.accept p.clock.now) p).trans
    (Part.addRecord_only .event .sealChange body _)
  exact .ite (((told _).trans (Part.mapLoaded_only _ _ _)).trans (Part.raise_only _ _)) (told _)

theorem Part.addStatus_only (body : List Word) (p : Part) : Part.EvidenceOnly p (p.addStatus body) :=
  .ite (Part.addRecord_only _ _ _ p) (.of_fields _ _ _ _ _)

theorem Part.visit_only (s : Nat) (raw rescan audit : Bool) (p : Part) :
    Part.EvidenceOnly p (p.visit s raw rescan audit) := by
  have judged : Part.EvidenceOnly p (p.judgeVisit s raw) :=
    .ite (.ite (Part.acceptContact_only s p) (Part.acceptSeal_only s p)) (Part.modSlot_only _ _ p)
  exact .ite (judged.trans (Part.addStatus_only _ _)) judged

theorem Part.dwellStep_only (p : Part) : Part.EvidenceOnly p p.dwellStep := by
  unfold Part.dwellStep
  split
  · exact .refl p
  · split
    · exact .of_fields _ _ _ _ _
    · rename_i n _ _ s limit _
      have tested : Part.EvidenceOnly p { p with scan := { p.scan with dwellTest := some (s + 1) } } := .of_fields _ _ _ _ _
      exact (((tested.trans (Part.modSlot_only _ _ _)).trans (Part.addRecord_only _ _ _ _)).trans
        (Part.raise_only _ _)).trans (Part.mapLoaded_only _ _ _)

theorem Part.startScanning_only (p : Part) : Part.EvidenceOnly p p.startScanning :=
  (EvidenceOnly.of_fields (p := p) p.queue _ p.ctxs p.cons p.attention).trans (Part.freezeCheck_only _)

theorem Part.stopScanning_only (p : Part) : Part.EvidenceOnly p p.stopScanning := .of_fields _ _ _ _ _

theorem Part.restartScanner_only (p : Part) : Part.EvidenceOnly p p.restartScanner := by
  have reset := EvidenceOnly.of_fields (p := p) p.queue
    { p.scan with slots := p.scan.slots.map (fun x => { x with agree := 0 }), dwellTest := none } p.ctxs p.cons p.attention
  exact .ite (reset.trans (.of_fields _ _ _ _ _)) (reset.trans (Part.freezeCheck_only _))

end Sys2Proof.Machine

/-! # Laws: what the record store manager leaves unchanged -/

namespace Sys2Proof.Machine

/-! ## The segment and stream tables -/

/-- Only the store, the pending causes and the clock floor may differ. -/
structure Part.StoreOnly (p q : Part) : Prop where
  power : q.power = p.power
  pins : q.pins = p.pins
  backup : q.backup = p.backup
  freeCount : q.freeCount = p.freeCount
  arb : q.arb = p.arb
  chan : q.chan = p.chan
  refusals : q.refusals = p.refusals
  mode : q.mode = p.mode
  queue : q.queue = p.queue
  asm : q.asm = p.asm
  route : q.route = p.route
  now : q.clock.now = p.clock.now
  ctxs : q.ctxs = p.ctxs
  scan : q.scan = p.scan
  cons : q.cons = p.cons
  claims : q.claims = p.claims
  claimQueue : q.claimQueue = p.claimQueue
  verify : q.verify = p.verify
  retire : q.retire = p.retire
  scrub : q.scrub = p.scrub

theorem Part.StoreOnly.of_fields {p : Part} (store : Store) (attention : Word) (floor : Nat) :
    Part.StoreOnly p
      { p with store := store, attention := attention, clock := { p.clock with floor := floor } } := by
  constructor <;> rfl

theorem Part.StoreOnly.refl (p : Part) : Part.StoreOnly p p := .of_fields _ _ _

theorem Part.StoreOnly.trans {p q r : Part} (h : Part.StoreOnly p q) (k : Part.StoreOnly q r) : Part.StoreOnly p r where
  power := k.power.trans h.power
  pins := k.pins.trans h.pins
  backup := k.backup.trans h.backup
  freeCount := k.freeCount.trans h.freeCount
  arb := k.arb.trans h.arb
  chan := k.chan.trans h.chan
  refusals := k.refusals.trans h.refusals
  mode := k.mode.trans h.mode
  queue := k.queue.trans h.queue
  asm := k.asm.trans h.asm
  route := k.route.trans h.route
  now := k.now.trans h.now
  ctxs := k.ctxs.trans h.ctxs
  scan := k.scan.trans h.scan
  cons := k.cons.trans h.cons
  claims := k.claims.trans h.claims
  claimQueue := k.claimQueue.trans h.claimQueue
  verify := k.verify.trans h.verify
  retire := k.retire.trans h.retire
  scrub := k.scrub.trans h.scrub

theorem Part.StoreOnly.ite {p q r : Part} {c : Prop} [Decidable c] (h : Part.StoreOnly p q) (k : Part.StoreOnly p r) :
    Part.StoreOnly p (if c then q else r) := by
  split
  · exact h
  · exact k

theorem Part.modSeg_storeOnly (n : Nat) (f : SegEntry → SegEntry) (p : Part) : Part.StoreOnly p (p.modSeg n f) :=
  .ite (.refl p) (.of_fields _ _ _)

theorem Part.modStream_storeOnly (st : Stream) (f : StreamEntry → StreamEntry) (p : Part) :
    Part.StoreOnly p (p.modStream st f) := .of_fields _ _ _

theorem Part.raise_storeOnly (c : Word) (p : Part) : Part.StoreOnly p (p.raise c) := .of_fields _ _ _

theorem Part.noteReceipt_storeOnly (t : Nat) (p : Part) : Part.StoreOnly p (p.noteReceipt t) := .of_fields _ _ _

theorem Part.pushDirect_storeOnly (e : DirectEntry) (p : Part) : Part.StoreOnly p (p.pushDirect e) := .of_fields _ _ _

theorem Part.openTaken_storeOnly (st : Stream) (n : Nat) (p : Part) : Part.StoreOnly p (p.openTaken st n) :=
  (((Part.modSeg_storeOnly _ _ p).trans (Part.modStream_storeOnly _ _ _)).trans (Part.noteReceipt_storeOnly _ _)).trans
    (Part.pushDirect_storeOnly _ _)

theorem Part.openSegment_storeOnly (st : Stream) (p : Part) : Part.StoreOnly p (p.openSegment st) := by
  unfold Part.openSegment
  split
  · exact .refl p
  · rename_i rest _
    have taken : Part.StoreOnly p ({ p with store := { p.store with pool := rest } } : Part).raiseStoreLow :=
      .ite (.of_fields _ _ _) (.of_fields _ _ _)
    exact taken.trans (Part.openTaken_storeOnly _ _ _)

theorem Part.stall_storeOnly (st : Stream) (p : Part) : Part.StoreOnly p (p.stall st) := .of_fields _ _ _

theorem Part.needSegment_storeOnly (st : Stream) (p : Part) : Part.StoreOnly p (p.needSegment st) :=
  .ite (.refl p) (.ite (Part.openSegment_storeOnly st p) (Part.stall_storeOnly st p))

theorem Part.closeSegment_storeOnly (st : Stream) (n : Nat) (p : Part) : Part.StoreOnly p (p.closeSegment st n) :=
  (Part.modSeg_storeOnly _ _ p).trans (Part.modStream_storeOnly _ _ _)

theorem Part.advanceStream_storeOnly (st : Stream) (n : Nat) (chain : DWord) (p : Part) :
    Part.StoreOnly p (p.advanceStream st n chain) :=
  (Part.modStream_storeOnly _ _ p).trans (Part.modSeg_storeOnly _ _ _)

theorem Part.slotConsumed_storeOnly (st : Stream) (n s : Nat) (needs : Bool) (p : Part) :
    Part.StoreOnly p (p.slotConsumed st n s needs) := by
  have closed := Part.closeSegment_storeOnly st n p
  exact .ite (.ite (.ite (closed.trans (Part.needSegment_storeOnly st _)) closed) (Part.modStream_storeOnly _ _ p))
    (Part.modSeg_storeOnly _ _ p)

theorem Part.faultSegment_storeOnly (n : Nat) (p : Part) : Part.StoreOnly p (p.faultSegment n) := by
  unfold Part.faultSegment
  split
  · exact .refl p
  · split
    · exact (Part.modSeg_storeOnly _ _ p).trans (Part.modStream_storeOnly _ _ _)
    · exact Part.modSeg_storeOnly _ _ p
    · exact .refl p

theorem Part.serveStalled_storeOnly (p : Part) : Part.StoreOnly p p.serveStalled := by
  have serve (st : Stream) (p : Part) :
      Part.StoreOnly p (if (p.stream st).stalled && p.mayTake st then p.openSegment st else p) :=
    .ite (Part.openSegment_storeOnly st p) (.refl p)
  exact (((serve .event p).trans (serve .delivery _)).trans (serve .sample _)).trans (serve .claim _)

theorem Part.joinPool_storeOnly (n : Nat) (p : Part) : Part.StoreOnly p (p.joinPool n) :=
  ((Part.modSeg_storeOnly n _ p).trans (.of_fields _ _ _)).trans (Part.serveStalled_storeOnly _)

theorem Part.placeAnswer_storeOnly (ans : Answer) (t n s : Nat) (p : Part) :
    Part.StoreOnly p (p.placeAnswer ans t n s) :=
  (((Part.advanceStream_storeOnly _ _ _ p).trans (Part.modStream_storeOnly _ _ _)).trans
    (Part.pushDirect_storeOnly _ _)).trans (Part.slotConsumed_storeOnly _ _ _ _ _)

theorem Part.commitAnswer_storeOnly (ans : Answer) (t n s : Nat) (p : Part) :
    Part.StoreOnly p (p.commitAnswer ans t n s) := by
  unfold Part.commitAnswer
  have opened := (Part.slotConsumed_storeOnly .delivery n s false p).trans (Part.openSegment_storeOnly .delivery _)
  refine .ite (Part.placeAnswer_storeOnly _ _ _ _ p) ?_
  simp only
  split
  · exact opened.trans (Part.placeAnswer_storeOnly _ _ _ _ _)
  · exact opened

/-! ## The arbiter's grant -/

/-- Only the arbiter, the verify slot and the claims may differ. -/
structure Part.GrantOnly (p q : Part) : Prop where
  power : q.power = p.power
  pins : q.pins = p.pins
  backup : q.backup = p.backup
  freeCount : q.freeCount = p.freeCount
  chan : q.chan = p.chan
  attention : q.attention = p.attention
  refusals : q.refusals = p.refusals
  mode : q.mode = p.mode
  store : q.store = p.store
  queue : q.queue = p.queue
  asm : q.asm = p.asm
  route : q.route = p.route
  clock : q.clock = p.clock
  ctxs : q.ctxs = p.ctxs
  scan : q.scan = p.scan
  cons : q.cons = p.cons
  claimQueue : q.claimQueue = p.claimQueue
  retire : q.retire = p.retire
  scrub : q.scrub = p.scrub

theorem Part.GrantOnly.of_fields {p : Part} (arb : Arbiter) (verify : Option Verify) (claims : List Claim) :
    Part.GrantOnly p { p with arb := arb, verify := verify, claims := claims } := by
  constructor <;> rfl

theorem Part.GrantOnly.refl (p : Part) : Part.GrantOnly p p := .of_fields _ _ _

theorem Part.GrantOnly.trans {p q r : Part} (h : Part.GrantOnly p q) (k : Part.GrantOnly q r) : Part.GrantOnly p r where
  power := k.power.trans h.power
  pins := k.pins.trans h.pins
  backup := k.backup.trans h.backup
  freeCount := k.freeCount.trans h.freeCount
  chan := k.chan.trans h.chan
  attention := k.attention.trans h.attention
  refusals := k.refusals.trans h.refusals
  mode := k.mode.trans h.mode
  store := k.store.trans h.store
  queue := k.queue.trans h.queue
  asm := k.asm.trans h.asm
  route := k.route.trans h.route
  clock := k.clock.trans h.clock
  ctxs := k.ctxs.trans h.ctxs
  scan := k.scan.trans h.scan
  cons := k.cons.trans h.cons
  claimQueue := k.claimQueue.trans h.claimQueue
  retire := k.retire.trans h.retire
  scrub := k.scrub.trans h.scrub

theorem Part.GrantOnly.ite {p q r : Part} {c : Prop} [Decidable c] (h : Part.GrantOnly p q) (k : Part.GrantOnly p r) :
    Part.GrantOnly p (if c then q else r) := by
  split
  · exact h
  · exact k

theorem Part.modClaim_grantOnly (i : Nat) (f : Claim → Claim) (p : Part) : Part.GrantOnly p (p.modClaim i f) :=
  .of_fields _ _ _

theorem Part.beginWrite_grantOnly (v : Verify) (proofs : List ProofFinding) (p : Part) :
    Part.GrantOnly p (p.beginWrite v proofs) := .of_fields _ _ _

theorem Part.notFound_grantOnly (v : Verify) (number : BitVec 16) (p : Part) :
    Part.GrantOnly p (p.notFound v number) :=
  (Part.modClaim_grantOnly _ _ p).trans (Part.beginWrite_grantOnly _ _ _)

theorem Part.walkTo_grantOnly (v : Verify) (number : BitVec 16) (p : Part) : Part.GrantOnly p (p.walkTo v number) := by
  unfold Part.walkTo
  split
  · exact .of_fields _ _ _
  · exact Part.notFound_grantOnly v number p

theorem Part.fixWalk_grantOnly (fuel : Nat) : ∀ p : Part, Part.GrantOnly p (Part.fixWalk fuel p) := by
  induction fuel with
  | zero => exact .refl
  | succ fuel ih =>
    intro p
    unfold Part.fixWalk
    split
    · exact .refl p
    · exact .ite (.refl p) (.ite ((Part.walkTo_grantOnly _ _ p).trans (ih _)) (.ite (.refl p)
        (.ite ((Part.walkTo_grantOnly _ _ p).trans (ih _)) (.of_fields _ _ _))))

theorem Part.arbitrate_grantOnly (p : Part) : Part.GrantOnly p p.arbitrate := by
  refine .ite ?_ (.refl p)
  split
  · exact .refl p
  · exact .of_fields _ _ _

theorem Part.fixGrant_grantOnly (p : Part) : Part.GrantOnly p p.fixGrant := by
  have walked := Part.fixWalk_grantOnly 600 p
  refine .ite ?_ (.refl p)
  simp only
  split
  · exact walked
  · split
    · split
      · exact walked.trans (.of_fields _ _ _)
      · exact walked
    · exact (walked.trans (.of_fields _ _ _)).trans (Part.arbitrate_grantOnly _)
    · exact walked

/-- A grant changes the arbiter and what a VERIFY fixes then, and nothing else (R46, R166, R171). -/
theorem Part.grantPort_grantOnly (p : Part) : Part.GrantOnly p p.grantPort := by
  refine .ite ?_ (.refl p)
  split
  · exact .refl p
  · exact (Part.GrantOnly.of_fields _ _ _).trans (Part.fixGrant_grantOnly _)
  · exact .of_fields _ _ _

end Sys2Proof.Machine

/-! # Proofs: the free pool holds exactly the BLANK segments, ascending

The pool's soundness is a statement about the shape of the store alone: each segment's state and stream, the pool and the open
segments. `Store.Sound` says it of a store and `Store.BatchSound` of a store and a batch; `Part.PoolKept` is what every
operation of the running part satisfies. -/

namespace Sys2Proof.Machine

/-! ## The stream table -/

@[simp] theorem Streams.get_set_same (t : Streams) (st : Stream) (e : StreamEntry) : (t.set st e).get st = e := by
  cases st <;> rfl

theorem Streams.get_set_ne {st other : Stream} (h : other ≠ st) (t : Streams) (e : StreamEntry) :
    (t.set st e).get other = t.get other := by
  unfold Streams.get
  cases other <;> cases st <;> simp [Streams.set] at h ⊢

/-! ## The shape of a store -/

/-- The state and the stream of segment `n`. -/
def Store.shape (x : Store) (n : Nat) : Option (SegState × Option Stream) :=
  if n = 0 then none else (x.segs[n - 1]?).map (fun e => (e.state, e.stream))

def Store.stateAt (x : Store) (n : Nat) : Option SegState := (x.shape n).map Prod.fst

theorem Part.shape_of_seg {p : Part} {n : Nat} {e : SegEntry} (h : p.seg n = some e) :
    p.store.shape n = some (e.state, e.stream) := by
  unfold Part.seg at h
  unfold Store.shape
  split at h
  · cases h
  · rename_i h0
    simp [h0, h]

theorem Part.seg_of_shape {p : Part} {n : Nat} {s : SegState} {st : Option Stream} (h : p.store.shape n = some (s, st)) :
    ∃ e, p.seg n = some e ∧ e.state = s ∧ e.stream = st := by
  unfold Store.shape at h
  unfold Part.seg
  split at h
  · cases h
  · rename_i h0
    simpa [h0] using h

theorem Store.stateAt_of_shape {x : Store} {n : Nat} {s : SegState} {st : Option Stream} (h : x.shape n = some (s, st)) :
    x.stateAt n = some s := by
  simp [Store.stateAt, h]

theorem Part.stateAt_iff {p : Part} {n : Nat} {s : SegState} :
    p.store.stateAt n = some s ↔ ∃ e, p.seg n = some e ∧ e.state = s := by
  constructor
  · intro h
    obtain ⟨⟨s', st⟩, hshape, rfl⟩ := Option.map_eq_some_iff.mp h
    obtain ⟨e, he, hs, -⟩ := Part.seg_of_shape hshape
    exact ⟨e, he, hs⟩
  · rintro ⟨e, he, rfl⟩
    exact Store.stateAt_of_shape (Part.shape_of_seg he)

/-! ## Soundness of the store -/

/-- The pool holds exactly the BLANK segments, ascending, and a stream's open segment is its own and OPEN (R15, R19). -/
structure Store.Sound (x : Store) : Prop where
  ascending : x.pool.Pairwise (· < ·)
  blank : ∀ n, n ∈ x.pool ↔ x.stateAt n = some .blank
  opened : ∀ st n, (x.streams.get st).openSeg = some n → x.shape n = some (.opened, some st)

/-- Segment `n` may stand in a batch that has not begun to blank it (R179). -/
def Store.Retirable (x : Store) (n : Nat) : Prop := ∃ s, x.stateAt n = some s ∧ s.retirable

/-- The segments of a batch that are not begun. -/
def Batch.later (b : Batch) : List Nat := b.segs.drop (b.completed + (if b.current.isSome then 1 else 0))

structure Store.BatchSound (x : Store) (b : Batch) : Prop where
  nodup : b.later.Nodup
  later : ∀ n ∈ b.later, x.Retirable n
  current : ∀ n, b.current = some n → n ∉ b.later ∧ x.stateAt n = some .retiring

theorem Part.batchSound_iff {p : Part} {b : Batch} : p.batchSound b ↔ p.store.BatchSound b := by
  have retirable (n : Nat) : p.store.Retirable n ↔ ∃ e, p.seg n = some e ∧ e.state.retirable := by
    simp only [Store.Retirable, Part.stateAt_iff]
    constructor
    · rintro ⟨_, ⟨e, he, rfl⟩, hs⟩
      exact ⟨e, he, hs⟩
    · rintro ⟨e, he, hs⟩
      exact ⟨_, ⟨e, he, rfl⟩, hs⟩
  constructor
  · rintro ⟨hn, hl, hc⟩
    exact ⟨hn, fun n hn => (retirable n).mpr (hl n hn), fun n hn => ⟨(hc n hn).1, Part.stateAt_iff.mpr (hc n hn).2⟩⟩
  · rintro ⟨hn, hl, hc⟩
    exact ⟨hn, fun n hn => (retirable n).mp (hl n hn), fun n hn => ⟨(hc n hn).1, Part.stateAt_iff.mp (hc n hn).2⟩⟩

theorem Part.mem_recordSegs {p : Part} {n : Nat} : n ∈ p.recordSegs ↔ ∃ e, p.seg n = some e := by
  unfold Part.recordSegs Part.seg
  cases n with
  | zero => simp
  | succ k => simp [List.getElem?_eq_some_iff]

/-- The numbers from 1 to `k`, ascending. -/
theorem pairwise_lt_range_succ (k : Nat) : ((List.range k).map (· + 1)).Pairwise (· < ·) :=
  List.pairwise_lt_range.map _ fun _ _ h => Nat.add_lt_add_right h 1

theorem Part.recordSegs_ascending (p : Part) : p.recordSegs.Pairwise (· < ·) := pairwise_lt_range_succ _

theorem Part.isBlank_iff {p : Part} {n : Nat} : p.isBlank n = true ↔ p.store.stateAt n = some .blank := by
  rw [Part.stateAt_iff]
  unfold Part.isBlank
  split
  · simp_all
  · simp_all

theorem Part.pool_eq_iff {p : Part} :
    p.store.pool = p.recordSegs.filter p.isBlank
      ↔ p.store.pool.Pairwise (· < ·) ∧ ∀ n, n ∈ p.store.pool ↔ p.store.stateAt n = some .blank := by
  have asc : (p.recordSegs.filter p.isBlank).Pairwise (· < ·) := p.recordSegs_ascending.filter _
  have mem (n : Nat) : n ∈ p.recordSegs.filter p.isBlank ↔ p.store.stateAt n = some .blank := by
    rw [List.mem_filter, Part.isBlank_iff, Part.mem_recordSegs, and_iff_right_of_imp]
    rw [Part.stateAt_iff]
    rintro ⟨e, he, -⟩
    exact ⟨e, he⟩
  constructor
  · intro h
    rw [h]
    exact ⟨asc, mem⟩
  · rintro ⟨hasc, hmem⟩
    exact hasc.eq_of_mem_iff asc fun {n} => (hmem n).trans (mem n).symm

theorem Part.poolSound_iff {p : Part} :
    p.poolSound ↔ p.store.Sound ∧ (∀ b, p.retire.batch = some b → p.store.BatchSound b)
      ∧ (p.retire.state = .empty ∨ p.retire.state = .formatRunning → p.retire.batch = none)
      ∧ (p.backup.mounting = true → p.retire.batch = none) := by
  have opened : (∀ st n, (p.stream st).openSeg = some n → ∃ e, p.seg n = some e ∧ e.state = .opened ∧ e.stream = some st)
      ↔ ∀ st n, (p.store.streams.get st).openSeg = some n → p.store.shape n = some (.opened, some st) := by
    refine forall_congr' fun st => forall_congr' fun n => imp_congr_right fun _ => ⟨?_, Part.seg_of_shape⟩
    rintro ⟨e, he, hs, hst⟩
    rw [Part.shape_of_seg he, hs, hst]
  unfold Part.poolSound
  rw [Part.pool_eq_iff, opened]
  simp only [Part.batchSound_iff]
  constructor
  · rintro ⟨⟨ha, hm⟩, ho, rest⟩
    exact ⟨⟨ha, hm, ho⟩, rest⟩
  · rintro ⟨⟨ha, hm, ho⟩, rest⟩
    exact ⟨⟨ha, hm⟩, ho, rest⟩

/-! ## Changes of the store that keep it sound -/

/-- A sound store stays sound, and what a batch may name stays what it may name. -/
def Store.Kept (x y : Store) : Prop :=
  x.Sound → y.Sound ∧ ∀ n, (x.Retirable n → y.Retirable n) ∧ (x.stateAt n = some .retiring → y.stateAt n = some .retiring)

theorem Store.Kept.refl (x : Store) : Store.Kept x x := fun h => ⟨h, fun _ => ⟨id, id⟩⟩

theorem Store.Kept.trans {x y z : Store} (h : Store.Kept x y) (k : Store.Kept y z) : Store.Kept x z := fun hx =>
  have ⟨hy, hxy⟩ := h hx
  have ⟨hz, hyz⟩ := k hy
  ⟨hz, fun n => ⟨(hyz n).1 ∘ (hxy n).1, (hyz n).2 ∘ (hxy n).2⟩⟩

theorem Store.BatchSound.kept {x y : Store} {b : Batch} (h : x.BatchSound b) (hx : x.Sound) (k : Store.Kept x y) :
    y.BatchSound b :=
  have hk := (k hx).2
  ⟨h.nodup, fun n hn => (hk n).1 (h.later n hn), fun n hn => ⟨(h.current n hn).1, (hk n).2 (h.current n hn).2⟩⟩

/-- Two stores with the same pool, shapes and open segments. -/
structure Store.SameShape (x y : Store) : Prop where
  pool : y.pool = x.pool
  shape : ∀ n, y.shape n = x.shape n
  openSeg : ∀ st, (y.streams.get st).openSeg = (x.streams.get st).openSeg

theorem Store.SameShape.refl (x : Store) : Store.SameShape x x := ⟨rfl, fun _ => rfl, fun _ => rfl⟩

theorem Store.SameShape.trans {x y z : Store} (h : Store.SameShape x y) (k : Store.SameShape y z) :
    Store.SameShape x z :=
  ⟨k.pool.trans h.pool, fun n => (k.shape n).trans (h.shape n), fun st => (k.openSeg st).trans (h.openSeg st)⟩

theorem Store.SameShape.kept {x y : Store} (h : Store.SameShape x y) : Store.Kept x y := by
  have state (n : Nat) : y.stateAt n = x.stateAt n := by simp [Store.stateAt, h.shape]
  intro hx
  refine ⟨⟨h.pool ▸ hx.ascending, fun n => ?_, fun st n hn => ?_⟩, fun n => ⟨fun ⟨s, hs, hr⟩ => ⟨s, ?_, hr⟩, fun hs => ?_⟩⟩
  · rw [h.pool, state, hx.blank]
  · rw [h.shape]
    exact hx.opened st n ((h.openSeg st).symm.trans hn)
  · rw [state, hs]
  · rw [state, hs]

/-- Segment `n` takes the state and stream `v`, and no other segment changes them. -/
structure Store.Reshaped (n : Nat) (v : SegState × Option Stream) (x y : Store) : Prop where
  self : y.shape n = some v
  other : ∀ k, k ≠ n → y.shape k = x.shape k

theorem Store.Reshaped.stateAt_other {n k : Nat} {v : SegState × Option Stream} {x y : Store}
    (h : Store.Reshaped n v x y) (hk : k ≠ n) : y.stateAt k = x.stateAt k := by
  simp [Store.stateAt, h.other k hk]

/-- A reshaped store is sound when the pool gains or loses the segment as it becomes or stops being BLANK, and every open
segment is the reshaped one, now OPEN, or another that was open before. -/
theorem Store.Reshaped.sound {n : Nat} {v : SegState × Option Stream} {x y : Store} (h : Store.Reshaped n v x y)
    (hx : x.Sound) (hasc : y.pool.Pairwise (· < ·)) (hself : n ∈ y.pool ↔ v.1 = .blank)
    (hother : ∀ k, k ≠ n → (k ∈ y.pool ↔ k ∈ x.pool))
    (hopen : ∀ st k, (y.streams.get st).openSeg = some k →
      (k = n ∧ v = (.opened, some st)) ∨ (k ≠ n ∧ (x.streams.get st).openSeg = some k)) : y.Sound where
  ascending := hasc
  blank k := by
    by_cases hk : k = n
    · subst hk
      rw [hself]
      simp [Store.stateAt, h.self]
    · rw [hother k hk, h.stateAt_other hk, hx.blank]
  opened st k hst := by
    obtain ⟨rfl, rfl⟩ | ⟨hk, hxk⟩ := hopen st k hst
    · exact h.self
    · rw [h.other k hk]
      exact hx.opened st k hxk

/-- What stands in the old and the new state of a reshaped segment decides what a batch may still name. -/
theorem Store.Reshaped.names {n : Nat} {v : SegState × Option Stream} {x y : Store} (h : Store.Reshaped n v x y)
    (hr : x.Retirable n → v.1.retirable) (hg : x.stateAt n = some .retiring → v.1 = .retiring) (k : Nat) :
    (x.Retirable k → y.Retirable k) ∧ (x.stateAt k = some .retiring → y.stateAt k = some .retiring) := by
  have self : y.stateAt n = some v.1 := by simp [Store.stateAt, h.self]
  by_cases hk : k = n
  · subst hk
    exact ⟨fun hx => ⟨v.1, self, hr hx⟩, fun hx => by rw [self, hg hx]⟩
  · unfold Store.Retirable
    rw [h.stateAt_other hk]
    exact ⟨id, id⟩

/-! ## The table updates -/

theorem Part.shape_modSeg (n k : Nat) (f : SegEntry → SegEntry) (p : Part) :
    (p.modSeg n f).store.shape k
      = if k = n then (p.seg n).map (fun e => ((f e).state, (f e).stream)) else p.store.shape k := by
  unfold Part.modSeg Store.shape Part.seg
  by_cases hn : n = 0
  · by_cases hk : k = n <;> simp [hn, hk]
    omega
  · by_cases hk : k = n
    · subst hk
      simp [hn]
      rfl
    · by_cases hk0 : k = 0
      · subst hk0
        simp [Ne.symm hn]
      · have : n - 1 ≠ k - 1 := by omega
        simp [hn, hk, hk0, this]

theorem Part.modSeg_sameShape {n : Nat} {f : SegEntry → SegEntry} (p : Part)
    (hf : ∀ e, (f e).state = e.state ∧ (f e).stream = e.stream := by exact fun _ => ⟨rfl, rfl⟩) :
    Store.SameShape p.store (p.modSeg n f).store := by
  refine ⟨?_, fun k => ?_, fun st => ?_⟩
  · unfold Part.modSeg; split <;> rfl
  · rw [Part.shape_modSeg]
    split
    · rename_i hk
      subst hk
      simp only [hf]
      unfold Part.seg Store.shape
      split <;> rfl
    · rfl
  · unfold Part.modSeg; split <;> rfl

theorem Part.modStream_sameShape {st : Stream} {f : StreamEntry → StreamEntry} (p : Part)
    (hf : ∀ e, (f e).openSeg = e.openSeg := by exact fun _ => rfl) : Store.SameShape p.store (p.modStream st f).store := by
  refine ⟨rfl, fun _ => rfl, fun other => ?_⟩
  simp only [Part.modStream_store]
  by_cases h : other = st
  · subst h
    rw [Streams.get_set_same, hf]
  · rw [Streams.get_set_ne h]

theorem Part.modSeg_reshaped {p : Part} {n : Nat} {f : SegEntry → SegEntry} {e : SegEntry} (he : p.seg n = some e) :
    Store.Reshaped n ((f e).state, (f e).stream) p.store (p.modSeg n f).store :=
  ⟨by simp [Part.shape_modSeg, he], fun k hk => by simp [Part.shape_modSeg, hk]⟩

@[simp] theorem Part.modSeg_pool (n : Nat) (f : SegEntry → SegEntry) (p : Part) :
    (p.modSeg n f).store.pool = p.store.pool := by
  unfold Part.modSeg; split <;> rfl

@[simp] theorem Part.modSeg_streams (n : Nat) (f : SegEntry → SegEntry) (p : Part) :
    (p.modSeg n f).store.streams = p.store.streams := by
  unfold Part.modSeg; split <;> rfl

end Sys2Proof.Machine

/-! # Proofs: what the record store manager and the record assembler do to the pool -/

namespace Sys2Proof.Machine

/-- With no mount in progress, a part with a sound pool is left with one. -/
structure Part.PoolKept (p q : Part) : Prop where
  mounting : q.backup.mounting = p.backup.mounting
  sound : p.backup.mounting = false → p.poolSound → q.poolSound

theorem Part.PoolKept.trans {p q r : Part} (h : Part.PoolKept p q) (k : Part.PoolKept q r) : Part.PoolKept p r :=
  ⟨k.mounting.trans h.mounting, fun hm hp => k.sound (h.mounting.trans hm) (h.sound hm hp)⟩

theorem Part.PoolKept.of_store {p q : Part} (h : Store.Kept p.store q.store) (hr : q.retire = p.retire)
    (hm : q.backup.mounting = p.backup.mounting) : Part.PoolKept p q := by
  refine ⟨hm, fun _ hp => ?_⟩
  obtain ⟨hs, hb, he, hmount⟩ := Part.poolSound_iff.mp hp
  rw [Part.poolSound_iff, hr, hm]
  exact ⟨(h hs).1, fun b hbatch => (hb b hbatch).kept hs h, he, hmount⟩

theorem Part.PoolKept.of_eq {p q : Part} (hs : q.store = p.store) (hr : q.retire = p.retire)
    (hm : q.backup.mounting = p.backup.mounting) : Part.PoolKept p q :=
  .of_store (hs ▸ Store.Kept.refl p.store) hr hm

theorem Part.PoolKept.refl (p : Part) : Part.PoolKept p p := .of_eq rfl rfl rfl

theorem Part.PoolKept.ite {p q r : Part} {c : Prop} [Decidable c] (h : Part.PoolKept p q) (k : Part.PoolKept p r) :
    Part.PoolKept p (if c then q else r) := by
  split
  · exact h
  · exact k

theorem Part.PoolKept.foldl {α : Type} {f : Part → α → Part} (hf : ∀ p a, Part.PoolKept p (f p a)) (l : List α) :
    ∀ p, Part.PoolKept p (l.foldl f p) := by
  induction l with
  | nil => exact .refl
  | cons a l ih => exact fun p => (hf p a).trans (ih _)

theorem Part.EvidenceOnly.poolKept {p q : Part} (h : Part.EvidenceOnly p q) : Part.PoolKept p q :=
  .of_eq h.store h.retire (by rw [h.backup])

theorem Part.GrantOnly.poolKept {p q : Part} (h : Part.GrantOnly p q) : Part.PoolKept p q :=
  .of_eq h.store h.retire (by rw [h.backup])

theorem Part.StoreOnly.poolKept {p q : Part} (h : Part.StoreOnly p q) (k : Store.Kept p.store q.store) :
    Part.PoolKept p q :=
  .of_store k h.retire (by rw [h.backup])

/-! ## The segment and stream tables -/

theorem Part.modSeg_poolKept {n : Nat} {f : SegEntry → SegEntry} (p : Part)
    (hf : ∀ e, (f e).state = e.state ∧ (f e).stream = e.stream := by exact fun _ => ⟨rfl, rfl⟩) :
    Part.PoolKept p (p.modSeg n f) :=
  (Part.modSeg_storeOnly n f p).poolKept (Part.modSeg_sameShape p hf).kept

theorem Part.modStream_poolKept {st : Stream} {f : StreamEntry → StreamEntry} (p : Part)
    (hf : ∀ e, (f e).openSeg = e.openSeg := by exact fun _ => rfl) : Part.PoolKept p (p.modStream st f) :=
  (Part.modStream_storeOnly st f p).poolKept (Part.modStream_sameShape p hf).kept

theorem Part.pushDirect_poolKept (e : DirectEntry) (p : Part) : Part.PoolKept p (p.pushDirect e) :=
  (Part.pushDirect_storeOnly e p).poolKept (Store.SameShape.kept ⟨rfl, fun _ => rfl, fun _ => rfl⟩)

/-- A segment that is not BLANK before or after, and is no stream's open segment after, changes its state. -/
theorem Store.Reshaped.sound_of_nonblank {n : Nat} {v : SegState × Option Stream} {x y : Store}
    (h : Store.Reshaped n v x y) (hx : x.Sound) (hpool : y.pool = x.pool) (hn : x.stateAt n ≠ some .blank)
    (hv : v.1 ≠ .blank)
    (hopen : ∀ st k, (y.streams.get st).openSeg = some k → k ≠ n ∧ (x.streams.get st).openSeg = some k) : y.Sound := by
  refine h.sound hx (hpool ▸ hx.ascending) ?_ (fun _ _ => by rw [hpool]) (fun st k hk => .inr (hopen st k hk))
  rw [hpool, hx.blank]
  exact ⟨fun hb => absurd hb hn, fun hb => absurd hb hv⟩

/-- An OPEN segment is neither in the pool nor named by a batch. -/
theorem Store.stateAt_opened {x : Store} {n : Nat} {st : Option Stream} (h : x.shape n = some (.opened, st)) :
    x.stateAt n ≠ some .blank ∧ ¬ x.Retirable n ∧ x.stateAt n ≠ some .retiring := by
  have hs := Store.stateAt_of_shape h
  refine ⟨by simp [hs], ?_, by simp [hs]⟩
  rintro ⟨s, hs', hr⟩
  obtain rfl : SegState.opened = s := by simpa [hs] using hs'
  simp [SegState.retirable] at hr

/-- What opening a segment does to the store (R21): the first of the pool is taken. -/
theorem Part.openSegment_store {p : Part} {n : Nat} {rest : List Nat} (st : Stream) (h : p.store.pool = n :: rest) :
    (p.openSegment st).store.pool = rest
      ∧ (∀ e, p.seg n = some e → Store.Reshaped n (.opened, some st) p.store (p.openSegment st).store)
      ∧ ((p.openSegment st).store.streams.get st).openSeg = some n
      ∧ ∀ other, other ≠ st → (p.openSegment st).store.streams.get other = p.store.streams.get other := by
  obtain ⟨q, hq, hpool, hsegs, hstreams⟩ : ∃ q : Part, p.openSegment st = q.openTaken st n ∧ q.store.pool = rest
      ∧ q.store.segs = p.store.segs ∧ q.store.streams = p.store.streams := by
    unfold Part.openSegment
    rw [h]
    refine ⟨_, rfl, ?_⟩
    unfold Part.raiseStoreLow
    split <;> exact ⟨rfl, rfl, rfl⟩
  have shape (k : Nat) : q.store.shape k = p.store.shape k := by unfold Store.shape; rw [hsegs]
  rw [hq]
  refine ⟨?_, fun e he => ?_, ?_, fun other ho => ?_⟩
  · simpa [Part.openTaken] using hpool
  · have heq : q.seg n = some e := by unfold Part.seg at he ⊢; rw [hsegs]; exact he
    have hr := Part.modSeg_reshaped (f := fun _ =>
      { state := .opened, stream := some st, segSeq := some (q.stream st).nextSeq, openTime := some q.clock.now,
        closeTime := none, firstRec := some (q.stream st).nextRec, count := some 0,
        entryChain := some (q.stream st).running, exitChain := none, holds := 0, owed := .none }) heq
    exact ⟨hr.self, fun k hk => (hr.other k hk).trans (shape k)⟩
  · simp [Part.openTaken]
  · simp [Part.openTaken, Streams.get_set_ne ho, hstreams]

theorem Part.openSegment_kept (st : Stream) (p : Part) : Store.Kept p.store (p.openSegment st).store := by
  cases hpool : p.store.pool with
  | nil =>
    have : p.openSegment st = p := by simp [Part.openSegment, hpool]
    rw [this]
    exact .refl _
  | cons n rest =>
    intro hx
    obtain ⟨hrest, hshape, hsame, hother⟩ := Part.openSegment_store st hpool
    have hblank : p.store.stateAt n = some .blank := (hx.blank n).mp (by simp [hpool])
    obtain ⟨e, he, -⟩ := Part.stateAt_iff.mp hblank
    have hasc := hx.ascending
    rw [hpool, List.pairwise_cons] at hasc
    refine ⟨(hshape e he).sound hx (hrest ▸ hasc.2) ?_ (fun k hk => by simp [hrest, hpool, hk]) ?_,
      (hshape e he).names ?_ ?_⟩
    · rw [hrest]
      exact ⟨fun hmem => absurd (hasc.1 n hmem) (Nat.lt_irrefl n), fun hs => by cases hs⟩
    · intro other k hk
      by_cases ho : other = st
      · subst ho
        rw [hsame] at hk
        cases hk
        exact .inl ⟨rfl, rfl⟩
      · rw [hother other ho] at hk
        refine .inr ⟨?_, hk⟩
        rintro rfl
        exact (Store.stateAt_opened (hx.opened other _ hk)).1 hblank
    · rintro ⟨s, hs, hr⟩
      obtain rfl : SegState.blank = s := by simpa [hblank] using hs
      simp [SegState.retirable] at hr
    · intro hs
      simp [hblank] at hs

theorem Part.needSegment_kept (st : Stream) (p : Part) : Store.Kept p.store (p.needSegment st).store := by
  unfold Part.needSegment
  split
  · exact .refl _
  · split
    · exact Part.openSegment_kept st p
    · exact (Part.modStream_sameShape (st := st) (f := fun e => { e with stalled := true }) p).kept

/-- Closing a stream's open segment, which no other stream and no batch names. -/
theorem Part.closeSegment_kept {st : Stream} {n : Nat} {p : Part} (h : (p.stream st).openSeg = some n) :
    Store.Kept p.store (p.closeSegment st n).store := by
  intro hx
  have hshape := hx.opened st n h
  obtain ⟨hblank, hretirable, hretiring⟩ := Store.stateAt_opened hshape
  obtain ⟨e, he, -, hst⟩ := Part.seg_of_shape hshape
  have hr := Part.modSeg_reshaped (f := fun e =>
    { e with state := .closed, closeTime := some p.clock.now, exitChain := some (p.stream st).running, owed := .closed }) he
  have hr' : Store.Reshaped n (.closed, e.stream) p.store (p.closeSegment st n).store := ⟨hr.self, hr.other⟩
  refine ⟨hr'.sound_of_nonblank hx ?_ hblank (by simp) ?_,
    hr'.names (fun hx => absurd hx hretirable) (fun hx => absurd hx hretiring)⟩
  · simp [Part.closeSegment]
  · intro other k hk
    simp only [Part.closeSegment, Part.modStream_store, Part.modSeg_streams] at hk
    by_cases ho : other = st
    · subst ho
      simp at hk
    · rw [Streams.get_set_ne ho] at hk
      refine ⟨?_, hk⟩
      rintro rfl
      have := (hx.opened other k hk).symm.trans hshape
      simp_all

theorem Part.slotConsumed_kept (st : Stream) (n s : Nat) (needs : Bool) (p : Part) :
    Store.Kept p.store (p.slotConsumed st n s needs).store := by
  unfold Part.slotConsumed
  split
  · rename_i hopen
    split
    · have closed := Part.closeSegment_kept hopen
      simp only
      split
      · exact closed.trans (Part.needSegment_kept st _)
      · exact closed
    · exact (Part.modStream_sameShape p).kept
  · exact (Part.modSeg_sameShape p).kept

theorem Part.advanceStream_sameShape (st : Stream) (n : Nat) (chain : DWord) (p : Part) :
    Store.SameShape p.store (p.advanceStream st n chain).store :=
  (Part.modStream_sameShape p).trans (Part.modSeg_sameShape _)

theorem Part.faultSegment_kept (n : Nat) (p : Part) : Store.Kept p.store (p.faultSegment n).store := by
  unfold Part.faultSegment
  split
  · exact .refl _
  · rename_i e he
    have hshape := Part.shape_of_seg he
    split
    · rename_i st hstate hst
      rw [hstate, hst] at hshape
      intro hx
      obtain ⟨hblank, hretirable, hretiring⟩ := Store.stateAt_opened hshape
      refine ⟨Store.Reshaped.sound_of_nonblank (v := (.faulted, e.stream)) ⟨(Part.modSeg_reshaped he).self,
        (Part.modSeg_reshaped he).other⟩ hx (by simp) hblank (by simp) ?_, Store.Reshaped.names (v := (.faulted, e.stream))
        ⟨(Part.modSeg_reshaped he).self, (Part.modSeg_reshaped he).other⟩ (fun hx => absurd hx hretirable)
        (fun hx => absurd hx hretiring)⟩
      intro other k hk
      simp only [Part.modStream_store, Part.modSeg_streams] at hk
      by_cases ho : other = st
      · subst ho
        simp at hk
      · rw [Streams.get_set_ne ho] at hk
        refine ⟨?_, hk⟩
        rintro rfl
        have := (hx.opened other k hk).symm.trans hshape
        simp_all
    · rename_i hstate
      rw [hstate] at hshape
      have hs := Store.stateAt_of_shape hshape
      intro hx
      refine ⟨(Part.modSeg_reshaped he).sound_of_nonblank hx (by simp) (by simp [hs]) (by simp) ?_,
        (Part.modSeg_reshaped he).names (fun _ => .inr (.inl rfl)) (fun hg => by simp [hs] at hg)⟩
      intro other k hk
      simp only [Part.modSeg_streams] at hk
      refine ⟨?_, hk⟩
      rintro rfl
      have := (hx.opened other k hk).symm.trans hshape
      simp_all
    · exact .refl _

theorem Part.serveStalled_kept (p : Part) : Store.Kept p.store p.serveStalled.store := by
  have serve (st : Stream) (p : Part) :
      Store.Kept p.store (if (p.stream st).stalled && p.mayTake st then p.openSegment st else p).store := by
    split
    · exact Part.openSegment_kept st p
    · exact .refl _
  exact (((serve .event p).trans (serve .delivery _)).trans (serve .sample _)).trans (serve .claim _)

theorem Part.openSegment_poolKept (st : Stream) (p : Part) : Part.PoolKept p (p.openSegment st) :=
  (Part.openSegment_storeOnly st p).poolKept (Part.openSegment_kept st p)

theorem Part.needSegment_poolKept (st : Stream) (p : Part) : Part.PoolKept p (p.needSegment st) :=
  (Part.needSegment_storeOnly st p).poolKept (Part.needSegment_kept st p)

theorem Part.closeSegment_poolKept {st : Stream} {n : Nat} {p : Part} (h : (p.stream st).openSeg = some n) :
    Part.PoolKept p (p.closeSegment st n) :=
  (Part.closeSegment_storeOnly st n p).poolKept (Part.closeSegment_kept h)

theorem Part.slotConsumed_poolKept (st : Stream) (n s : Nat) (needs : Bool) (p : Part) :
    Part.PoolKept p (p.slotConsumed st n s needs) :=
  (Part.slotConsumed_storeOnly st n s needs p).poolKept (Part.slotConsumed_kept st n s needs p)

theorem Part.advanceStream_poolKept (st : Stream) (n : Nat) (chain : DWord) (p : Part) :
    Part.PoolKept p (p.advanceStream st n chain) :=
  (Part.advanceStream_storeOnly st n chain p).poolKept (Part.advanceStream_sameShape st n chain p).kept

/-! ## The command channel -/

theorem Part.endRunning_poolKept (st : CmdState) (o : CmdOutcome) (rs : List Word) (p : Part) :
    Part.PoolKept p (p.endRunning st o rs) := by
  unfold Part.endRunning
  split
  · exact .refl p
  · exact .ite (.of_eq rfl rfl rfl) (.of_eq rfl rfl rfl)

theorem Part.conclude_poolKept (st : CmdState) (o : CmdOutcome) (rs : List Word) (p : Part) :
    Part.PoolKept p (p.conclude st o rs) := .of_eq rfl rfl rfl

/-! ## The end of an assembly -/

theorem Part.decideWhere_poolKept {finish : CmdState → CmdOutcome → List Word → Part → Part}
    (hf : ∀ st o rs p, Part.PoolKept p (finish st o rs p)) (st : Stream) (p : Part) :
    Part.PoolKept p (p.decideWhere st finish) := by
  have found : Part.PoolKept p (if (p.stream st).openSeg.isSome then p else p.needSegment st) :=
    .ite (.refl p) (Part.needSegment_poolKept st p)
  exact .ite (hf _ _ _ p) (.ite (found.trans (hf _ _ _ _)) (found.trans (hf _ _ _ _)))

theorem Part.finishClose_poolKept (st : Stream) (p : Part) : Part.PoolKept p (p.finishClose st) := by
  refine .ite ?_ (.refl p)
  simp only
  split
  · exact (Part.closeSegment_poolKept ‹_›).trans (.of_eq rfl rfl rfl)
  · exact .of_eq rfl rfl rfl

theorem Part.afterAssembly_poolKept (st : Stream) (p : Part) : Part.PoolKept p (p.afterAssembly st) :=
  (Part.finishClose_poolKept st p).trans
    (.ite (Part.decideWhere_poolKept Part.endRunning_poolKept st _) (.refl _))

theorem Part.voidAssembly_poolKept (t : Nat) (direct : Bool) (p : Part) : Part.PoolKept p (p.voidAssembly t direct) := by
  unfold Part.voidAssembly
  split
  · exact .refl p
  · rename_i a _
    have noted : Part.PoolKept p (Part.noteReceipt t { p with asm := none }) := .of_eq rfl rfl rfl
    have advanced := noted.trans
      (Part.advanceStream_poolKept a.stream a.seg (recordChainField (a.voidWords t (p.stream a.stream).running)) _)
    exact (((PoolKept.ite (advanced.trans (Part.pushDirect_poolKept _ _)) advanced).trans
      (Part.slotConsumed_poolKept _ _ _ _ _)).trans (Part.raise_only _ _).poolKept).trans
      (Part.afterAssembly_poolKept _ _)

theorem Part.placeAnswer_poolKept (ans : Answer) (t n s : Nat) (p : Part) :
    Part.PoolKept p (p.placeAnswer ans t n s) :=
  (((Part.advanceStream_poolKept _ _ _ p).trans (Part.modStream_poolKept _)).trans
    (Part.pushDirect_poolKept _ _)).trans (Part.slotConsumed_poolKept _ _ _ _ _)

theorem Part.commitAnswer_poolKept (ans : Answer) (t n s : Nat) (p : Part) :
    Part.PoolKept p (p.commitAnswer ans t n s) := by
  have opened := (Part.slotConsumed_poolKept .delivery n s false p).trans (Part.openSegment_poolKept .delivery _)
  refine .ite (Part.placeAnswer_poolKept _ _ _ _ p) ?_
  simp only
  split
  · exact opened.trans (Part.placeAnswer_poolKept _ _ _ _ _)
  · exact opened

theorem Part.commitRecord_poolKept (p : Part) : Part.PoolKept p p.commitRecord := by
  unfold Part.commitRecord
  split
  · exact .refl p
  · rename_i a _
    have dropped : Part.PoolKept p { p with asm := none } := .of_eq rfl rfl rfl
    refine .ite ((((dropped.trans (Part.advanceStream_poolKept _ _ _ _)).trans
      (Part.slotConsumed_poolKept _ _ _ _ _)).trans (Part.consumeSample_only _ _ _).poolKept).trans
      (Part.afterAssembly_poolKept _ _)) ?_
    have advanced := (dropped.trans (Part.answerRequest_only a.kind a.words (a.receipt.getD p.clock.now) _).poolKept).trans
      (Part.advanceStream_poolKept a.stream a.seg (a.chain.getD 0) _)
    exact ((advanced.trans (PoolKept.ite (Part.slotConsumed_poolKept _ _ _ _ _) (.refl _))).trans
      (Part.commitAnswer_poolKept _ _ _ _ _)).trans (Part.afterAssembly_poolKept _ _)

end Sys2Proof.Machine

/-! # Proofs: what the long operations, the commands and the upstream port do to the pool -/

namespace Sys2Proof.Machine

/-! ## The retire slot -/

/-- A change of the retire slot's state and format that keeps its batch. -/
theorem Part.PoolKept.of_retire {p q : Part} (hs : q.store = p.store) (hb : q.retire.batch = p.retire.batch)
    (hstate : q.retire.state = .empty ∨ q.retire.state = .formatRunning →
      p.retire.state = .empty ∨ p.retire.state = .formatRunning)
    (hm : q.backup.mounting = p.backup.mounting) : Part.PoolKept p q := by
  refine ⟨hm, fun _ hp => ?_⟩
  obtain ⟨hsound, hbatch, he, hmount⟩ := Part.poolSound_iff.mp hp
  rw [Part.poolSound_iff, hs, hb, hm]
  exact ⟨hsound, hbatch, he ∘ hstate, hmount⟩

/-- A sound store with no batch. -/
theorem Part.poolSound_of_noBatch {p : Part} (hs : p.store.Sound) (hb : p.retire.batch = none) : p.poolSound :=
  Part.poolSound_iff.mpr ⟨hs, by simp [hb], fun _ => hb, fun _ => hb⟩

theorem Part.poolSound_store {p : Part} (h : p.poolSound) : p.store.Sound := (Part.poolSound_iff.mp h).1

/-- The batch is given up. -/
theorem Part.PoolKept.of_noBatch {p q : Part} (hs : Store.Kept p.store q.store) (hb : q.retire.batch = none)
    (hm : q.backup.mounting = p.backup.mounting) : Part.PoolKept p q :=
  ⟨hm, fun _ hp => Part.poolSound_of_noBatch (hs (Part.poolSound_store hp)).1 hb⟩

/-- The batch is replaced by one that the store admits. -/
theorem Part.PoolKept.of_batch {p q : Part} {c : Batch} (hs : q.store = p.store) (hc : q.retire.batch = some c)
    (hstate : q.retire.state ≠ .empty ∧ q.retire.state ≠ .formatRunning)
    (hm : q.backup.mounting = p.backup.mounting)
    (hsound : p.poolSound → p.store.BatchSound c) : Part.PoolKept p q := by
  refine ⟨hm, fun hno hp => Part.poolSound_iff.mpr ?_⟩
  rw [hs, hc, hm, hno]
  refine ⟨Part.poolSound_store hp, fun b hb => ?_, fun h => ?_, by simp⟩
  · cases hb
    exact hsound hp
  · exact absurd h (not_or.mpr hstate)

/-- With a batch in the slot, its state is neither EMPTY nor FORMAT running. -/
theorem Part.poolSound_state {p : Part} {b : Batch} (h : p.poolSound) (hb : p.retire.batch = some b) :
    p.retire.state ≠ .empty ∧ p.retire.state ≠ .formatRunning := by
  obtain ⟨-, -, he, -⟩ := Part.poolSound_iff.mp h
  exact ⟨fun hs => by simp [he (.inl hs)] at hb, fun hs => by simp [he (.inr hs)] at hb⟩

/-! ## A slot has changed -/

theorem Part.beginWaiting_poolKept (p : Part) : Part.PoolKept p p.beginWaiting :=
  .ite (.of_retire rfl rfl (by simp) rfl) (.refl p)

theorem Part.startVerify_poolKept (p : Part) : Part.PoolKept p p.startVerify := by
  unfold Part.startVerify
  split
  · exact .ite (.of_eq rfl rfl rfl) (.refl p)
  · exact .refl p

theorem Part.scrubTurn_poolKept (ended : Bool) (p : Part) : Part.PoolKept p (p.scrubTurn ended) := by
  rw [Part.scrubTurn_eq]
  exact .of_eq rfl rfl rfl

theorem Part.slotsChanged_poolKept (ended : Bool) (p : Part) : Part.PoolKept p (p.slotsChanged ended) :=
  ((Part.beginWaiting_poolKept p).trans (Part.startVerify_poolKept _)).trans (Part.scrubTurn_poolKept _ _)

theorem Part.discardCollecting_poolKept (p : Part) : Part.PoolKept p p.discardCollecting :=
  .ite (.of_noBatch (.refl _) rfl rfl) (.refl p)

theorem Part.leaveService_poolKept (p : Part) : Part.PoolKept p p.leaveService :=
  have left : Part.PoolKept p { p with mode := .guarded } := .of_eq rfl rfl rfl
  (left.trans (Part.discardCollecting_poolKept _)).trans (Part.slotsChanged_poolKept _ _)

/-! ## The claim verifier -/

theorem Part.evidenceFault_only (n : Nat) (p : Part) : Part.EvidenceOnly p (p.evidenceFault n) := by
  unfold Part.evidenceFault
  split
  · exact .refl p
  · exact .ite (Part.mapLoaded_only _ _ p) (.refl p)

theorem Part.checkFault_poolKept (n s : Nat) (seq : Option DWord) (cause claim : Word) (p : Part) :
    Part.PoolKept p (p.checkFault n s seq cause claim) := by
  unfold Part.checkFault
  split
  · exact .refl p
  · have faulted := (Part.faultSegment_storeOnly n p).poolKept (Part.faultSegment_kept n p)
    have reported (body : List Word) := ((Part.addFault_only body (p.faultSegment n)).trans
      (Part.raise_only causeEvidenceFault _)).trans (Part.evidenceFault_only n _)
    exact .ite ((faulted.trans (reported _).poolKept).trans (.of_eq rfl rfl rfl)) (.refl p)

theorem Part.emptyVerify_poolKept (p : Part) : Part.PoolKept p p.emptyVerify :=
  have vacated : Part.PoolKept p p.vacateVerify := .of_eq rfl rfl rfl
  vacated.trans (Part.slotsChanged_poolKept _ _)

theorem Part.completeVerify_poolKept (i : Nat) (p : Part) : Part.PoolKept p (p.completeVerify i) :=
  ((Part.modClaim_grantOnly _ _ p).poolKept.trans (Part.raise_only _ _).poolKept).trans (Part.emptyVerify_poolKept _)

theorem Part.freeClaim_poolKept (i : Nat) (p : Part) : Part.PoolKept p (p.freeClaim i) :=
  (PoolKept.foldl (fun p n => Part.modSeg_poolKept (n := n) (f := fun e => { e with holds := e.holds - 1 }) p) _ p).trans (Part.modClaim_grantOnly _ _ _).poolKept

theorem Part.closeVerify_poolKept (i : Nat) (p : Part) : Part.PoolKept p (p.closeVerify i) := by
  unfold Part.closeVerify
  exact (Part.freeClaim_poolKept i p).trans (Part.emptyVerify_poolKept _)

theorem Part.abortClaim_poolKept (v : Verify) (p : Part) : Part.PoolKept p (p.abortClaim v) :=
  (Part.modClaim_grantOnly _ _ p).poolKept.trans (Part.raise_only _ _).poolKept

theorem Part.abortVerify_poolKept (p : Part) : Part.PoolKept p p.abortVerify := by
  unfold Part.abortVerify
  split
  · exact .refl p
  · exact (Part.abortClaim_poolKept _ p).trans (Part.emptyVerify_poolKept _)

theorem Part.extractStep_poolKept (p : Part) : Part.PoolKept p p.extractStep := by
  unfold Part.extractStep
  split
  · exact .refl p
  · rename_i v _
    refine .ite ?_ (.refl p)
    unfold Part.addExtract
    split
    · exact Part.completeVerify_poolKept _ p
    · rename_i k body rest _
      have next : Part.PoolKept p { p with verify := some { v with extracts := rest, count := v.count + 1 } } :=
        .of_eq rfl rfl rfl
      have added := next.trans (Part.addRecord_only .claim k body _).poolKept
      exact .ite (added.trans (Part.completeVerify_poolKept _ _)) added

theorem Part.collectNext_grantOnly (v : Verify) (p : Part) : Part.GrantOnly p (p.collectNext v) := by
  unfold Part.collectNext
  split
  · exact (Part.modClaim_grantOnly _ _ p).trans (Part.beginWrite_grantOnly _ _ _)
  · exact .of_fields _ _ _

theorem Part.beginCollect_grantOnly (v : Verify) (p : Part) : Part.GrantOnly p (p.beginCollect v) :=
  Part.collectNext_grantOnly _ p

theorem Part.checkEnded_grantOnly (v : Verify) (last : Nat) (p : Part) : Part.GrantOnly p (p.checkEnded v last) := by
  unfold Part.checkEnded Part.checkNext
  split
  · exact Part.beginCollect_grantOnly _ p
  · exact .of_fields _ _ _

theorem Part.passCheck_grantOnly (p : Part) : Part.GrantOnly p p.passCheck := by
  unfold Part.passCheck
  split
  · exact .refl p
  · exact .ite (Part.beginCollect_grantOnly _ p) (.refl p)

theorem Part.collectSlot_grantOnly (v : Verify) (ws : List Word) (p : Part) : Part.GrantOnly p (p.collectSlot v ws) := by
  unfold Part.collectSlot
  split
  · exact (Part.modClaim_grantOnly _ _ p).trans (Part.beginWrite_grantOnly _ _ _)
  · exact Part.collectNext_grantOnly _ p

theorem Part.checkSlot_poolKept (v : Verify) (ws : List Word) (p : Part) : Part.PoolKept p (p.checkSlot v ws) := by
  unfold Part.checkSlot
  split
  · exact (Part.checkEnded_grantOnly _ _ p).poolKept
  · split
    · exact .of_eq rfl rfl rfl
    · exact (Part.checkEnded_grantOnly _ _ p).poolKept
    · exact ((Part.modClaim_grantOnly _ _ p).poolKept.trans (Part.checkFault_poolKept _ _ _ _ _ _)).trans
        (Part.checkEnded_grantOnly _ _ _).poolKept

/-! ### A hold takes a segment out of a COLLECTING batch -/

/-- What stands after the first `k` of the entries kept stands after the first `k` of all. -/
theorem List.drop_filter_sublist {α : Type} (f : α → Bool) (l : List α) :
    ∀ k, ((l.filter f).drop k).Sublist (l.drop k) := by
  induction l with
  | nil => intro k; simp
  | cons a l ih =>
    intro k
    cases k with
    | zero => simp
    | succ k =>
      rw [List.drop_succ_cons]
      by_cases ha : f a
      · rw [List.filter_cons_of_pos ha, List.drop_succ_cons]
        exact ih k
      · rw [List.filter_cons_of_neg ha]
        exact (List.drop_sublist_drop_left _ (Nat.le_succ k)).trans (ih k)

theorem Part.unbatch_poolKept (n : Nat) (p : Part) : Part.PoolKept p (p.unbatch n) := by
  unfold Part.unbatch
  split
  · rename_i b hstate hb
    refine .ite (.of_noBatch (.refl _) rfl rfl) (.of_batch rfl rfl ⟨?_, ?_⟩ rfl fun hp => ?_)
    · simp [hstate]
    · simp [hstate]
    · have hsound := (Part.poolSound_iff.mp hp).2.1 b hb
      have hsub := List.drop_filter_sublist (fun m => m != n) b.segs (b.completed + (if b.current.isSome then 1 else 0))
      exact ⟨hsound.nodup.sublist hsub, fun m hm => hsound.later m (hsub.subset hm),
        fun m hm => ⟨fun hl => (hsound.current m hm).1 (hsub.subset hl), (hsound.current m hm).2⟩⟩
  · exact .refl p

theorem Part.considerHold_poolKept (i lo hi : Nat) (p : Part) (n : Nat) :
    Part.PoolKept p (p.considerHold i lo hi n) := by
  unfold Part.considerHold
  split
  · exact .refl p
  · have flagged (f : Claim → Claim) := (Part.modClaim_grantOnly i f p).poolKept
    exact .ite (.refl p) (.ite (flagged _) (.ite (.refl p) (.ite (flagged _) (.ite (flagged _)
      (((Part.modSeg_poolKept p).trans (Part.unbatch_poolKept n _)).trans (Part.modClaim_grantOnly _ _ _).poolKept)))))

theorem Part.holdPhase_poolKept (v : Verify) (p : Part) : Part.PoolKept p (p.holdPhase v) := by
  have held := PoolKept.foldl (Part.considerHold_poolKept v.claim ((p.claim v.claim).windowStart.getD 0)
    ((p.claim v.claim).windowEnd.getD 0)) p.recordSegs p
  exact (held.trans (PoolKept.ite (.refl _) (Part.modClaim_grantOnly _ _ _).poolKept)).trans (.of_eq rfl rfl rfl)

theorem Part.locateSlot_poolKept (v : Verify) (ws : List Word) (p : Part) : Part.PoolKept p (p.locateSlot v ws) := by
  refine .ite ((Part.modClaim_grantOnly _ _ p).poolKept.trans (Part.holdPhase_poolKept _ _)) ?_
  split
  · exact .of_eq rfl rfl rfl
  · exact (Part.walkTo_grantOnly _ _ p).poolKept

theorem Part.verifySlot_poolKept (v : Verify) (ws : List Word) (p : Part) : Part.PoolKept p (p.verifySlot v ws) := by
  unfold Part.verifySlot
  split
  · exact Part.locateSlot_poolKept v ws p
  · exact Part.checkSlot_poolKept v ws p
  · exact (Part.collectSlot_grantOnly v ws p).poolKept
  · exact .refl p
  · exact .refl p

theorem Part.retestWalk_poolKept (p : Part) : Part.PoolKept p p.retestWalk := by
  unfold Part.retestWalk
  split
  · exact .refl p
  · exact .ite (Part.notFound_grantOnly _ _ p).poolKept (.refl p)

/-! ## The batch -/

theorem Part.windowExpires_poolKept (p : Part) : Part.PoolKept p p.windowExpires := by
  unfold Part.windowExpires
  split
  · rename_i b _ hb
    have expired : Part.PoolKept p { p with retire := { p.retire with
        state := if p.verifyRunning then .waiting else .blanking, batch := some { b with window := false } } } := by
      refine .of_batch rfl rfl ?_ rfl fun hp => ?_
      · dsimp only
        split <;> simp
      · obtain ⟨hn, hl, hc⟩ := (Part.poolSound_iff.mp hp).2.1 b hb
        exact ⟨hn, hl, hc⟩
    exact .ite (expired.trans (Part.slotsChanged_poolKept _ _)) (.refl p)
  · exact .refl p

theorem Batch.later_of_current_none {b : Batch} (h : b.current = none) : b.later = b.segs.drop b.completed := by
  simp [Batch.later, h]

theorem Batch.later_of_current {b : Batch} {n : Nat} (h : b.current = some n) :
    b.later = b.segs.drop (b.completed + 1) := by
  simp [Batch.later, h]

/-- The mark of R182, on the tables: segment `n` leaves the segments not begun and is RETIRING. -/
theorem Store.BatchSound.mark {x y : Store} {b : Batch} {n : Nat} {st : Option Stream} (hx : x.Sound)
    (hb : x.BatchSound b) (hc : b.current = none) (hn : b.nextSeg = some n)
    (hr : Store.Reshaped n (.retiring, st) x y) (hpool : y.pool = x.pool)
    (hstreams : y.streams = x.streams) :
    y.Sound ∧ y.BatchSound { b with current := some n, pos := .rewrite } := by
  obtain ⟨hlt, hget⟩ := List.getElem?_eq_some_iff.mp hn
  have hlater : b.later = n :: b.segs.drop (b.completed + 1) := by
    rw [Batch.later_of_current_none hc, List.drop_eq_getElem_cons hlt, hget]
  have hnodup := hb.nodup
  rw [hlater, List.nodup_cons] at hnodup
  obtain ⟨s, hs, hretirable⟩ := hb.later n (by simp [hlater])
  have hne : x.stateAt n ≠ some .blank := by
    rw [hs]
    rintro ⟨⟩
    simp [SegState.retirable] at hretirable
  have hsound : y.Sound := by
    refine hr.sound hx (hpool ▸ hx.ascending) ?_ (fun _ _ => by rw [hpool]) fun other k hk => .inr ⟨?_, hstreams ▸ hk⟩
    · rw [hpool, hx.blank]
      exact ⟨fun h => absurd h hne, fun h => by cases h⟩
    · rintro rfl
      rw [hstreams] at hk
      have := Store.stateAt_of_shape (hx.opened other _ hk)
      rw [hs] at this
      cases this
      simp [SegState.retirable] at hretirable
  refine ⟨hsound, hnodup.2, fun m hm => ?_, fun m hm => ?_⟩
  · have hmn : m ≠ n := by rintro rfl; exact hnodup.1 hm
    have := hb.later m (by rw [hlater]; exact List.mem_cons_of_mem _ hm)
    unfold Store.Retirable at this ⊢
    rwa [hr.stateAt_other hmn]
  · cases hm
    exact ⟨hnodup.1, Store.stateAt_of_shape hr.self⟩

/-- The mark of R182 on the part: the batch's next segment is current and RETIRING. -/
theorem Part.marked_poolKept {p : Part} {b : Batch} {n : Nat} (hstate : p.retire.state = .blanking)
    (hb : p.retire.batch = some b) (hc : b.current = none) (hn : b.nextSeg = some n) (q : Part)
    (hq : q = { p with retire := { p.retire with batch := some { b with current := some n, pos := .rewrite } } }) :
    Part.PoolKept p (q.modSeg n (fun e => { e with state := .retiring, owed := .none })) := by
  subst hq
  refine ⟨by rw [(Part.modSeg_storeOnly ..).backup], fun hm hp => ?_⟩
  obtain ⟨hsound, hbatch, -, -⟩ := Part.poolSound_iff.mp hp
  have hnl : n ∈ b.later := by
    rw [Batch.later_of_current_none hc]
    exact List.mem_of_getElem? (i := 0) (by simpa [Batch.nextSeg] using hn)
  obtain ⟨s, hs, -⟩ := (hbatch b hb).later n hnl
  obtain ⟨e, he, -⟩ := Part.stateAt_iff.mp hs
  obtain ⟨hy, hyb⟩ := Store.BatchSound.mark hsound (hbatch b hb) hc hn
    (Part.modSeg_reshaped (f := fun e => { e with state := .retiring, owed := .none }) he) (by simp) (by simp)
  rw [Part.poolSound_iff, (Part.modSeg_storeOnly ..).retire, (Part.modSeg_storeOnly ..).backup]
  refine ⟨?_, fun c hc' => ?_, fun h => ?_, fun h => ?_⟩
  · unfold Part.modSeg at hy ⊢
    split <;> simp_all
  · cases hc'
    unfold Part.modSeg at hyb ⊢
    split <;> simp_all
  · simp [hstate] at h
  · simp [hm] at h

theorem Part.takeNextSeg_poolKept (p : Part) : Part.PoolKept p p.takeNextSeg := by
  unfold Part.takeNextSeg
  split
  · rename_i b hstate hb
    split
    · rename_i n hc hn
      have marked := Part.marked_poolKept hstate hb hc hn _ rfl
      refine .ite (.refl p) ?_
      unfold Part.markRetiring
      dsimp only
      split
      · exact .ite (marked.trans (Part.voidAssembly_poolKept _ _ _)) marked
      · exact marked
    · exact .refl p
  · exact .refl p

/-- The pool with a segment put in at its place stays ascending. -/
theorem List.pairwise_insert_at {l : List Nat} (h : l.Pairwise (· < ·)) (n : Nat) :
    (l.filter (· < n) ++ [n] ++ l.filter (n < ·)).Pairwise (· < ·) := by
  simp only [List.append_assoc, List.singleton_append, List.pairwise_append, List.pairwise_cons, List.mem_filter,
    List.mem_cons, decide_eq_true_eq]
  refine ⟨h.filter _, ⟨fun k hk => hk.2, h.filter _⟩, ?_⟩
  rintro a ⟨-, ha⟩ b (rfl | ⟨-, hb⟩)
  · exact ha
  · exact ha.trans hb

theorem List.mem_insert_at {l : List Nat} {n k : Nat} :
    k ∈ l.filter (· < n) ++ [n] ++ l.filter (n < ·) ↔ k = n ∨ k ∈ l := by
  simp only [List.mem_append, List.mem_filter, List.mem_singleton, decide_eq_true_eq]
  constructor
  · rintro ((⟨h, -⟩ | rfl) | ⟨h, -⟩)
    · exact .inr h
    · exact .inl rfl
    · exact .inr h
  · rintro (rfl | h)
    · exact .inl (.inr rfl)
    · obtain hlt | rfl | hgt := Nat.lt_trichotomy k n
      · exact .inl (.inl ⟨h, hlt⟩)
      · exact .inl (.inr rfl)
      · exact .inr ⟨h, hgt⟩

/-- The current segment of a batch is blanked and joins the pool (R183): the store is sound, and the rest of the batch is what
it was. -/
theorem Part.joinPool_sound {p : Part} {b : Batch} {n : Nat} (hx : p.store.Sound) (hb : p.store.BatchSound b)
    (hc : b.current = some n) :
    (p.joinPool n).store.Sound
      ∧ (p.joinPool n).store.BatchSound { b with current := none, completed := b.completed + 1 } := by
  obtain ⟨hnl, hstate⟩ := hb.current n hc
  obtain ⟨e, he, -⟩ := Part.stateAt_iff.mp hstate
  have hr := Part.modSeg_reshaped (f := fun _ => SegEntry.blankEntry) he
  let q := p.modSeg n (fun _ => SegEntry.blankEntry)
  let r : Part := { q with store := { q.store with
    pool := q.store.pool.filter (· < n) ++ [n] ++ q.store.pool.filter (n < ·) } }
  have hqr : Store.Reshaped n (.blank, none) p.store r.store := ⟨hr.self, hr.other⟩
  have hpool : r.store.pool = p.store.pool.filter (· < n) ++ [n] ++ p.store.pool.filter (n < ·) := by simp [r, q]
  have hsound : r.store.Sound := by
    refine hqr.sound hx ?_ ?_ (fun k hk => ?_) fun st k hk => .inr ?_
    · rw [hpool]
      exact List.pairwise_insert_at hx.ascending n
    · rw [hpool]
      simp
    · rw [hpool, List.mem_insert_at]
      simp [hk]
    · have hk' : (p.store.streams.get st).openSeg = some k := by simpa [r, q] using hk
      refine ⟨?_, hk'⟩
      rintro rfl
      have := Store.stateAt_of_shape (hx.opened st _ hk')
      simp [hstate] at this
  have hbatch : r.store.BatchSound { b with current := none, completed := b.completed + 1 } := by
    have hlater : Batch.later { b with current := none, completed := b.completed + 1 } = b.later := by
      rw [Batch.later_of_current_none rfl, Batch.later_of_current hc]
    refine ⟨hlater ▸ hb.nodup, fun m hm => ?_, fun m hm => by cases hm⟩
    rw [hlater] at hm
    have hmn : m ≠ n := by rintro rfl; exact hnl hm
    have := hb.later m hm
    unfold Store.Retirable at this ⊢
    rwa [hqr.stateAt_other hmn]
  have served := Part.serveStalled_kept r
  exact ⟨(served hsound).1, hbatch.kept hsound served⟩

theorem Part.segBlanked_poolKept {p : Part} {b : Batch} {n : Nat} (hb : p.retire.batch = some b)
    (hc : b.current = some n) : Part.PoolKept p (p.segBlanked n) := by
  have frame := Part.joinPool_storeOnly n p
  have hq : (p.joinPool n).retire.batch = some b := by rw [frame.retire, hb]
  have hm : (p.joinPool n).backup.mounting = p.backup.mounting := by rw [frame.backup]
  unfold Part.segBlanked
  simp only [hq]
  have ends : Part.PoolKept p
      { p.joinPool n with retire := { (p.joinPool n).retire with state := .empty, batch := none } } := by
    refine ⟨hm, fun _ hp => ?_⟩
    obtain ⟨hx, hbatch, -, -⟩ := Part.poolSound_iff.mp hp
    exact Part.poolSound_of_noBatch (Part.joinPool_sound hx (hbatch b hb) hc).1 rfl
  refine .ite ?_ ((ends.trans (Part.raise_only causeOpDone _).poolKept).trans (Part.slotsChanged_poolKept _ _))
  refine ⟨hm, fun hno hp => ?_⟩
  obtain ⟨hx, hbatch, -, -⟩ := Part.poolSound_iff.mp hp
  obtain ⟨hy, hyb⟩ := Part.joinPool_sound hx (hbatch b hb) hc
  obtain ⟨h1, h2⟩ := Part.poolSound_state hp hb
  rw [Part.poolSound_iff]
  refine ⟨hy, fun c hc' => ?_, fun h => ?_, fun h => ?_⟩
  · cases hc'
    exact hyb
  · simp [frame.retire, h1, h2] at h
  · simp [hm, hno] at h

/-- A blanking ends by termination: its segment becomes SCRAP, and the batch is gone (R185). -/
theorem Part.endBlanking_poolKept (p : Part) : Part.PoolKept p p.endBlanking := by
  have ends {q : Part} (hq : Part.StoreOnly p q) (hs : p.poolSound → q.store.Sound) :
      Part.PoolKept p { q with retire := { q.retire with state := .empty, batch := none } } :=
    ⟨congrArg Backup.mounting hq.backup, fun _ hp => Part.poolSound_of_noBatch (hs hp) rfl⟩
  unfold Part.endBlanking
  refine PoolKept.trans (PoolKept.trans (ends ?_ fun hp => ?_) (Part.raise_only _ _).poolKept)
    (Part.slotsChanged_poolKept _ _)
  · split
    · split
      · exact Part.modSeg_storeOnly _ _ p
      · exact .refl p
    · exact .refl p
  · obtain ⟨hx, hbatch, -, -⟩ := Part.poolSound_iff.mp hp
    split
    · rename_i b hb
      split
      · rename_i n hc
        obtain ⟨-, hstate⟩ := (hbatch b hb).current n hc
        obtain ⟨e, he, -⟩ := Part.stateAt_iff.mp hstate
        refine (Part.modSeg_reshaped he).sound_of_nonblank hx (by simp) (by simp [hstate]) (by simp) ?_
        intro st k hk
        rw [Part.modSeg_streams] at hk
        refine ⟨?_, hk⟩
        rintro rfl
        have := Store.stateAt_of_shape (hx.opened st _ hk)
        simp [hstate] at this
      · exact hx
    · exact hx

end Sys2Proof.Machine

/-! # Proofs: what FORMAT, the commands and the accesses at the port do to the pool -/

namespace Sys2Proof.Machine

/-! ## Stores made whole -/

/-- A store whose segments are all BLANK and all in the pool, with no stream's segment open. -/
theorem Store.sound_of_blank {x : Store} {k : Nat} (hsegs : x.segs = List.replicate k SegEntry.blankEntry)
    (hpool : x.pool = (List.range k).map (· + 1)) (hopen : ∀ st, (x.streams.get st).openSeg = none) : x.Sound where
  ascending := hpool ▸ pairwise_lt_range_succ k
  blank n := by
    rw [hpool]
    unfold Store.stateAt Store.shape
    rw [hsegs]
    cases n with
    | zero => simp
    | succ n => simp [List.getElem?_replicate, SegEntry.blankEntry]
  opened st n h := by simp [hopen st] at h

theorem Streams.fresh_openSeg (seed : DWord) (st : Stream) : ((Streams.fresh seed).get st).openSeg = none := by
  cases st <;> rfl

theorem Store.absent_sound : Store.absent.Sound := Store.sound_of_blank (k := 0) rfl rfl (Streams.fresh_openSeg 0)

theorem Store.formatted_sound (code time : Nat) (seed : DWord) : (Store.formatted code time seed).Sound :=
  Store.sound_of_blank rfl rfl (Streams.fresh_openSeg seed)

/-! ## FORMAT -/

theorem Part.startFormat_poolKept (code : Nat) (p : Part) : Part.PoolKept p (p.startFormat code) := by
  unfold Part.startFormat
  refine PoolKept.trans ?_ (Part.resumeScanner_only _).poolKept
  refine .of_noBatch (Store.SameShape.kept ⟨rfl, fun n => ?_, fun _ => rfl⟩) rfl rfl
  simp only [Store.shape, List.getElem?_map, Option.map_map]
  rfl

theorem Part.dropLoad_poolKept (p : Part) : Part.PoolKept p p.dropLoad := by
  have dropped : Part.PoolKept p { p with route := { p.route with load := none } } := .of_eq rfl rfl rfl
  exact .ite (dropped.trans (Part.endRunning_poolKept _ _ _ _)) dropped

theorem Part.dropRoute_poolKept (p : Part) : Part.PoolKept p p.dropRoute :=
  .ite (.of_eq rfl rfl rfl) (.refl p)

theorem Part.formatTerminated_poolKept (p : Part) : Part.PoolKept p p.formatTerminated := by
  have dropped := (Part.dropLoad_poolKept p).trans (Part.dropRoute_poolKept _)
  unfold Part.formatTerminated
  generalize p.dropLoad.dropRoute = q at dropped
  have ended : Part.PoolKept p { q with
      mode := .unformatted, store := .absent, claims := List.replicate 8 Claim.free, claimQueue := []
      scrub := { p.scrub with due := none }, retire := { state := .empty, batch := none, fmt := none } } :=
    ⟨dropped.mounting, fun _ _ => Part.poolSound_of_noBatch Store.absent_sound rfl⟩
  exact (ended.trans (Part.raise_only causeOpDone _).poolKept).trans (Part.slotsChanged_poolKept true _)

theorem Part.rescheduleScrub_poolKept (p : Part) : Part.PoolKept p p.rescheduleScrub := .of_eq rfl rfl rfl

theorem Part.formatComplete_poolKept (code : Nat) (p : Part) : Part.PoolKept p (p.formatComplete code) := by
  have ends (q : Part) := ((((Part.dropLoad_poolKept q).trans (Part.rescheduleScrub_poolKept _)).trans
    (Part.resumeScanner_only _).poolKept).trans (Part.raise_only causeOpDone _).poolKept).trans
    (Part.slotsChanged_poolKept true _)
  unfold Part.formatComplete
  refine PoolKept.trans ?_ (ends _)
  exact ⟨rfl, fun _ _ => Part.poolSound_of_noBatch (Store.formatted_sound _ _ _) rfl⟩

/-! ## A SUSPEND, TERMINATE or CLAIM CLOSE that waits -/

theorem Part.suspendNow_poolKept (p : Part) : Part.PoolKept p p.suspendNow := by
  have suspended : Part.PoolKept p { p with retire := { p.retire with state := .suspended } } :=
    .of_retire rfl rfl (by simp) rfl
  refine .ite (suspended.trans (Part.slotsChanged_poolKept _ _)) ?_
  split
  · rename_i v _
    have held : Part.PoolKept p { p with verify := some { v with suspended := true } } := .of_eq rfl rfl rfl
    exact .ite (.refl p) (held.trans (Part.slotsChanged_poolKept _ _))
  · exact .refl p

theorem Part.terminateNow_poolKept (p : Part) : Part.PoolKept p p.terminateNow :=
  .ite (Part.endBlanking_poolKept p) (.ite (Part.formatTerminated_poolKept p) (.ite (Part.abortVerify_poolKept p) (.refl p)))

theorem Part.deferredWork_poolKept (w : RunningWork) (ended : Bool) (p : Part) :
    Part.PoolKept p (p.deferredWork w ended) := by
  unfold Part.deferredWork
  split
  · exact .ite (.refl p) (Part.suspendNow_poolKept p)
  · exact .ite (.refl p) (Part.terminateNow_poolKept p)
  · exact .ite (Part.closeVerify_poolKept _ p) (Part.freeClaim_poolKept _ p)
  · exact .refl p

theorem Part.afterLongBurst_poolKept (ended : Bool) (p : Part) : Part.PoolKept p (p.afterLongBurst ended) := by
  unfold Part.afterLongBurst
  split
  · exact .refl p
  · rename_i r _
    have done := (Part.deferredWork_poolKept r.work ended p).trans (Part.endRunning_poolKept .done .ok [] _)
    split
    · exact done
    · exact done
    · exact done
    · exact .refl p

/-! ## Scrub steps and the route -/

theorem Part.stepDue_poolKept (p : Part) : Part.PoolKept p p.stepDue := by
  refine (Part.rescheduleScrub_poolKept p).trans (.ite (.of_eq rfl rfl rfl) ?_)
  unfold Part.beginStep
  split <;> exact .of_eq rfl rfl rfl

theorem Part.endStep_poolKept (n : Nat) (p : Part) : Part.PoolKept p (p.endStep n) :=
  PoolKept.trans (q := { p with scrub := { p.scrub with step := none, pointer := p.segAfter n } }) (.of_eq rfl rfl rfl)
    (Part.scrubTurn_poolKept _ _)

theorem Part.scrubSlot_poolKept (st : ScrubStep) (ws : List Word) (p : Part) : Part.PoolKept p (p.scrubSlot st ws) := by
  have dropped : Part.PoolKept p { p with scrub := { p.scrub with step := none, owed := sat8 (p.scrub.owed + 1) } } :=
    .of_eq rfl rfl rfl
  refine .ite (dropped.trans (Part.scrubTurn_poolKept _ _)) ?_
  dsimp only
  split
  · exact Part.endStep_poolKept _ p
  · split
    · exact .of_eq rfl rfl rfl
    · exact Part.endStep_poolKept _ p
    · exact (Part.checkFault_poolKept _ _ _ _ _ p).trans (Part.endStep_poolKept _ _)

theorem Part.holdFields_poolKept (h : Held) (p : Part) : Part.PoolKept p (p.holdFields h) := by
  rw [Part.holdFields_eq]
  exact .of_eq rfl rfl rfl

theorem Part.installSheet_poolKept (s : Sheet) (check : DWord) (p : Part) : Part.PoolKept p (p.installSheet s check) := by
  have noted : Part.PoolKept p
      { p with route := { p.route with sheet := some s, check := some check, start := some p.clock.now } } :=
    .of_eq rfl rfl rfl
  have installed (q : Part) : Part.PoolKept q (Part.initContexts { q with route := { q.route with state := .loaded } }) :=
    .of_eq rfl rfl rfl
  exact (((noted.trans (Part.holdFields_poolKept _ _)).trans (Part.addRecord_only _ _ _ _).poolKept).trans
    (installed _)).trans (Part.startScanning_only _).poolKept

theorem Part.takeSheetBurst_poolKept (ws : List Word) (p : Part) : Part.PoolKept p (p.takeSheetBurst ws) := by
  unfold Part.takeSheetBurst
  split
  · exact .refl p
  · refine .ite ?_ (.of_eq rfl rfl rfl)
    have dropped : Part.PoolKept p { p with route := { p.route with load := none } } := .of_eq rfl rfl rfl
    unfold Part.checkSheet
    dsimp only
    split
    · exact dropped.trans (Part.endRunning_poolKept _ _ _ _)
    · exact .ite (dropped.trans (Part.endRunning_poolKept _ _ _ _))
        ((dropped.trans (Part.installSheet_poolKept _ _ _)).trans (Part.endRunning_poolKept _ _ _ _))

theorem Part.fieldsRead_poolKept (value : Word) (dock : Bool) (h : Held) (p : Part) :
    Part.PoolKept p (p.fieldsRead value dock h) := by
  have refused : Part.PoolKept p p.protectError := .of_eq rfl rfl rfl
  have entered : Part.PoolKept p { p with mode := .service } := .of_eq rfl rfl rfl
  exact .ite (Part.endRunning_poolKept _ _ _ p) (.ite (refused.trans (Part.endRunning_poolKept _ _ _ _))
    ((entered.trans (.ite (Part.holdFields_poolKept _ _) (.refl _))).trans (Part.endRunning_poolKept _ _ _ _)))

theorem Part.joinRouteEnd_poolKept (p : Part) : Part.PoolKept p p.joinRouteEnd := by
  unfold Part.joinRouteEnd
  split
  · exact .refl p
  · exact .ite (PoolKept.trans (q := { p with route := { p.route with endRecord := none } }) (.of_eq rfl rfl rfl)
      (Part.addRecord_only _ _ _ _).poolKept) (.refl p)

theorem Part.endRoute_poolKept (p : Part) : Part.PoolKept p p.endRoute :=
  PoolKept.trans (q := Part.releaseCons (Part.stopScanning (Part.stopContexts { p with route :=
    { p.route with state := .idle, closePending := true, endRecord := some p.routeEndBody } }))) (.of_eq rfl rfl rfl)
    (Part.joinRouteEnd_poolKept _)

theorem Part.closeStream_poolKept (p : Part) (st : Stream) : Part.PoolKept p (p.closeStream st) := by
  unfold Part.closeStream
  split
  · exact .refl p
  · exact .ite (.of_eq rfl rfl rfl) (Part.closeSegment_poolKept ‹_›)

theorem Part.closeRoute_poolKept (p : Part) : Part.PoolKept p p.closeRoute :=
  .ite ((PoolKept.foldl Part.closeStream_poolKept _ p).trans (.of_eq rfl rfl rfl)) (.refl p)

theorem Part.resumeRoute_poolKept (v : Nat) (p : Part) : Part.PoolKept p (p.resumeRoute v) := by
  have loaded : Part.PoolKept p (Part.initContexts { p with route := { p.route with state := .loaded } }) :=
    .of_eq rfl rfl rfl
  have charged (secs : Nat) (cs : List Nat) :=
    (loaded.trans (Part.chargeOutage_only secs cs _).poolKept).trans (Part.startScanning_only _).poolKept
  unfold Part.resumeRoute
  exact PoolKept.trans (charged (v - p.clock.mark.getD v)
    (Part.initContexts { p with route := { p.route with state := .loaded } }).chargedComps) (.of_eq rfl rfl rfl)

/-! ## The twenty commands -/

theorem Part.cmdWhere_poolKept (code : Word) (p : Part) : Part.PoolKept p (p.cmdWhere code) := by
  refine .ite (.of_eq rfl rfl rfl) ?_
  split
  · exact .of_eq rfl rfl rfl
  · exact .ite (.of_eq rfl rfl rfl) (Part.decideWhere_poolKept Part.conclude_poolKept _ p)

theorem Part.done_poolKept (rs : List Word) (p : Part) : Part.PoolKept p (p.done rs) := .of_eq rfl rfl rfl

theorem Part.refuseCommand_poolKept (o : CmdOutcome) (p : Part) : Part.PoolKept p (p.refuseCommand o) := .of_eq rfl rfl rfl

theorem Part.cmdClockSet_poolKept (v : Nat) (p : Part) : Part.PoolKept p (p.cmdClockSet v) := by
  have set : Part.PoolKept p (p.setClock v) := .of_eq rfl rfl rfl
  exact .ite (Part.refuseCommand_poolKept _ p) (.ite (Part.refuseCommand_poolKept _ p)
    ((PoolKept.ite (set.trans (Part.resumeRoute_poolKept v _)) set).trans (Part.done_poolKept _ _)))

theorem Part.cmdClaimOpen_poolKept (id : DWord) (p : Part) : Part.PoolKept p (p.cmdClaimOpen id) := by
  refine .ite (Part.refuseCommand_poolKept _ p) (.ite (Part.refuseCommand_poolKept _ p) ?_)
  split
  · exact Part.refuseCommand_poolKept _ p
  · rename_i i _
    have queued : Part.PoolKept p (Part.modClaim i (fun _ => { Claim.free with state := .queued, id := some id })
      { p with claimQueue := p.claimQueue ++ [i] }) := .of_eq rfl rfl rfl
    exact (queued.trans (Part.slotsChanged_poolKept _ _)).trans (Part.done_poolKept _ _)

theorem Part.cmdClaimRead_poolKept (index : Word) (p : Part) : Part.PoolKept p (p.cmdClaimRead index) := by
  unfold Part.cmdClaimRead
  split
  · exact Part.refuseCommand_poolKept _ p
  · exact Part.done_poolKept _ p

theorem Part.cmdClaimClose_poolKept (index : Word) (p : Part) : Part.PoolKept p (p.cmdClaimClose index) := by
  unfold Part.cmdClaimClose
  split
  · exact Part.refuseCommand_poolKept _ p
  · rename_i i _
    have dequeued : Part.PoolKept p { p with claimQueue := p.claimQueue.filter (· != i) } := .of_eq rfl rfl rfl
    exact .ite (.ite (.of_eq rfl rfl rfl) ((Part.closeVerify_poolKept _ p).trans (Part.done_poolKept _ _)))
      ((dequeued.trans (Part.freeClaim_poolKept _ _)).trans (Part.done_poolKept _ _))

theorem Part.cmdSuspend_poolKept (p : Part) : Part.PoolKept p p.cmdSuspend :=
  .ite (Part.refuseCommand_poolKept _ p) (.ite (Part.refuseCommand_poolKept _ p) (.ite (.of_eq rfl rfl rfl)
    ((Part.suspendNow_poolKept p).trans (Part.done_poolKept _ _))))

theorem Part.cmdResume_poolKept (p : Part) : Part.PoolKept p p.cmdResume := by
  have blanking : Part.PoolKept p { p with retire := { p.retire with state := .blanking } } :=
    .of_retire rfl rfl (by simp) rfl
  refine .ite (.ite (Part.refuseCommand_poolKept _ p) ((blanking.trans (Part.slotsChanged_poolKept _ _)).trans
    (Part.done_poolKept _ _))) ?_
  split
  · exact Part.refuseCommand_poolKept _ p
  · rename_i v _
    have resumed : Part.PoolKept p { p with verify := some { v with suspended := false } } := .of_eq rfl rfl rfl
    exact .ite (Part.refuseCommand_poolKept _ p) (.ite (Part.refuseCommand_poolKept _ p)
      ((((resumed.trans (Part.retestWalk_poolKept _)).trans (Part.passCheck_grantOnly _).poolKept).trans
        (Part.slotsChanged_poolKept _ _)).trans (Part.done_poolKept _ _)))

theorem Part.cmdTerminate_poolKept (p : Part) : Part.PoolKept p p.cmdTerminate :=
  .ite (Part.refuseCommand_poolKept _ p) (.ite (.of_eq rfl rfl rfl)
    ((Part.terminateNow_poolKept p).trans (Part.done_poolKept _ _)))

theorem Part.cmdServiceEnter_poolKept (value : Word) (dock : Bool) (p : Part) :
    Part.PoolKept p (p.cmdServiceEnter value dock) := by
  refine .ite (Part.refuseCommand_poolKept _ p) (.ite (Part.refuseCommand_poolKept _ p)
    (.ite (Part.refuseCommand_poolKept _ p) ?_))
  split
  · exact .of_eq rfl rfl rfl
  · exact .ite (.of_eq rfl rfl rfl) (.of_eq rfl rfl rfl)

theorem Part.cmdServiceLeave_poolKept (p : Part) : Part.PoolKept p p.cmdServiceLeave :=
  .ite ((Part.leaveService_poolKept p).trans (Part.done_poolKept _ _)) (Part.refuseCommand_poolKept _ p)

/-- A batch that takes one more retirable segment (R180). -/
theorem Store.BatchSound.append {x : Store} {b : Batch} {n : Nat} (h : x.BatchSound b) (hn : n ∉ b.segs)
    (hr : x.Retirable n) : x.BatchSound { b with segs := b.segs ++ [n], window := true } := by
  have sub : (Batch.later { b with segs := b.segs ++ [n], window := true }).Sublist (b.later ++ [n]) := by
    unfold Batch.later
    rw [List.drop_append]
    exact (List.Sublist.refl _).append (List.drop_sublist _ _)
  have hnl : n ∉ b.later := fun hm => hn (List.mem_of_mem_drop hm)
  refine ⟨?_, fun m hm => ?_, fun m hm => ⟨fun hl => ?_, (h.current m hm).2⟩⟩
  · refine List.Nodup.sublist sub (List.nodup_append.mpr ⟨h.nodup, by simp, ?_⟩)
    rintro a ha c hc rfl
    rw [List.mem_singleton] at hc
    exact hnl (hc ▸ ha)
  · rcases List.mem_append.mp (sub.subset hm) with hl | hl
    · exact h.later m hl
    · rw [List.mem_singleton.mp hl]
      exact hr
  · obtain ⟨hml, hstate⟩ := h.current m hm
    rcases List.mem_append.mp (sub.subset hl) with hl | hl
    · exact hml hl
    · obtain ⟨s, hs, hret⟩ := hr
      rw [← List.mem_singleton.mp hl, hstate] at hs
      cases hs
      simp [SegState.retirable] at hret

theorem Part.joinBatch_poolKept {p : Part} {n : Nat} {e : SegEntry} (he : p.seg n = some e)
    (hr : e.state.retirable) (hn : n ∉ p.batchSegs) : Part.PoolKept p (p.joinBatch n) := by
  refine .of_batch rfl rfl ⟨by simp [Part.joinBatch], by simp [Part.joinBatch]⟩ rfl fun hp => ?_
  have hret : p.store.Retirable n := ⟨_, Part.stateAt_iff.mpr ⟨e, he, rfl⟩, hr⟩
  cases hb : p.retire.batch with
  | none => exact Store.BatchSound.append ⟨by simp [Batch.later], by simp [Batch.later], by simp⟩ (by simp) hret
  | some b =>
    refine ((Part.poolSound_iff.mp hp).2.1 b hb).append ?_ hret
    simpa [Part.batchSegs, hb] using hn

theorem Part.retirable_state {p : Part} {e : SegEntry} (h : p.retirable e = true) : e.state.retirable := by
  unfold Part.retirable at h
  split at h <;> rename_i hs <;> simp_all [SegState.retirable]

theorem Part.cmdRetire_poolKept (segment : Word) (p : Part) : Part.PoolKept p (p.cmdRetire segment) := by
  have refused (o : CmdOutcome) := Part.refuseCommand_poolKept o p
  unfold Part.cmdRetire
  dsimp only
  split
  · exact refused _
  · rename_i e he
    refine .ite (refused _) ?_
    split
    · exact refused _
    · rename_i hr
      refine .ite (refused _) ?_
      split
      · exact refused _
      · rename_i hn
        refine .ite (refused _) ((Part.joinBatch_poolKept he (Part.retirable_state (by simpa using hr)) ?_).trans
          (Part.done_poolKept _ _))
        simpa using hn

theorem Part.cmdFormat_poolKept (code : Word) (dock : Bool) (p : Part) : Part.PoolKept p (p.cmdFormat code dock) := by
  have refused (o : CmdOutcome) := Part.refuseCommand_poolKept o p
  exact .ite (refused _) (.ite (refused _) (.ite (refused _) (.ite (refused _) (.ite (refused _)
    ((Part.startFormat_poolKept _ p).trans (Part.done_poolKept _ _))))))

theorem Part.carryOut_poolKept (c : Command) (ps : List Word) (dock : Bool) (p : Part) :
    Part.PoolKept p (p.carryOut c ps dock) := by
  have refused (o : CmdOutcome) := Part.refuseCommand_poolKept o p
  cases c with
  | report => exact .of_eq rfl rfl rfl
  | acknowledge => exact .ite (refused _) (.of_eq rfl rfl rfl)
  | identity => exact .of_eq rfl rfl rfl
  | whereIs => exact Part.cmdWhere_poolKept _ p
  | clockSet => exact Part.cmdClockSet_poolKept _ p
  | routeLoad => exact .ite (refused _) (.ite (refused _) (.ite (refused _) (.of_eq rfl rfl rfl)))
  | routeEnd => exact .ite (refused _) (.ite (refused _) ((Part.endRoute_poolKept p).trans (Part.done_poolKept _ _)))
  | rescan => exact .ite (refused _) (.ite (refused _) (.ite (refused _) (.of_eq rfl rfl rfl)))
  | audit => exact .ite (refused _) (.ite (refused _) (.of_eq rfl rfl rfl))
  | claimOpen => exact Part.cmdClaimOpen_poolKept _ p
  | claimRead => exact Part.cmdClaimRead_poolKept _ p
  | claimClose => exact Part.cmdClaimClose_poolKept _ p
  | progress => exact .of_eq rfl rfl rfl
  | suspend => exact Part.cmdSuspend_poolKept p
  | resume => exact Part.cmdResume_poolKept p
  | terminate => exact Part.cmdTerminate_poolKept p
  | serviceEnter => exact Part.cmdServiceEnter_poolKept _ dock p
  | serviceLeave => exact Part.cmdServiceLeave_poolKept p
  | retire => exact Part.cmdRetire_poolKept _ p
  | format => exact Part.cmdFormat_poolKept _ dock p

theorem Part.judge_poolKept (c : Command) (ps : List Word) (dock : Bool) (p : Part) :
    Part.PoolKept p (p.judge c ps dock) :=
  .ite (Part.refuseCommand_poolKept _ p) (.ite (Part.refuseCommand_poolKept _ p) (.ite (.of_eq rfl rfl rfl)
    (Part.carryOut_poolKept c ps dock p)))

/-! ## The gate -/

theorem Part.takeCommand_poolKept (a : Addr) (c : Command) (dock : Bool) (p : Part) :
    Part.PoolKept p (p.takeCommand a c dock) := by
  have idle (q : Part) : Part.PoolKept q { q with chan := { q.chan with gate := .idle } } := .of_eq rfl rfl rfl
  have presented : Part.PoolKept p (p.present a c.code [] .running .ok) := .of_eq rfl rfl rfl
  exact .ite ((presented.trans (idle _)).trans (Part.judge_poolKept _ _ _ _)) (.of_eq rfl rfl rfl)

theorem Part.takeParameter_poolKept (a : Addr) (c : Command) (got : List Word) (d : Word) (dock : Bool) (p : Part) :
    Part.PoolKept p (p.takeParameter a c got d dock) := by
  have idle (q : Part) : Part.PoolKept q { q with chan := { q.chan with gate := .idle } } := .of_eq rfl rfl rfl
  have collected : Part.PoolKept p
    { p with chan := { p.chan with current := p.chan.current.map (fun r => { r with params := got ++ [d] }) } } :=
    .of_eq rfl rfl rfl
  exact .ite ((collected.trans (idle _)).trans (Part.judge_poolKept _ _ _ _)) (.of_eq rfl rfl rfl)

theorem Part.gateWrite_poolKept (a : Addr) (d : Word) (dock : Bool) (p : Part) :
    Part.PoolKept p (p.gateWrite a d dock).1 := by
  unfold Part.gateWrite
  split
  · split <;> exact .of_eq rfl rfl rfl
  · split <;> exact .of_eq rfl rfl rfl
  · split
    · split
      · exact Part.takeCommand_poolKept _ _ _ p
      · exact .of_eq rfl rfl rfl
    · exact .of_eq rfl rfl rfl
  · split
    · exact Part.takeParameter_poolKept _ _ _ _ _ p
    · exact .of_eq rfl rfl rfl

theorem Part.arrive_poolKept (a : Addr) (d : Word) (dock : Bool) (p : Part) : Part.PoolKept p (p.arrive a d dock).1 :=
  have met : Part.PoolKept p (if p.collecting then p else p.endPresentation) := .ite (.refl p) (.of_eq rfl rfl rfl)
  met.trans (Part.gateWrite_poolKept _ _ _ _)

/-! ## Accesses at the port -/

theorem State.forward_part {a : Addr} {d : Word} {s t : State} (h : s.forward a d = some t) :
    t.part = s.part.upstreamGrant := by
  unfold State.forward at h
  split at h
  · cases h; rfl
  · cases h

theorem State.forward_poolKept {a : Addr} {d : Word} {s t : State} (h : s.forward a d = some t) :
    Part.PoolKept s.part t.part := by
  rw [State.forward_part h]
  exact .of_eq rfl rfl rfl

theorem State.acceptWord_poolKept {a : Addr} {d : Word} {n : Nat} {x : Assembly} {s t : State}
    (h : s.acceptWord a d n x = some t) : Part.PoolKept s.part t.part := by
  unfold State.acceptWord at h
  simp only at h
  split at h
  · cases h
  · rename_i u hu
    cases h
    have noted (q : Part) (y : Assembly) : Part.PoolKept q { x.noteFloor n q with asm := some y } := by
      unfold Assembly.noteFloor
      split <;> exact .of_eq rfl rfl rfl
    have placed := (State.forward_poolKept hu).trans (noted u.part (x.takeWord d n (s.part.stream x.stream).running).2)
    exact .ite (placed.trans (Part.commitRecord_poolKept _)) placed

theorem State.writeRecord_poolKept {a : Addr} {d : Word} {n : Nat} {s t : State} (h : s.writeRecord a d n = some t) :
    Part.PoolKept s.part t.part := by
  unfold State.writeRecord at h
  simp only at h
  split at h
  · exact State.acceptWord_poolKept h
  · split at h
    · cases h; exact .of_eq rfl rfl rfl
    · split at h
      · cases h
      · obtain ⟨u, hu, rfl⟩ := Option.map_eq_some_iff.mp h
        exact (State.forward_poolKept hu).trans (.of_eq rfl rfl rfl)

theorem State.classify_poolKept {a : Addr} {d : Word} {n : Nat} {m : Option Mode} {s t : State}
    (h : s.classify a d n m = some t) : Part.PoolKept s.part t.part := by
  unfold State.classify at h
  simp only at h
  split at h
  · exact State.forward_poolKept h
  · cases h; exact .of_eq rfl rfl rfl
  · split at h
    · split at h
      · cases h; exact .of_eq rfl rfl rfl
      · split at h
        · split at h
          · cases h; exact .of_eq rfl rfl rfl
          · obtain ⟨u, hu, rfl⟩ := Option.map_eq_some_iff.mp h
            exact (State.forward_poolKept hu).trans (.of_eq rfl rfl rfl)
        · exact State.forward_poolKept h
    · split at h
      · cases h; exact .of_eq rfl rfl rfl
      · split at h
        · cases h
        · exact State.writeRecord_poolKept h

theorem State.place_poolKept {a : Addr} {d : Word} {n : Nat} {m : Option Mode} {s t : State} {more : List Work}
    (h : s.place a d n m = some (t, more)) : Part.PoolKept s.part t.part := by
  unfold State.place at h
  simp only at h
  split at h
  · have broken := Part.voidAssembly_poolKept n true s.part
    split at h
    · rename_i u hu
      cases h
      exact broken.trans (State.classify_poolKept hu)
    · split at h
      · cases h
      · cases h; exact broken
  · obtain ⟨u, hu, he⟩ := Option.map_eq_some_iff.mp h
    cases he
    exact State.classify_poolKept hu

theorem State.modeRead_poolKept {a : Addr} {s t : State} (h : s.modeRead a = some t) : Part.PoolKept s.part t.part := by
  unfold State.modeRead at h
  simp only at h
  repeat' split at h
  all_goals first
    | cases h; exact .of_eq rfl rfl rfl
    | cases h

theorem State.arriveRead_poolKept (a : Addr) (s : State) : Part.PoolKept s.part (s.arriveRead a).1.part := by
  unfold State.arriveRead
  simp only
  repeat' split
  all_goals exact .of_eq rfl rfl rfl

theorem State.tryWork_poolKept {w : Work} {s t : State} {more : List Work} (h : s.tryWork w = some (t, more)) :
    Part.PoolKept s.part t.part := by
  cases w with
  | write a d dock => cases h; exact Part.arrive_poolKept a d dock s.part
  | gate a d dock => cases h; exact Part.gateWrite_poolKept a d dock s.part
  | read a =>
    have := State.arriveRead_poolKept a s
    rwa [Option.some.inj h] at this
  | police a d m =>
    simp only [State.tryWork, State.police] at h
    split at h
    · cases h
    · cases h; exact .refl _
  | place a d n m => exact State.place_poolKept h
  | modeRead a =>
    obtain ⟨u, hu, he⟩ := Option.map_eq_some_iff.mp h
    cases he
    exact State.modeRead_poolKept hu

theorem State.pump_poolKept (n : Nat) : ∀ s : State, Part.PoolKept s.part (s.pump n).part := by
  induction n with
  | zero => exact fun s => .refl _
  | succ n ih =>
    intro s
    unfold State.pump
    split
    · exact .refl _
    · split
      · exact .refl _
      · rename_i t more ht
        exact (State.tryWork_poolKept ht).trans (ih (t.setWaiting (more ++ _)))

theorem State.settle_poolKept (s : State) : Part.PoolKept s.part s.settle.part := by
  have pumped := State.pump_poolKept (8 * s.port.waiting.length) s
  unfold State.settle
  simp only
  split
  · exact pumped.trans (Part.grantPort_grantOnly _).poolKept
  · exact pumped

end Sys2Proof.Machine

/-! # Proofs: every row keeps the pool -/

namespace Sys2Proof.Machine

/-! ## Rows at which a burst completes -/

theorem Part.endBurst_poolKept (p : Part) : Part.PoolKept p p.endBurst := .of_eq rfl rfl rfl

theorem State.sheetBurst_poolKept (s : State) : Part.PoolKept s.part s.sheetBurst.part :=
  (Part.endBurst_poolKept _).trans (Part.takeSheetBurst_poolKept _ _)

theorem State.fieldBurst_poolKept (dock : Bool) (s : State) : Part.PoolKept s.part (s.fieldBurst dock).part := by
  have ended : Part.PoolKept s.part (s.part.endBurst.setDock dock) := .of_eq rfl rfl rfl
  unfold State.fieldBurst
  dsimp only
  split
  · exact ended.trans (Part.fieldsRead_poolKept _ _ _ _)
  · exact ended

theorem Part.directDone_poolKept (e : DirectEntry) (p : Part) : Part.PoolKept p (p.directDone e) := by
  have written : Part.PoolKept p { p with store := { p.store with direct := p.store.direct.drop 1 } } :=
    .of_store (Store.SameShape.kept ⟨rfl, fun _ => rfl, fun _ => rfl⟩) rfl rfl
  exact (written.trans (.ite (Part.modStream_poolKept _) (.refl _))).trans (.of_eq rfl rfl rfl)

theorem State.writeDirect_poolKept (s : State) : Part.PoolKept s.part s.writeDirect.part := by
  unfold State.writeDirect
  split
  · exact .refl _
  · exact Part.directDone_poolKept _ _

theorem State.writeCondition_poolKept (s : State) : Part.PoolKept s.part s.writeCondition.part := by
  unfold State.writeCondition
  split
  · exact .refl _
  · exact (Part.modSeg_poolKept _).trans (.of_eq rfl rfl rfl)

theorem Part.commitHead_poolKept (e : QueueEntry) (rest : List QueueEntry) (n s : Nat) (p : Part) :
    Part.PoolKept p (p.commitHead e rest n s) := by
  have taken (t : Taken) : Part.PoolKept p
      (Part.noteReceipt p.clock.now { p with queue := { e with taken := some t } :: rest }) := .of_eq rfl rfl rfl
  have burst (t : Taken) (q : Part) : Part.PoolKept q (q.startRecordBurst t) := .of_eq rfl rfl rfl
  exact (((taken _).trans (Part.advanceStream_poolKept _ _ _ _)).trans (Part.slotConsumed_poolKept _ _ _ _ _)).trans
    (burst _ _)

theorem Part.serveHead_poolKept (p : Part) : Part.PoolKept p p.serveHead := by
  unfold Part.serveHead
  split
  · exact .refl p
  · split
    · exact .of_eq rfl rfl rfl
    · split
      · exact Part.commitHead_poolKept _ _ _ _ p
      · exact .ite (.refl p) (Part.needSegment_poolKept _ p)

theorem Part.headWritten_poolKept (p : Part) : Part.PoolKept p p.headWritten := by
  unfold Part.headWritten
  split
  · exact .refl p
  · rename_i rest _
    have left : Part.PoolKept p { p with queue := rest } := .of_eq rfl rfl rfl
    have resumed := left.trans (Part.resumeScanner_only _).poolKept
    exact .ite (.ite (resumed.trans (Part.closeRoute_poolKept _)) resumed) (.refl p)

theorem State.writeRecordBurst_poolKept (s : State) : Part.PoolKept s.part s.writeRecordBurst.part := by
  unfold State.writeRecordBurst
  split
  · exact (Part.endBurst_poolKept _).trans (Part.headWritten_poolKept _)
  · exact .refl _

/-- The blanking position may move anywhere. -/
theorem Part.setBlankPos_poolKept (w : Nat) (p : Part) : Part.PoolKept p (p.setBlankPos w) := by
  cases hb : p.retire.batch with
  | none => exact .of_noBatch (.refl _) (by simp [Part.setBlankPos, hb]) rfl
  | some b =>
    refine ⟨rfl, fun hm hp => ?_⟩
    obtain ⟨h1, h2⟩ := Part.poolSound_state hp hb
    refine (PoolKept.of_batch (p := p) (q := p.setBlankPos w) (c := { b with pos := .word w }) rfl (by simp [Part.setBlankPos, hb]) ⟨h1, h2⟩ rfl
      fun hp => ?_).sound hm hp
    obtain ⟨hn, hl, hc⟩ := (Part.poolSound_iff.mp hp).2.1 b hb
    exact ⟨hn, hl, hc⟩

theorem State.markNext_poolKept (s : State) : Part.PoolKept s.part s.markNext.part := by
  have marked := Part.takeNextSeg_poolKept s.part
  unfold State.markNext
  dsimp only
  split
  · split
    · exact marked.trans (Part.setBlankPos_poolKept _ _)
    · exact marked
  · exact marked

theorem State.blankBurst_poolKept (s : State) : Part.PoolKept s.part s.blankBurst.part := by
  have ended := Part.endBurst_poolKept s.part
  have moved (w : Nat) := (ended.trans (Part.setBlankPos_poolKept w _)).trans (Part.afterLongBurst_poolKept false _)
  unfold State.blankBurst
  dsimp only
  split
  · exact moved _
  · rename_i b _ hb
    split
    · rename_i n w hc _
      exact .ite (moved _) ((ended.trans (Part.segBlanked_poolKept hb hc)).trans (Part.afterLongBurst_poolKept _ _))
    · exact ended
  · exact ended

theorem State.formatBurst_poolKept (s : State) : Part.PoolKept s.part s.formatBurst.part := by
  have ended := Part.endBurst_poolKept s.part
  have staged (st : FormatStage) : Part.PoolKept s.part (s.part.endBurst.setFormatStage st) := .of_retire rfl rfl id rfl
  have moved (st : FormatStage) := (staged st).trans (Part.afterLongBurst_poolKept false _)
  unfold State.formatBurst
  dsimp only
  split
  · exact ended
  · split
    · exact moved _
    · exact moved _
    · exact (ended.trans (Part.formatComplete_poolKept _ _)).trans (Part.afterLongBurst_poolKept true _)

theorem State.verifyBurst_poolKept (s : State) : Part.PoolKept s.part s.verifyBurst.part := by
  have ended := Part.endBurst_poolKept s.part
  unfold State.verifyBurst
  dsimp only
  split
  · exact ended
  · exact ((ended.trans (Part.verifySlot_poolKept _ _ _)).trans (Part.afterLongBurst_poolKept _ _)).trans
      (Part.passCheck_grantOnly _).poolKept

theorem State.scrubBurst_poolKept (s : State) : Part.PoolKept s.part s.scrubBurst.part := by
  have ended := Part.endBurst_poolKept s.part
  unfold State.scrubBurst
  dsimp only
  split
  · exact ended
  · exact ended.trans (Part.scrubSlot_poolKept _ _ _)

/-! ## Rows of the units -/

theorem Part.dockFalls_poolKept (p : Part) : Part.PoolKept p p.dockFalls :=
  have docked : Part.PoolKept p (p.setDock false) := .of_eq rfl rfl rfl
  .ite (docked.trans (Part.leaveService_poolKept _)) docked

theorem Part.joinOutage_poolKept (p : Part) : Part.PoolKept p p.joinOutage := by
  unfold Part.joinOutage
  split
  · exact .refl p
  · exact .ite (PoolKept.trans (q := { p with route := { p.route with outageRecord := none } }) (.of_eq rfl rfl rfl)
      (Part.addRecord_only _ _ _ _).poolKept) (.refl p)

theorem Part.joinOwedRecords_poolKept (p : Part) : Part.PoolKept p p.joinOwedOutage.joinOwedRestart := by
  have outage : Part.PoolKept p p.joinOwedOutage := by
    unfold Part.joinOwedOutage
    split
    · exact .ite (PoolKept.trans (q := { p with backup := { p.backup with outage := none } }) (.of_eq rfl rfl rfl)
        (Part.addRecord_only _ _ _ _).poolKept) (.refl p)
    · exact .refl p
  refine outage.trans ?_
  generalize p.joinOwedOutage = q
  unfold Part.joinOwedRestart
  split
  · exact .ite (PoolKept.trans (q := { q with backup := { q.backup with restart := none } }) (.of_eq rfl rfl rfl)
      (Part.addRecord_only _ _ _ _).poolKept) (.refl q)
  · exact .refl q

theorem Part.scanVisit_poolKept (lines : BitVec 24) (p : Part) : Part.PoolKept p (p.scanVisit lines) := by
  have sampled (scan : Scanner) : Part.PoolKept p { p with pins := { p.pins with lines := lines }, scan := scan } :=
    .of_eq rfl rfl rfl
  unfold Part.scanVisit
  dsimp only
  split
  · exact (sampled _).trans (Part.visit_only _ _ _ _ _).poolKept
  · exact (sampled _).trans (Part.visit_only _ _ _ _ _).poolKept

theorem Part.withheldSummary_only (p : Part) :
    Part.EvidenceOnly p (match p.summaryComp with | some c => p.addSummary c | none => p) := by
  split
  · exact Part.addSummary_only _ p
  · exact .refl p

/-! ## The mount -/

/-- The segment number of a header read is the segment's. -/
theorem Memory.header_number {m : Memory} {n : Nat} {h : Found} (hh : m.header n = some h) : h.number = n := by
  unfold Memory.header at hh
  dsimp only at hh
  split at hh
  · cases hh
  · split at hh
    · cases hh; rfl
    · cases hh

/-- The headers a mount finds, and that a number names one of them. -/
def Memory.headers (m : Memory) (k : Nat) : List Found := ((List.range k).map (· + 1)).filterMap m.header

theorem Memory.headers_unique {m : Memory} {k : Nat} {g h : Found} (hg : g ∈ m.headers k) (hh : h ∈ m.headers k)
    (hn : g.number = h.number) : g = h := by
  obtain ⟨i, -, hi⟩ := List.mem_filterMap.mp hg
  obtain ⟨j, -, hj⟩ := List.mem_filterMap.mp hh
  obtain rfl : i = j := by rw [← Memory.header_number hi, hn, Memory.header_number hj]
  exact Option.some.inj (hi.symm.trans hj)

theorem Memory.headers_range {m : Memory} {k : Nat} {h : Found} (hh : h ∈ m.headers k) :
    1 ≤ h.number ∧ h.number ≤ k := by
  obtain ⟨i, hi, hj⟩ := List.mem_filterMap.mp hh
  obtain ⟨j, hj', rfl⟩ := List.mem_map.mp hi
  rw [Memory.header_number hj]
  have := List.mem_range.mp hj'
  omega

/-- The newest of the segments is one of them. -/
theorem newestOf_mem {hs : List Found} {h : Found} (hh : newestOf hs = some h) : h ∈ hs := by
  have fold : ∀ (hs : List Found) (o : Option Found), hs.foldl Found.newer o = some h → o = some h ∨ h ∈ hs := by
    intro hs
    induction hs with
    | nil => exact fun o ho => .inl ho
    | cons g hs ih =>
      intro o ho
      rcases ih _ ho with hn | hm
      · unfold Found.newer at hn
        split at hn
        · exact .inr (by cases hn; exact List.mem_cons_self)
        · split at hn
          · exact .inr (by cases hn; exact List.mem_cons_self)
          · exact .inl hn
      · exact .inr (List.mem_cons_of_mem _ hm)
  simpa using fold hs none hh

/-- A stream's open segment was read as OPEN, in a header of that stream. -/
theorem openOf_mem {hs : List Found} {st : Stream} {h : Found} (hh : openOf hs st = some h) :
    h ∈ hs ∧ h.stream = st ∧ h.state = .opened := by
  have hn := newestOf_mem (Option.filter_eq_some_iff.mp hh).1
  simp only [ofStream, List.mem_filter, beq_iff_eq] at hn
  exact ⟨hn.1.1, hn.1.2, hn.2⟩

theorem mountStream_openSeg (hs : List Found) (m : Memory) (seed : DWord) (st : Stream) (n : Nat)
    (h : (mountStream hs m seed st).openSeg = some n) : ∃ g, openOf hs st = some g ∧ g.number = n := by
  unfold mountStream at h
  dsimp only at h
  split at h
  · cases h
  · exact Option.map_eq_some_iff.mp h

/-- The store a mount reads is sound (R15, R19, R205). -/
theorem Store.mounted_sound (base : Store) (m x : Memory) :
    (base.mounted (m.headers (base.nSeg - 1)) x).Sound := by
  have shape (n : Nat) : (base.mounted (m.headers (base.nSeg - 1)) x).shape n
      = if n = 0 ∨ base.nSeg - 1 < n then none
        else some ((mountEntry (m.headers (base.nSeg - 1)) x n).state, (mountEntry (m.headers (base.nSeg - 1)) x n).stream) := by
    unfold Store.shape Store.mounted
    cases n with
    | zero => simp
    | succ n =>
      by_cases hn : n < base.nSeg - 1
      · have : ¬ base.nSeg - 1 < n + 1 := by omega
        simp [hn, this]
      · have : base.nSeg - 1 < n + 1 := by omega
        simp [this, Nat.not_lt.mp hn]
  refine ⟨?_, fun n => ?_, fun st n hn => ?_⟩
  · exact (pairwise_lt_range_succ _).filter _
  · unfold Store.stateAt
    rw [shape]
    unfold Store.mounted
    simp only [List.mem_filter, List.mem_map, List.mem_range, beq_iff_eq]
    by_cases hr : n = 0 ∨ base.nSeg - 1 < n
    · rw [if_pos hr]
      simp only [Option.map_none, reduceCtorEq, iff_false, not_and]
      rintro ⟨k, hk, rfl⟩
      omega
    · rw [if_neg hr]
      simp only [Option.map_some, Option.some.injEq, and_iff_right_iff_imp]
      intro _
      exact ⟨n - 1, by omega, by omega⟩
  · obtain ⟨g, hg, rfl⟩ : ∃ g, openOf (m.headers (base.nSeg - 1)) st = some g ∧ g.number = n :=
      mountStream_openSeg _ x base.seed st n (by cases st <;> exact hn)
    obtain ⟨hmem, rfl, hstate⟩ := openOf_mem hg
    have hrange := Memory.headers_range hmem
    have hentry : mountEntry (m.headers (base.nSeg - 1)) x g.number = g.entryOf (m.headers (base.nSeg - 1)) x := by
      unfold mountEntry
      cases hf : (m.headers (base.nSeg - 1)).find? (fun h => h.number == g.number) with
      | none => exact absurd (List.find?_eq_none.mp hf g hmem) (by simp)
      | some h => rw [Memory.headers_unique (List.mem_of_find?_eq_some hf) hmem (by simpa using List.find?_some hf)]
    rw [shape, if_neg (by omega), hentry]
    simp [Found.entryOf, Found.resolved, hstate, hg]

/-! ### The mount's own work: the store and the retire slot alone, since a mount is still in progress -/

/-- The tables are kept and the retire slot is untouched. -/
structure Part.TablesKept (p q : Part) : Prop where
  store : Store.Kept p.store q.store
  retire : q.retire = p.retire

theorem Part.TablesKept.refl (p : Part) : Part.TablesKept p p := ⟨.refl _, rfl⟩

theorem Part.TablesKept.trans {p q r : Part} (h : Part.TablesKept p q) (k : Part.TablesKept q r) :
    Part.TablesKept p r := ⟨h.store.trans k.store, k.retire.trans h.retire⟩

theorem Part.mountAnswer_tablesKept (ans : Answer) (t n s : Nat) (p : Part) :
    Part.TablesKept p (p.mountAnswer ans t n s) := by
  have advanced (chain : DWord) : Part.TablesKept p (p.advanceStream .delivery n chain) :=
    ⟨(Part.advanceStream_sameShape _ _ _ p).kept, (Part.advanceStream_storeOnly _ _ _ p).retire⟩
  have pushed (e : DirectEntry) (q : Part) : Part.TablesKept q (q.pushDirect e) :=
    ⟨Store.SameShape.kept ⟨rfl, fun _ => rfl, fun _ => rfl⟩, rfl⟩
  have consumed (q : Part) : Part.TablesKept q (q.slotConsumed .delivery n s false) :=
    ⟨Part.slotConsumed_kept _ _ _ _ q, (Part.slotConsumed_storeOnly _ _ _ _ q).retire⟩
  exact (((advanced _).trans (pushed _ _)).trans (consumed _)).trans
    ⟨(Part.modSeg_sameShape _).kept, (Part.modSeg_storeOnly _ _ _).retire⟩

theorem Part.answerSpot_tablesKept (n s : Nat) (p : Part) : Part.TablesKept p (p.answerSpot n s).1 := by
  unfold Part.answerSpot
  split
  · exact .refl p
  · split
    · exact .refl p
    · exact ⟨Part.openSegment_kept _ p, (Part.openSegment_storeOnly _ p).retire⟩

theorem Part.completeNewest_tablesKept (hs : List Found) (m : Memory) (p : Part) :
    Part.TablesKept p (p.completeNewest hs m).1 := by
  unfold Part.completeNewest
  split
  · exact .refl p
  · rename_i n s _
    have spot := Part.answerSpot_tablesKept n s p
    dsimp only
    split
    · split
      · rename_i q a b heq
        rw [heq] at spot
        exact spot.trans (Part.mountAnswer_tablesKept _ _ _ _ _)
      · rename_i q heq
        rw [heq] at spot
        exact spot
    · exact .refl p

theorem Part.recoverRoute_tablesKept (m : Memory) (p : Part) : Part.TablesKept p (p.recoverRoute m).1 := by
  cases h : unfinishedRoute (p.recordsOf .event m) with
  | none => simp only [Part.recoverRoute, h]; exact .refl p
  | some found =>
    simp only [Part.recoverRoute, h]
    split
    · exact ⟨.refl _, rfl⟩
    · exact .refl p

theorem Part.clearDirect_tablesKept (p : Part) : Part.TablesKept p p.clearDirect :=
  ⟨Store.SameShape.kept ⟨rfl, fun _ => rfl, fun _ => rfl⟩, rfl⟩

/-- What a mount ends with keeps a sound store sound, where no batch exists. -/
theorem Part.mountEnds_poolSound {p : Part} (hs : p.store.Sound) (hb : p.retire.batch = none) :
    p.mountEnds.poolSound :=
  Part.poolSound_of_noBatch hs hb

/-- The mount of an own store leaves a sound pool, where it began with no batch (R205, R209). -/
theorem Part.mountStore_poolSound {p : Part} (m : Memory) (hb : p.retire.batch = none) :
    (p.mountStore m).part.poolSound := by
  unfold Part.mountStore
  extract_lets hs clock x store q
  have mounted : q.store.Sound := Store.mounted_sound p.store m x.mem
  have completed := Part.completeNewest_tablesKept hs x.mem q
  generalize q.completeNewest hs x.mem = c at completed ⊢
  obtain ⟨r, answered⟩ := c
  have recovered := (completed.trans r.clearDirect_tablesKept).trans
    (Part.recoverRoute_tablesKept (x.mem.writeAll r.directWrites) _)
  dsimp only
  generalize r.clearDirect.recoverRoute (x.mem.writeAll r.directWrites) = c at recovered ⊢
  obtain ⟨t, found⟩ := c
  have hstore : t.store.Sound := (recovered.store mounted).1
  have hretire : t.retire.batch = none := (congrArg _ recovered.retire).trans hb
  have ended (u : Part) (hu : u = if t.store.pool.length ≤ 4 then t.raise causeStoreLow else t) :
      u.store.Sound ∧ u.retire.batch = none := by
    subst hu
    split <;> exact ⟨hstore, hretire⟩
  obtain ⟨us, ur⟩ := ended _ rfl
  have frame := Part.addRecord_only .event .restart (coldRestartBody clock hs store x.voided (x.completed || answered)
    found t.inUseCons) (if t.store.pool.length ≤ 4 then t.raise causeStoreLow else t).mountEnds
  exact Part.poolSound_of_noBatch (by rw [frame.store]; exact us) (by rw [frame.retire]; exact ur)

/-- A mount leaves a sound pool (R203 to R209). -/
theorem State.mount_poolSound {s : State} (hp : s.part.poolSound) (hm : s.part.backup.mounting = true) :
    s.mount.part.poolSound := by
  obtain ⟨hs, -, -, hmount⟩ := Part.poolSound_iff.mp hp
  unfold State.mount
  split
  · exact Part.mountStore_poolSound s.mem (hmount hm)
  · exact Part.poolSound_of_noBatch hs (hmount hm)

/-! ## Restarts -/

theorem Part.restartWindow_poolKept (p : Part) : Part.PoolKept p p.restartWindow := by
  unfold Part.restartWindow
  split
  · rename_i hstate
    cases hb : p.retire.batch with
    | none => exact .of_noBatch (.refl _) rfl rfl
    | some b =>
      refine .of_batch (c := { b with window := true }) rfl rfl ⟨?_, ?_⟩ rfl fun hp => ?_
      · simp [hstate]
      · simp [hstate]
      · obtain ⟨hn, hl, hc⟩ := (Part.poolSound_iff.mp hp).2.1 b hb
        exact ⟨hn, hl, hc⟩
  · exact .refl p

theorem Part.restartMode_poolKept (dock : Bool) (p : Part) : Part.PoolKept p (p.restartMode dock) := by
  have docked : Part.PoolKept p (p.setDock dock) := .of_eq rfl rfl rfl
  have guarded (q : Part) : Part.PoolKept q { q with mode := .guarded } := .of_eq rfl rfl rfl
  exact .ite ((docked.trans (guarded _)).trans (Part.discardCollecting_poolKept _)) docked

theorem Part.restartScrub_poolKept (p : Part) : Part.PoolKept p p.restartScrub := by
  unfold Part.restartScrub
  split
  · exact .refl p
  · exact .of_eq rfl rfl rfl

theorem Part.restartOperation_poolKept (p : Part) : Part.PoolKept p p.restartOperation := by
  unfold Part.restartOperation
  split
  · exact Part.terminateNow_poolKept p
  · rename_i v _
    have vacated (q : Part) : Part.PoolKept q q.vacateVerify := .of_eq rfl rfl rfl
    exact .ite (((Part.abortClaim_poolKept v p).trans (vacated _)).trans (Part.scrubTurn_poolKept _ _))
      (Part.terminateNow_poolKept p)

theorem Part.restartShared_poolKept (dock : Bool) (p : Part) : Part.PoolKept p (p.restartShared dock) := by
  have channel : Part.PoolKept p (Part.restartChannel { p with power := .on }) := .of_eq rfl rfl rfl
  exact (((((channel.trans (Part.voidAssembly_poolKept _ _ _)).trans (Part.restartScrub_poolKept _)).trans
    (Part.restartWindow_poolKept _)).trans (Part.restartMode_poolKept _ _)).trans
    (Part.restartScanner_only _).poolKept).trans (Part.restartOperation_poolKept _)

theorem Part.chargeRestart_poolKept (ended : Ended) (voided : Option (Stream × Nat × Nat)) (p : Part) :
    Part.PoolKept p (p.chargeRestart ended voided) := by
  have charged := (Part.chargeOutage_only (p.clock.now - p.backup.supplyFail) p.chargedComps p).poolKept
  exact charged.trans (.of_eq rfl rfl rfl)

theorem Part.warmRestart_poolKept (dock : Bool) (p : Part) : Part.PoolKept p (p.warmRestart dock) :=
  (((Part.restartShared_poolKept dock p).trans (Part.closeIntervals_only _).poolKept).trans
    (Part.chargeRestart_poolKept _ _ _)).trans (Part.rescheduleScrub_poolKept _)

/-- The store a label gives has no table yet (R203). -/
theorem Label.judge_sound (label : Option Label) : (Label.judge label).2.Sound := by
  have untabled (n code : Nat) (time : Option Nat) (seed : DWord) :
      ({ Store.absent with nSeg := n, sizeCode := code, formatTime := time, seed := seed } : Store).Sound :=
    Store.sound_of_blank (k := 0) rfl rfl fun st => by cases st <;> rfl
  cases label with
  | none => exact untabled _ _ _ _
  | some l =>
    unfold Label.judge
    dsimp only
    split
    · exact untabled _ _ _ _
    · exact untabled _ _ _ _

theorem Part.coldRestart_poolSound (checkFails : Bool) (label : Option Label) (p : Part) :
    (p.coldRestart checkFails label).poolSound :=
  Part.poolSound_of_noBatch (Label.judge_sound label) rfl

end Sys2Proof.Machine

/-! # Proofs: the free pool stays sound at every step -/

namespace Sys2Proof.Machine

/-! ## Every row -/

theorem Part.mounting_of_running {p : Part} (h : p.running = true) : p.backup.mounting = false := by
  simp only [Part.running, Bool.and_eq_true, Bool.not_eq_true'] at h
  exact h.2

theorem Part.PoolKept.running {p q : Part} (h : Part.PoolKept p q) (hr : p.running = true) (hp : p.poolSound) :
    q.poolSound := h.sound (Part.mounting_of_running hr) hp

/-- A row that comes about only while the part runs. -/
theorem Part.poolSound_ite_running {s t : State} {c : Bool} (h : Part.PoolKept s.part t.part) (hp : s.part.poolSound) :
    (if s.part.running && c then t else s).part.poolSound := by
  split
  · rename_i hr
    exact h.running (Bool.and_eq_true_iff.mp hr).1 hp
  · exact hp

/-- A row of that kind after which what can now happen happens (R22, R26). -/
theorem State.poolSound_ite_settled {s t : State} {c : Bool} (h : Part.PoolKept s.part t.part) (hp : s.part.poolSound) :
    (if s.part.running && c then t.settle else s).part.poolSound :=
  Part.poolSound_ite_running (h.trans (State.settle_poolKept t)) hp

theorem State.poolSound_ite_part {s : State} {q : Part} (h : Part.PoolKept s.part q) (hp : s.part.poolSound) :
    (if s.part.running then { s with part := q } else s).part.poolSound := by
  split
  · exact h.running ‹_› hp
  · exact hp

/-- A change within the frame keeps the pool sound also while a mount is in progress. -/
theorem Part.poolSound_of_eq {p q : Part} (hs : q.store = p.store) (hr : q.retire = p.retire)
    (hm : q.backup.mounting = p.backup.mounting) (hp : p.poolSound) : q.poolSound := by
  rw [Part.poolSound_iff] at hp ⊢
  rwa [hs, hr, hm]

theorem State.access_poolSound (w : Work) {s : State} (hp : s.part.poolSound) : (s.access w).part.poolSound := by
  unfold State.access
  dsimp only
  split
  · exact (State.settle_poolKept (s.setWaiting (s.port.waiting ++ [w]))).running ‹_› hp
  · split <;> exact hp

theorem State.giveCommand_poolSound (a : Addr) (c : Command) (ps : List Word) (dock : Bool) {s : State}
    (hp : s.part.poolSound) : (s.giveCommand a c ps dock).part.poolSound := by
  have fold : ∀ (ds : List Word) (t : State), t.part.poolSound →
      (ds.foldl (fun s d => s.access (.write a d dock)) t).part.poolSound := by
    intro ds
    induction ds with
    | nil => exact fun t ht => ht
    | cons d ds ih => exact fun t ht => ih _ (State.access_poolSound _ ht)
  exact fold _ { s with part := s.part.setDock dock } hp

theorem State.mount_mounting (s : State) : s.mount.part.backup.mounting = false := by
  unfold State.mount
  split
  · exact congrArg Backup.mounting (Part.addRecord_only _ _ _ _).backup
  · rfl

theorem Part.advanceClock_poolSound {p : Part} (hp : p.poolSound) : p.advanceClock.poolSound := by
  unfold Part.advanceClock
  dsimp only
  split <;> exact Part.poolSound_of_eq (p := p) rfl rfl rfl hp

theorem State.stop_poolSound (cut : Cut) (power : Power) {s : State} (hp : s.part.poolSound) :
    (s.stop cut power).part.poolSound := Part.poolSound_of_eq rfl rfl rfl hp

theorem State.poolSound_ite {c : Prop} [Decidable c] {s t : State} (hs : s.part.poolSound) (ht : t.part.poolSound) :
    (if c then s else t).part.poolSound := by
  split
  · exact hs
  · exact ht

/-- A restart that finds no mount in progress, and then serves what waits (R199, R200). -/
theorem State.restarted_poolSound {s : State} {q : Part} (h : Part.PoolKept s.part q)
    (hm : s.part.backup.mounting = false) (hp : s.part.poolSound) :
    (State.settle { s with mem := s.restartMem, part := q }).part.poolSound :=
  (h.trans (State.settle_poolKept { s with mem := s.restartMem, part := q })).sound hm hp

/-- Every row keeps the pool sound (R15, R19, R179). -/
theorem exec_poolSound {i : Instr} {s t : State} (h : exec i s = .next t) (hp : s.part.poolSound) :
    t.part.poolSound := by
  cases hg : s.given i with
  | some g =>
    obtain ⟨a, c, ps, dock⟩ := g
    rw [(State.exec_given hg).1] at h
    cases h
    exact State.giveCommand_poolSound a c ps dock hp
  | none =>
    cases i <;> simp only [State.given, reduceCtorEq] at hg
    case upstreamWrite a d dock =>
      cases h
      exact State.access_poolSound _ (Part.poolSound_of_eq (q := s.part.setDock dock) rfl rfl rfl hp)
    case upstreamRead a => cases h; exact State.access_poolSound _ hp
    case routeLoadReadBurst => cases h; exact State.poolSound_ite_settled (State.sheetBurst_poolKept s) hp
    case serviceEnterReadEnd dock => cases h; exact State.poolSound_ite_settled (State.fieldBurst_poolKept dock s) hp
    case directWriteComplete => cases h; exact State.poolSound_ite_settled (State.writeDirect_poolKept s) hp
    case conditionRewrite => cases h; exact State.poolSound_ite_settled (State.writeCondition_poolKept s) hp
    case recordWriterWriteComplete => cases h; exact State.poolSound_ite_settled (State.writeRecordBurst_poolKept s) hp
    case blankingMark => cases h; exact State.poolSound_ite_settled (State.markNext_poolKept s) hp
    case blankingBurst => cases h; exact State.poolSound_ite_settled (State.blankBurst_poolKept s) hp
    case formatBurst => cases h; exact State.poolSound_ite_settled (State.formatBurst_poolKept s) hp
    case verifyBurst => cases h; exact State.poolSound_ite_settled (State.verifyBurst_poolKept s) hp
    case scrubBurst => cases h; exact State.poolSound_ite_settled (State.scrubBurst_poolKept s) hp
    case recordWriterServe => cases h; exact State.poolSound_ite_settled (Part.serveHead_poolKept s.part) hp
    case collectionWindowExpiry => cases h; exact State.poolSound_ite_settled (Part.windowExpires_poolKept s.part) hp
    case verifyStart => cases h; exact State.poolSound_ite_settled (Part.slotsChanged_poolKept false s.part) hp
    case extractRecordAdd => cases h; exact State.poolSound_ite_settled (Part.extractStep_poolKept s.part) hp
    case scrubStepDue => cases h; exact State.poolSound_ite_settled (Part.stepDue_poolKept s.part) hp
    case routeEndRecordJoin => cases h; exact State.poolSound_ite_part (Part.joinRouteEnd_poolKept s.part) hp
    case outageRecordJoin => cases h; exact State.poolSound_ite_part (Part.joinOutage_poolKept s.part) hp
    case restartRecordsJoin => cases h; exact State.poolSound_ite_part (Part.joinOwedRecords_poolKept s.part) hp
    case withheldSummary =>
      cases h
      exact State.poolSound_ite_part (.ite (Part.withheldSummary_only s.part).poolKept (.refl _)) hp
    case gapTimerExpiry c =>
      cases h
      exact State.poolSound_ite_part (.ite (Part.expireGapTimer_only c s.part).poolKept (.refl _)) hp
    case continuousExcursionDeadline i =>
      cases h
      exact State.poolSound_ite_part (.ite (Part.expireDeadline_only i s.part).poolKept (.refl _)) hp
    case scanVisit lines =>
      cases h
      exact State.poolSound_ite_part (.ite (Part.scanVisit_poolKept lines s.part) (.refl _)) hp
    case lineWatchSample lines => cases h; exact State.poolSound_ite_part (.ite (.of_eq rfl rfl rfl) (.refl _)) hp
    case dwell => cases h; exact State.poolSound_ite_part (.ite (Part.dwellStep_only s.part).poolKept (.refl _)) hp
    case dockFall =>
      cases h
      split
      · exact ((Part.dockFalls_poolKept s.part).trans (State.settle_poolKept { s with part := s.part.dockFalls })).running
          ‹_› hp
      · exact Part.poolSound_of_eq (q := s.part.setDock false) rfl rfl rfl hp
    case resetAssert cut => cases h; exact State.poolSound_ite (State.stop_poolSound cut _ hp) hp
    case supplyFail cut =>
      cases h
      exact State.poolSound_ite hp (Part.poolSound_of_eq (p := s.part) rfl rfl rfl hp)
    case reset dock =>
      cases h
      split
      · rename_i hg
        exact State.restarted_poolSound (Part.restartShared_poolKept dock s.part) (by simpa using hg.2) hp
      · exact hp
    case warmRestart dock =>
      cases h
      split
      · rename_i hg
        exact State.restarted_poolSound (Part.warmRestart_poolKept dock s.part) (by simpa using hg.2.2) hp
      · exact hp
    case coldRestart checkFails => cases h; exact State.poolSound_ite (Part.coldRestart_poolSound _ _ s.part) hp
    case mountEnd =>
      cases h
      split
      · rename_i hg
        exact (State.settle_poolKept { s with mem := s.mem.writeAll s.mount.writes, part := s.mount.part }).sound
          s.mount_mounting (State.mount_poolSound hp hg.2)
      · exact hp
    case routeClockAdvance =>
      cases h
      exact State.poolSound_ite (Part.advanceClock_poolSound hp) hp
    case backupDomainLoss =>
      cases h
      exact State.poolSound_ite (Part.poolSound_of_noBatch Store.absent_sound rfl) hp

/-- Settles O7: every row keeps the pool sound, a mount builds it anew and a cold restart empties it. -/
theorem everyStepKeepsThePoolAscending : Obligations.EveryStepKeepsThePoolAscending := by
  intro s t hs h
  obtain rfl | ⟨c, rest, -, hx⟩ := step_cases h
  · exact hs
  · exact exec_poolSound hx hs

end Sys2Proof.Machine

/-! # Proofs: record frames, and the opening of a segment (R5, R7, R16, R21) -/

namespace Sys2Proof.Machine

/-! ## Record frames -/

@[simp] theorem words32_length (n : Nat) : (words32 n).length = 2 := rfl

@[simp] theorem dwords_length (v : DWord) : (dwords v).length = 2 := rfl

@[simp] theorem padTo_length (n : Nat) (ws : List Word) : (padTo n ws).length = n := by
  unfold padTo
  rw [List.length_take, List.length_append, List.length_replicate]
  omega

/-- A list that is long enough already is cut, one that has the length is kept. -/
theorem padTo_of_length {n : Nat} {ws : List Word} (h : ws.length = n) : padTo n ws = ws := by
  unfold padTo
  rw [List.take_append_of_le_length (by omega), List.take_of_length_le (by omega)]

@[simp] theorem recordHead_length (k : Kind) (body : List Word) (t : Nat) : (recordHead k body t).length = 14 := by
  simp [recordHead]

@[simp] theorem recordWords_length (k : Kind) (body : List Word) (t : Nat) (seed : DWord) :
    (recordWords k body t seed).length = 16 := by
  simp [recordWords]

/-- The chain covers the first 14 words alone (R7). -/
theorem recordChain_append {ws : List Word} (h : ws.length = 14) (seed : DWord) (more : List Word) :
    recordChain seed (ws ++ more) = recordChain seed ws := by
  unfold recordChain chainInput
  rw [List.take_append_of_le_length (by omega)]

@[simp] theorem recordChain_recordWords (k : Kind) (body : List Word) (t : Nat) (seed seed' : DWord) :
    recordChain seed (recordWords k body t seed') = recordChain seed (recordHead k body t) :=
  recordChain_append (recordHead_length k body t) _ _

/-- A record's words 14 and 15 hold its chain value (R4). -/
@[simp] theorem recordChainField_recordWords (k : Kind) (body : List Word) (t : Nat) (seed : DWord) :
    recordChainField (recordWords k body t seed) = recordChain seed (recordHead k body t) := by
  have hlen := recordHead_length k body t
  have word (i : Nat) : wordAt (recordWords k body t seed) (14 + i)
      = (dwords (recordChain seed (recordHead k body t))).getD i blank := by
    unfold wordAt recordWords
    rw [List.getD_append_right _ _ _ _ (by omega), hlen, Nat.add_sub_cancel_left]
  unfold recordChainField dwordAt
  rw [word 0, word 1]
  exact joinD_words _

/-! ## Opening a segment -/

/-- What a stream's segment is taken with: the state of the part after R21. -/
theorem Part.openSegment_cons {p : Part} {n : Nat} {rest : List Nat} (h : p.store.pool = n :: rest) (st : Stream) :
    p.openSegment st = (Part.raiseStoreLow { p with store := { p.store with pool := rest } }).openTaken st n := by
  unfold Part.openSegment
  rw [h]

theorem Part.raiseStoreLow_eq (p : Part) :
    p.raiseStoreLow = { p with attention := if p.store.pool.length ≤ 4 then p.attention ||| causeStoreLow else p.attention } := by
  unfold Part.raiseStoreLow
  split <;> rfl

/-- The 14 words of the header of the stream's next segment (R21). -/
theorem recordHead_header (st : Stream) (seq : BitVec 16) (first entry : DWord) (t : Nat) :
    recordHead .header (headerBody st seq first entry t) t
      = [0xC510, 1, st.code, seq] ++ dwords first ++ dwords entry ++ words32 t ++ [blank, blank] ++ words32 t := by
  cases st <;> rfl

/-- The state and the words after `openTaken`, in which the header's chain is that of its 14 words (R7). -/
theorem Part.openTaken_eq (st : Stream) (n : Nat) (p : Part) :
    p.openTaken st (n + 1) =
      let e := p.store.streams.get st
      let now := p.clock.now
      let head : List Word := [0xC510, 1, st.code, e.nextSeq] ++ dwords e.nextRec ++ dwords e.running ++ words32 now
        ++ [blank, blank] ++ words32 now
      let chain := recordChain e.running head
      { p with
        clock := { p.clock with floor := max p.clock.floor now }
        store := { p.store with
          segs := p.store.segs.modify n (fun _ =>
            { state := .opened, stream := some st, segSeq := some e.nextSeq, openTime := some now, closeTime := none,
              firstRec := some e.nextRec, count := some 0, entryChain := some e.running, exitChain := none, holds := 0,
              owed := .none })
          streams := p.store.streams.set st
            { e with openSeg := some (n + 1), append := some 1, nextSeq := e.nextSeq + 1, running := chain, stalled := false }
          direct := p.store.direct ++ [{ kind := .header, seg := n + 1, slot := 0, words := head ++ dwords chain }] } } := by
  unfold Part.openTaken
  simp only [recordChain_recordWords]
  unfold recordWords
  simp only [recordHead_header]
  rfl

/-- Which streams may take a segment (R16, R35), by the stream and the assembly. -/
theorem Part.mayTake_iff (p : Part) (st : Stream) :
    p.mayTake st = true ↔ (p.mode = .guarded ∨ p.mode = .service)
      ∧ (if st = .event ∨ st = .delivery then 1 ≤ p.blankFor st else 3 ≤ p.blankFor st) := by
  unfold Part.mayTake Part.hasExtent
  rw [Bool.and_eq_true, Bool.or_eq_true, beq_iff_eq, beq_iff_eq]
  cases st <;> simp

/-- Settles O9: the opening is `openTaken` on the pool without its head, and who may take is read off the stream. -/
theorem openingTakesTheLowestBlankSegment : Obligations.OpeningTakesTheLowestBlankSegment := by
  refine ⟨fun st n rest p hpool => ?_, fun st p => ?_⟩
  · rw [Part.openSegment_cons hpool, Part.raiseStoreLow_eq, Part.openTaken_eq]
  · rw [Part.mayTake_iff]
    unfold Part.blankFor
    cases p.asm with
    | none => exact Iff.rfl
    | some a => simp only [Bool.and_eq_true, bne_iff_ne]

end Sys2Proof.Machine

/-! # Proofs: the last slot of a segment, and the part with a direct write waiting (R12, R16, R22, R23) -/

namespace Sys2Proof.Machine

/-! ## A direct write that waits holds requesters 3 and 4 back (R46) -/

theorem Part.atRest_of_req2Waiting {p : Part} (h : p.req2Waiting = true) : p.atRest = true := by
  simp [Part.atRest, h]

theorem Part.grantPort_of_req2Waiting {p : Part} (h : p.req2Waiting = true) : p.grantPort = p :=
  Part.grantPort_atRest (Part.atRest_of_req2Waiting h)

theorem Part.req2Waiting_of_direct {p : Part} (h : p.store.direct ≠ []) : p.req2Waiting = true := by
  cases hd : p.store.direct with
  | nil => exact absurd hd h
  | cons e rest => simp [Part.req2Waiting, hd]

theorem Part.grantPort_of_direct {p : Part} (h : p.store.direct ≠ []) : p.grantPort = p :=
  Part.grantPort_of_req2Waiting (Part.req2Waiting_of_direct h)

theorem Part.mayTake_pool {p : Part} {st : Stream} (h : p.mayTake st = true) : p.store.pool ≠ [] := by
  have hle : p.blankFor st ≤ p.store.pool.length := by
    unfold Part.blankFor
    split
    · split <;> omega
    · exact le_refl _
  have hpos : 1 ≤ p.blankFor st := by
    have := ((Part.mayTake_iff p st).mp h).2
    split at this <;> omega
  exact List.ne_nil_of_length_pos (by omega)

/-- A segment that is opened leaves its header on the direct write list. -/
theorem Part.openSegment_direct {p : Part} {st : Stream} (h : p.store.pool ≠ []) : (p.openSegment st).store.direct ≠ [] := by
  cases hpool : p.store.pool with
  | nil => exact absurd hpool h
  | cons n rest =>
    rw [Part.openSegment_cons hpool]
    exact List.append_ne_nil_of_right_ne_nil _ (List.cons_ne_nil _ _)

theorem Part.grantPort_openSegment {p : Part} {st : Stream} (h : p.mayTake st = true) :
    (p.openSegment st).grantPort = p.openSegment st :=
  Part.grantPort_of_direct (Part.openSegment_direct (Part.mayTake_pool h))

/-! ## `slotConsumed`, by the branch it takes -/

@[simp] theorem Part.modSeg_succ (n : Nat) (f : SegEntry → SegEntry) (p : Part) :
    p.modSeg (n + 1) f = { p with store := { p.store with segs := p.store.segs.modify n f } } := rfl

theorem Part.modSeg_pos {n : Nat} (h : 1 ≤ n) (f : SegEntry → SegEntry) (p : Part) :
    p.modSeg n f = { p with store := { p.store with segs := p.store.segs.modify (n - 1) f } } :=
  if_neg (by omega)

theorem Part.slotConsumed_below {st : Stream} {n k : Nat} {p : Part} (h : (p.store.streams.get st).openSeg = some n)
    (hk : k < 1023) (needs : Bool) :
    p.slotConsumed st n k needs = p.modStream st (fun e => { e with append := some (k + 1) }) := by
  unfold Part.slotConsumed
  exact (if_pos h).trans (if_neg (by omega))

theorem Part.slotConsumed_last {st : Stream} {n k : Nat} {p : Part} (h : (p.store.streams.get st).openSeg = some n)
    (hk : 1023 ≤ k) (needs : Bool) :
    p.slotConsumed st n k needs = if needs then (p.closeSegment st n).needSegment st else p.closeSegment st n := by
  unfold Part.slotConsumed
  exact (if_pos h).trans (if_pos hk)

theorem Part.slotConsumed_closed {st : Stream} {n : Nat} {p : Part} (h : (p.store.streams.get st).openSeg ≠ some n)
    (k : Nat) (needs : Bool) :
    p.slotConsumed st n k needs = p.modSeg n (fun e => { e with exitChain := some (p.stream st).running }) := by
  unfold Part.slotConsumed
  exact if_neg h

theorem Part.needSegment_waits {st : Stream} {p : Part} (h : (p.formatRunning || p.needWaits st) = true) :
    p.needSegment st = p := if_pos h

theorem Part.needSegment_goes {st : Stream} {p : Part} (h : (p.formatRunning || p.needWaits st) = false) :
    p.needSegment st = if p.mayTake st then p.openSegment st else p.stall st := by
  unfold Part.needSegment
  rw [h]
  rfl

/-- A record of the stream is under assembly. -/
def Part.assembles (p : Part) (st : Stream) : Bool :=
  match p.asm with
  | some a => a.stream == st
  | none => false

/-- The need of a stream without an open segment waits for its record under assembly. -/
theorem Part.needWaits_eq {p : Part} {st : Stream} (h : (p.store.streams.get st).openSeg = none) :
    p.needWaits st = p.assembles st := by
  unfold Part.needWaits Part.assembles Part.stream
  rw [h]
  cases p.asm <;> simp

theorem Part.formatRunning_iff (p : Part) : p.formatRunning = true ↔ p.retire.state = .formatRunning := by
  rw [Part.formatRunning, beq_iff_eq]

theorem Part.closeSegment_eq (st : Stream) (n : Nat) (p : Part) :
    p.closeSegment st (n + 1) = { p with store := { p.store with
      segs := p.store.segs.modify n (fun g =>
        { g with state := .closed, closeTime := some p.clock.now, exitChain := some (p.store.streams.get st).running,
                 owed := .closed })
      streams := p.store.streams.set st { p.store.streams.get st with openSeg := none, append := none } } } := rfl

/-- Closing leaves who may take a segment as it was. -/
theorem Part.mayTake_closeSegment (st st' : Stream) (n : Nat) (p : Part) :
    (p.closeSegment st n).mayTake st' = p.mayTake st' := by
  cases n <;> rfl

@[simp] theorem Streams.set_set (t : Streams) (st : Stream) (e f : StreamEntry) : (t.set st e).set st f = t.set st f := by
  cases st <;> rfl

theorem Part.slotConsumed_cases (st : Stream) (n k : Nat) (needs : Bool) (p : Part) :
      let e := p.store.streams.get st
      let closed := p.closeSegment st (n + 1)
      let waits := p.retire.state = .formatRunning ∨ p.assembles st = true
      (e.openSeg = some (n + 1) → 1023 ≤ k → (needs = false ∨ waits) → p.slotConsumed st (n + 1) k needs = closed)
      ∧ (e.openSeg = some (n + 1) → 1023 ≤ k → needs = true → ¬waits → p.mayTake st = true →
        p.slotConsumed st (n + 1) k needs = closed.openSegment st)
      ∧ (e.openSeg = some (n + 1) → 1023 ≤ k → needs = true → ¬waits → p.mayTake st = false →
        p.slotConsumed st (n + 1) k needs = closed.stall st) := by
  intro e closed waits
  have hclosed : (closed.store.streams.get st).openSeg = none := by simp [closed, Part.closeSegment_eq]
  have need : (closed.formatRunning || closed.needWaits st) = true ↔ waits := by
    rw [Part.needWaits_eq hclosed, Bool.or_eq_true, Part.formatRunning_iff]
    exact Iff.rfl
  have goes (h : ¬waits) : closed.needSegment st = if p.mayTake st then closed.openSegment st else closed.stall st := by
    rw [Part.needSegment_goes (Bool.eq_false_iff.mpr (mt need.mp h)), Part.mayTake_closeSegment]
  refine ⟨fun h hk hn => ?_, fun h hk hn hw hm => ?_, fun h hk hn hw hm => ?_⟩
  · rw [Part.slotConsumed_last h hk]
    split
    · exact Part.needSegment_waits (need.mpr (hn.resolve_left (by simp [*])))
    · rfl
  · rw [Part.slotConsumed_last h hk, if_pos hn, goes hw, if_pos hm]
  · rw [Part.slotConsumed_last h hk, if_pos hn, goes hw, if_neg (by simp [hm])]

theorem Part.stall_eq (st : Stream) (p : Part) : p.stall st = { p with
    attention := p.attention ||| causeStoreFull
    store := { p.store with streams := p.store.streams.set st { p.store.streams.get st with stalled := true } } } := rfl

end Sys2Proof.Machine

/-! # Proofs: WHERE (R66) -/

namespace Sys2Proof.Machine

/-! ## What a stall leaves to the arbiter -/

theorem Part.mayTake_stall (st st' : Stream) (p : Part) : (p.stall st).mayTake st' = p.mayTake st' := rfl

/-- A stream that may not take a segment can be stalled without a change of what the record writer can serve. -/
theorem Part.headServable_stall {st : Stream} {p : Part} (h : p.mayTake st = false) :
    (p.stall st).headServable = p.headServable := by
  unfold Part.headServable
  have queue : (p.stall st).queue = p.queue := rfl
  rw [queue]
  cases p.queue with
  | nil => rfl
  | cons e rest =>
    have running : (p.stall st).formatRunning = p.formatRunning := rfl
    simp only [running, Part.mayTake_stall]
    by_cases hst : e.stream = st
    · have stalled : ((p.stall st).stream e.stream).openSeg = (p.stream e.stream).openSeg := by
        simp [hst, Part.stream, Part.stall_eq]
      rw [stalled, hst, h]
      simp
    · have same : (p.stall st).stream e.stream = p.stream e.stream := by
        simp [Part.stream, Part.stall_eq, Streams.get_set_ne, hst]
      rw [same]

theorem Part.atRest_stall {st : Stream} {p : Part} (h : p.mayTake st = false) : (p.stall st).atRest = p.atRest := by
  have waiting : (p.stall st).req2Waiting = p.req2Waiting := by
    unfold Part.req2Waiting
    rw [Part.headServable_stall h]
    rfl
  unfold Part.atRest
  rw [waiting]
  rfl

/-! ## The command -/

/-- A RUNNING command that waits for no burst leaves the arbiter at rest. -/
theorem Part.atRest_waitsFor {p : Part} {a : Addr} {c : Command} {ps : List Word} {st : Stream}
    (h : p.chan.running = none) (hr : p.atRest = true) : (p.waitsFor a c ps (.whereIs st)).atRest = true := by
  have none_ : p.readBurst = none := by simp [Part.readBurst, h]
  have grant : (p.waitsFor a c ps (.whereIs st)).lowGrant = p.lowGrant := by
    unfold Part.lowGrant
    rw [none_]
    rfl
  unfold Part.atRest at hr ⊢
  rw [grant]
  exact hr

theorem Part.atRest_presents {p : Part} (a : Addr) (c : Command) (ps : List Word) (st : CmdState) (o : CmdOutcome)
    (rs : List Word) (hr : p.atRest = true) : ({ p with chan := p.presents a c ps st o rs } : Part).atRest = true := by
  rw [Part.atRest_chan p p.pins _ (Part.presents_work p a c ps st o rs)]
  exact hr

/-- WHERE on a part that admits it is what it carries out. -/
theorem State.where_completes {s : State} (h : s.FreeInStore) (a : Addr) (w : Word) {q : Part}
    (hq : (s.part.taken a .whereIs [w] s.part.pins.dock).cmdWhere w = q) (hr : q.atRest = true) :
    exec (.whereIs a w) s = .next { s with part := q } := by
  obtain ⟨⟨hready, hrun⟩, hmode⟩ := h
  refine State.command_completes hready rfl (.inr hrun) ?_ rfl hq hr
  rcases hmode with hm | hm <;> rw [hm] <;> rfl

/-- Only the four stream codes name a stream. -/
theorem Stream.ofCode_big {w : Word} (h : 3 < w.toNat) : Stream.ofCode w = none := by
  have ne (k : Word) (hk : k.toNat ≤ 3) : w ≠ k := by rintro rfl; omega
  unfold Stream.ofCode
  rw [if_neg (ne 0 (by decide)), if_neg (ne 1 (by decide)), if_neg (ne 2 (by decide)), if_neg (ne 3 (by decide))]

theorem Stream.ofCode_code (st : Stream) : Stream.ofCode st.code = some st := by
  cases st <;> decide

theorem Part.cmdWhere_known {p : Part} {st : Stream} (h : p.retire.state ≠ .formatRunning) :
    p.cmdWhere st.code = if !(p.stream st).stalled && (p.stream st).openSeg.isNone && p.needWaits st
      then p.startRunning (.whereIs st) else p.decideWhere st Part.conclude := by
  unfold Part.cmdWhere
  rw [if_neg (by simpa [Part.formatRunning] using h), Stream.ofCode_code]

/-- Steps 2 to 4 of R66 for a stream with an open segment. -/
theorem Part.decideWhere_open {p : Part} {st : Stream} (h : (p.stream st).stalled = false)
    (ho : (p.stream st).openSeg.isSome = true) (finish : CmdState → CmdOutcome → List Word → Part → Part) :
    p.decideWhere st finish = finish .done .ok (p.whereResults st) p := by
  unfold Part.decideWhere
  simp [h, ho]

theorem Part.decideWhere_stalled {p : Part} {st : Stream} (h : (p.stream st).stalled = true)
    (finish : CmdState → CmdOutcome → List Word → Part → Part) :
    p.decideWhere st finish = finish .refused .storeFull [] p := by
  unfold Part.decideWhere
  simp [h]

theorem Part.openSegment_stream {p : Part} {st : Stream} (h : p.store.pool ≠ []) :
    ∃ n, ((p.openSegment st).stream st).openSeg = some n ∧ ((p.openSegment st).stream st).append = some 1 := by
  cases hpool : p.store.pool with
  | nil => exact absurd hpool h
  | cons n rest => exact ⟨n, by simp [Part.openSegment_cons hpool, Part.openTaken, Part.stream]⟩

/-- A stream without an open segment is first given one, or stalled. -/
theorem Part.decideWhere_needs {p : Part} {st : Stream} (h : (p.stream st).stalled = false)
    (ho : (p.stream st).openSeg = none) (hw : (p.formatRunning || p.needWaits st) = false)
    (finish : CmdState → CmdOutcome → List Word → Part → Part) :
    p.decideWhere st finish = if p.mayTake st then finish .done .ok ((p.openSegment st).whereResults st) (p.openSegment st)
      else finish .refused .storeFull [] (p.stall st) := by
  have need := Part.needSegment_goes hw
  unfold Part.decideWhere
  rw [if_neg (by simp [h]), ho, need]
  by_cases hm : p.mayTake st = true
  · obtain ⟨n, hn, -⟩ := Part.openSegment_stream (st := st) (Part.mayTake_pool hm)
    simp [hm, hn]
  · have closed : ((p.stall st).stream st).openSeg = none := by simpa [Part.stream, Part.stall_eq] using ho
    simp [hm, closed]

/-- Opening a segment looks at nothing of the command channel or the pins, and changes nothing of them. -/
theorem Part.openSegment_chan (p : Part) (pins : Pins) (ch : Channel) (st : Stream) :
    ({ p with pins := pins, chan := ch } : Part).openSegment st = { p.openSegment st with pins := pins, chan := ch } := by
  unfold Part.openSegment
  dsimp only
  cases p.store.pool with
  | nil => rfl
  | cons n rest =>
    dsimp only
    rw [Part.raiseStoreLow_eq, Part.raiseStoreLow_eq]
    cases n <;> rfl

section
variable {p : Part} {st : Stream} (hf : p.retire.state ≠ .formatRunning)
include hf

theorem Part.cmdWhere_stalled (h : (p.stream st).stalled = true) :
    p.cmdWhere st.code = p.conclude .refused .storeFull [] := by
  rw [Part.cmdWhere_known hf, if_neg (by simp [h]), Part.decideWhere_stalled h]

theorem Part.cmdWhere_open (h : (p.stream st).stalled = false) {n : Nat} (ho : (p.stream st).openSeg = some n) :
    p.cmdWhere st.code = p.conclude .done .ok (p.whereResults st) := by
  rw [Part.cmdWhere_known hf, if_neg (by simp [ho]), Part.decideWhere_open h (by simp [ho])]

theorem Part.cmdWhere_waits (h : (p.stream st).stalled = false) (ho : (p.stream st).openSeg = none)
    (hw : p.assembles st = true) : p.cmdWhere st.code = p.startRunning (.whereIs st) := by
  rw [Part.cmdWhere_known hf, if_pos (by simp [h, ho, Part.needWaits_eq ho, hw])]

theorem Part.cmdWhere_needs (h : (p.stream st).stalled = false) (ho : (p.stream st).openSeg = none)
    (hw : p.assembles st = false) : p.cmdWhere st.code =
      if p.mayTake st then (p.openSegment st).conclude .done .ok ((p.openSegment st).whereResults st)
      else (p.stall st).conclude .refused .storeFull [] := by
  have wait : p.needWaits st = false := (Part.needWaits_eq ho).trans hw
  rw [Part.cmdWhere_known hf, if_neg (by simp [wait]), Part.decideWhere_needs h ho]
  simpa [wait, Part.formatRunning] using hf

end

/-- The five result words of WHERE, for the stream's open segment (R66). -/
theorem Part.whereResults_open {p : Part} {st : Stream} {n k : Nat} (ho : (p.stream st).openSeg = some n)
    (hk : (p.stream st).append = some k) :
    p.whereResults st = words32 (n * 16384 + 16 * k) ++ words32 (p.stream st).nextRec.toNat ++ [BitVec.ofNat 16 n] := by
  unfold Part.whereResults
  dsimp only
  rw [ho, hk]
  rfl

theorem Part.openSegment_taken (st : Stream) (p : Part) (a : Addr) (c : Command) (ps : List Word) (dock : Bool) :
    (p.taken a c ps dock).openSegment st = (p.openSegment st).taken a c ps dock := by
  have frame := Part.openSegment_storeOnly st p
  have opened := Part.openSegment_chan p { p.pins with dock := dock } (p.presents a c ps .running .ok []) st
  have pins : ({ p.pins with dock := dock } : Pins) = { (p.openSegment st).pins with dock := dock } := by rw [frame.pins]
  have chan : p.presents a c ps .running .ok [] = (p.openSegment st).presents a c ps .running .ok [] := by
    unfold Part.presents
    rw [frame.chan]
  unfold Part.taken
  rw [opened, pins, chan]

/-- Settles O27: the branches of `cmdWhere`, each with the arbiter at rest after it. -/
theorem whereFindsOrOpensTheSegment : Obligations.WhereFindsOrOpensTheSegment := by
  intro a w st n k s hs p mine e answer
  obtain ⟨⟨⟨hquiet, hgate, hrest⟩, hrun⟩, hmode⟩ := hs
  have completes {q : Part} := State.where_completes (q := q) ⟨⟨⟨hquiet, hgate, hrest⟩, hrun⟩, hmode⟩ a w
  have answers {q : Part} {n k : Nat} (ho : (q.stream st).openSeg = some n) (hk : (q.stream st).append = some k) :
      answer q = q.answered a .whereIs [w] (q.whereResults st) := by
    rw [Part.whereResults_open ho hk]
    simp only [Part.stream] at ho hk
    simp only [answer, Part.stream, ho, hk]
  refine ⟨fun hf => ?_, fun hf hw => ?_, fun hf hw hs => ?_, fun hf hw hs ho hk => ?_, fun hf hw hs ho hm => ?_,
    fun hf hw hs ho hm ht => ?_, fun hf hw hs ho hm ht => ?_⟩
  · refine completes ?_ (Part.atRest_presents _ _ _ _ _ _ hrest)
    unfold Part.cmdWhere
    rw [if_pos (by simpa [Part.formatRunning, Part.taken] using hf)]
    rfl
  · refine completes ?_ (Part.atRest_presents _ _ _ _ _ _ hrest)
    unfold Part.cmdWhere
    rw [if_neg (by simpa [Part.formatRunning, Part.taken] using hf), Stream.ofCode_big hw]
    rfl
  · subst hw
    exact completes (Part.cmdWhere_stalled hf hs) (Part.atRest_presents _ _ _ _ _ _ hrest)
  · subst hw
    rw [answers ho hk]
    exact completes (Part.cmdWhere_open hf hs ho) (Part.atRest_presents _ _ _ _ _ _ hrest)
  · subst hw
    exact completes (Part.cmdWhere_waits hf hs ho hm) (Part.atRest_waitsFor hrun hrest)
  · subst hw
    obtain ⟨m, hm1, hm2⟩ := Part.openSegment_stream (st := st) (Part.mayTake_pool ht)
    rw [answers hm1 hm2]
    have carried := (Part.cmdWhere_needs (p := p.taken a .whereIs [st.code] p.pins.dock) hf hs ho hm).trans (if_pos ht)
    have frame := Part.openSegment_storeOnly st p
    refine completes (carried.trans ?_) (Part.atRest_presents _ _ _ _ _ _ ?_)
    · rw [Part.openSegment_taken, ← frame.pins]
      rfl
    · exact Part.atRest_of_req2Waiting (Part.req2Waiting_of_direct (Part.openSegment_direct (Part.mayTake_pool ht)))
  · subst hw
    have carried := (Part.cmdWhere_needs (p := p.taken a .whereIs [st.code] p.pins.dock) hf hs ho hm).trans
      (if_neg (ne_true_of_eq_false ht))
    refine completes carried ?_
    exact Part.atRest_presents (p := p.stall st) a .whereIs [st.code] .refused .storeFull []
      ((Part.atRest_stall ht).trans hrest)

end Sys2Proof.Machine

/-! # Proofs: requester 2's writes (R11, R20, R22, R26) -/

namespace Sys2Proof.Machine

/-- The lowest segment that owes a condition rewrite (R11, R22). -/
theorem Part.owedRewrite_lowest {p : Part} {n : Nat} {e : SegEntry} (he : p.store.segs[n]? = some e)
    (ho : e.owed ≠ .none) (hbelow : (p.store.segs.take n).all (fun g => g.owed == .none) = true) :
    p.owedRewrite = some (n + 1, if e.owed = .closed then 2 else 3) := by
  obtain ⟨hn, rfl⟩ := List.getElem?_eq_some_iff.mp he
  have hlen : n < (List.range p.store.segs.length).length := by simpa using hn
  unfold Part.owedRewrite Part.recordSegs
  rw [List.findSome?_map, List.findSome?_eq_some_iff]
  refine ⟨(List.range p.store.segs.length).take n, n, (List.range p.store.segs.length).drop (n + 1), ?_, ?_, ?_⟩
  · have split := List.take_append_drop n (List.range p.store.segs.length)
    rw [List.drop_eq_getElem_cons hlen, List.getElem_range] at split
    exact split.symm
  · simp only [Function.comp_apply, Part.seg, Nat.succ_ne_zero, if_false, Nat.add_sub_cancel, he]
    cases hk : p.store.segs[n].owed with
    | none => exact absurd hk ho
    | closed => rfl
    | faulted => rfl
  · intro k hk
    rw [List.take_range, List.mem_range] at hk
    have hkn : k < n := by omega
    have hlk : k < p.store.segs.length := by omega
    have owes : (p.store.segs[k]).owed = .none := by
      simpa using List.all_eq_true.mp hbelow _ (List.mem_take_iff_getElem.mpr ⟨k, by omega, rfl⟩)
    simp [Part.seg, List.getElem?_eq_getElem hlk, owes]

/-- A burst in progress holds every grant back. -/
theorem Part.grantPort_of_burst {p : Part} (h : p.arb.burst.isSome = true) : p.grantPort = p :=
  Part.grantPort_atRest (by simp [Part.atRest, h])

theorem Part.directDone_eq {p : Part} {e : DirectEntry} {rest : List DirectEntry} (h : p.store.direct = e :: rest) :
    p.directDone e = { p with
      arb := { p.arb with fairness := 0 }
      store := { p.store with
        direct := rest
        streams := { p.store.streams with
          delivery := if e.kind = .answer then { p.store.streams.delivery with reserved := none }
            else p.store.streams.delivery } } } := by
  unfold Part.directDone
  rw [h]
  by_cases ha : e.kind = .answer
  · simp only [ha, if_true]
    rfl
  · simp only [ha, if_false]
    rfl

theorem State.directWriteComplete_next {e : DirectEntry} {rest : List DirectEntry} {s : State} (hq : s.Quiet)
    (hb : s.part.arb.burst = none) (hd : s.part.store.direct = e :: rest) :
    exec .directWriteComplete s = .next { s with
      mem := s.mem.writeWords (slotAddr e.seg e.slot) e.words
      part := (s.part.directDone e).grantPort } := by
  have written : s.writeDirect = { s with
      mem := s.mem.writeWords (slotAddr e.seg e.slot) e.words
      part := s.part.directDone e } := by
    unfold State.writeDirect
    rw [hd]
  show execDirectWriteComplete s = _
  unfold execDirectWriteComplete
  rw [State.whenReady_next hq.1 (by simp [hb, hd]) (by rw [written]; exact hq.2), written]

theorem State.conditionRewrite_next {n : Nat} {w : Word} {s : State} (hq : s.Quiet) (hb : s.part.arb.burst = none)
    (hd : s.part.store.direct = []) (ho : s.part.owedRewrite = some (n, w)) :
    exec .conditionRewrite s = .next { s with
      mem := s.mem.write (segBase n + 1) w
      part := (s.part.modSeg n (fun e => { e with owed := .none })).grant2.grantPort } := by
  have written : s.writeCondition = { s with
      mem := s.mem.write (segBase n + 1) w
      part := (s.part.modSeg n (fun e => { e with owed := .none })).grant2 } := by
    unfold State.writeCondition
    rw [ho]
  show execConditionRewrite s = _
  unfold execConditionRewrite
  rw [State.whenReady_next hq.1 (by simp [hb, hd, ho]) (by rw [written]; exact hq.2), written]

theorem State.serve_next {s : State} (hq : s.Quiet) (hb : s.part.arb.burst = none) (hd : s.part.store.direct = [])
    (ho : s.part.owedRewrite = none) (hf : s.part.retire.state ≠ .formatRunning) :
    exec .recordWriterServe s = .next { s with part := s.part.serveHead.grantPort } := by
  show execRecordWriterServe s = _
  unfold execRecordWriterServe
  exact State.partEvent_next hq (by simpa [hb, hd, ho, Part.formatRunning] using hf)

theorem Part.serveHead_taken {p : Part} {q : QueueEntry} {rest : List QueueEntry} {t : Taken} (h : p.queue = q :: rest)
    (ht : q.taken = some t) : p.serveHead = p.startRecordBurst t := by
  unfold Part.serveHead
  simp only [h, ht]

theorem Part.serveHead_commits {p : Part} {q : QueueEntry} {rest : List QueueEntry} {n k : Nat} (h : p.queue = q :: rest)
    (ht : q.taken = none) (hn : (p.stream q.stream).openSeg = some n) (hk : (p.stream q.stream).append = some k) :
    p.serveHead = p.commitHead q rest n k := by
  unfold Part.serveHead
  simp only [h, ht, hn, hk]

theorem Part.serveHead_needs {p : Part} {q : QueueEntry} {rest : List QueueEntry} (h : p.queue = q :: rest)
    (ht : q.taken = none) (hn : (p.stream q.stream).openSeg = none) (hs : (p.stream q.stream).stalled = false) :
    p.serveHead = p.needSegment q.stream := by
  unfold Part.serveHead
  simp only [h, ht, hn, hs, Bool.false_eq_true, if_false]

theorem Part.startRecordBurst_eq (t : Taken) (p : Part) : p.startRecordBurst t =
    { p with arb := { p.arb with fairness := 0, burst := some (.record (slotAddr t.seg t.slot) t.words) } } := rfl

theorem Part.grantPort_startRecordBurst (t : Taken) (p : Part) : (p.startRecordBurst t).grantPort = p.startRecordBurst t :=
  Part.grantPort_of_burst rfl

/-- The head entry's commit, with the burst that begins (R26). -/
theorem Part.commitHead_eq {q : QueueEntry} {rest : List QueueEntry} {n k : Nat} (hn : 1 ≤ n) (p : Part) :
    p.commitHead q rest n k =
      let x := p.store.streams.get q.stream
      let now := p.clock.now
      let head := recordHead q.kind q.body now
      let chain := recordChain x.running head
      let words := head ++ dwords chain
      { Part.slotConsumed q.stream n k true { p with
          queue := { q with taken := some { seg := n, slot := k, seq := x.nextRec, words := words } } :: rest
          clock := { p.clock with floor := max p.clock.floor now }
          store := { p.store with
            segs := p.store.segs.modify (n - 1) (fun g => { g with count := some (g.count.getD 0 + 1) })
            streams := p.store.streams.set q.stream { x with nextRec := x.nextRec + 1, running := chain } } } with
        arb := { p.arb with fairness := 0, burst := some (Burst.record (slotAddr n k) words) } } := by
  unfold Part.commitHead Part.advanceStream
  simp only [recordChainField_recordWords, Part.modSeg_pos hn, Part.startRecordBurst_eq]
  rw [(Part.slotConsumed_storeOnly _ _ _ _ _).arb]
  rfl

/-- Settles O10: each write of requester 2 is the row's own function, after which the port is granted. -/
theorem requester2WritesInOrder : Obligations.Requester2WritesInOrder := by
  refine ⟨⟨?_, ?_⟩, ?_⟩
  · intro e rest s hq hb hd p x
    rw [State.directWriteComplete_next hq hb hd, Part.directDone_eq hd]
    rfl
  · intro n e s hq hb hd he ho hall p
    rw [State.conditionRewrite_next hq hb hd (Part.owedRewrite_lowest he ho hall)]
    rfl
  · intro q rest n k t s hq hb hd ho hf hasm hqueue p x now head chain words burst
    have serve := State.serve_next hq hb hd ho hf
    have free : (p.formatRunning || p.needWaits q.stream) = false := by
      simp [p, Part.formatRunning, hf, Part.needWaits, hasm]
    refine ⟨?_, fun ht hopen hst hm => ?_, fun ht hopen hst hm => ?_, fun ht => ?_⟩
    · intro ht hopen happ hn took
      rw [serve, Part.serveHead_commits hqueue ht hopen happ, Part.grantPort_of_burst rfl, Part.commitHead_eq hn]
      rfl
    · rw [serve, Part.serveHead_needs hqueue ht hopen hst, Part.needSegment_goes free, if_pos hm,
        Part.grantPort_openSegment hm]
    · rw [serve, Part.serveHead_needs hqueue ht hopen hst, Part.needSegment_goes free, if_neg (ne_true_of_eq_false hm)]
      rfl
    · rw [serve, Part.serveHead_taken hqueue ht, Part.grantPort_startRecordBurst]
      rfl

end Sys2Proof.Machine

/-! # Proofs: records leave and join the record writer's queue (R25, R26, R86, R93, R113, R127, R129, R201) -/

namespace Sys2Proof.Machine

/-! ## A record joins the queue -/

/-- What `addRecord` does is what `Part.joined` says (R25, R127). -/
theorem Part.addRecord_eq_joined (st : Stream) (k : Kind) (body : List Word) (p : Part) :
    p.addRecord st k body = p.joined st k body := by
  unfold Part.addRecord Part.freezeCheck Part.joined
  have short : (Part.freeEntries { p with queue := p.queue ++ [{ stream := st, kind := k, body := body, taken := none }] } < 5)
      ↔ 11 ≤ p.queue.length := by
    simp only [Part.freeEntries, List.length_append, List.length_singleton]
    omega
  by_cases h : p.scan.run = .running ∧ 11 ≤ p.queue.length
  · rw [if_pos ⟨h.1, short.mpr h.2⟩]
    simp only [h, and_self, if_true]
    rfl
  · rw [if_neg fun hk => h ⟨hk.1, short.mp hk.2⟩]
    simp only [h, if_false]

theorem Part.five_le_freeEntries (p : Part) : 5 ≤ p.freeEntries ↔ p.queue.length ≤ 11 := by
  unfold Part.freeEntries
  omega

theorem Part.joinRouteEnd_room {p : Part} {body : List Word} (h : p.queue.length ≤ 11) (hb : p.route.endRecord = some body) :
    p.joinRouteEnd = Part.joined { p with route := { p.route with endRecord := none } } .event .routeEnd body := by
  unfold Part.joinRouteEnd
  simp only [hb]
  rw [if_pos (p.five_le_freeEntries.mpr h), Part.addRecord_eq_joined]

theorem Part.joinOutage_room {p : Part} {body : List Word} (h : p.queue.length ≤ 11)
    (hb : p.route.outageRecord = some body) :
    p.joinOutage = Part.joined { p with route := { p.route with outageRecord := none } } .event .outage body := by
  unfold Part.joinOutage
  simp only [hb]
  rw [if_pos (p.five_le_freeEntries.mpr h), Part.addRecord_eq_joined]

theorem Part.joinOwedOutage_room {p : Part} {o : OwedOutage} (h : p.queue.length ≤ 11) (ho : p.backup.outage = some o) :
    p.joinOwedOutage = Part.joined { p with backup := { p.backup with outage := none } } .event .outage o.body := by
  unfold Part.joinOwedOutage
  simp only [ho]
  rw [if_pos (p.five_le_freeEntries.mpr h), Part.addRecord_eq_joined]

theorem Part.joinOwedOutage_none {p : Part} (ho : p.backup.outage = none) : p.joinOwedOutage = p := by
  unfold Part.joinOwedOutage
  simp only [ho]

theorem Part.joinOwedRestart_room {p : Part} {r : OwedRestart} (h : p.queue.length ≤ 11) (ho : p.backup.outage = none)
    (hr : p.backup.restart = some r) :
    p.joinOwedRestart = Part.joined { p with backup := { p.backup with restart := none } } .event .restart r.body := by
  unfold Part.joinOwedRestart
  simp only [ho, hr]
  rw [if_pos (p.five_le_freeEntries.mpr h), Part.addRecord_eq_joined]

theorem Part.joinOwedRestart_full {p : Part} (h : 11 < p.queue.length) : p.joinOwedRestart = p := by
  unfold Part.joinOwedRestart
  split
  · exact if_neg (by rw [Part.five_le_freeEntries]; omega)
  · rfl

theorem Part.joined_queue_length (p : Part) (st : Stream) (k : Kind) (body : List Word) :
    (p.joined st k body).queue.length = p.queue.length + 1 := by
  simp [Part.joined]

theorem Part.joinOwed_both {p : Part} {o : OwedOutage} {r : OwedRestart} (h : p.queue.length ≤ 10)
    (ho : p.backup.outage = some o) (hr : p.backup.restart = some r) :
    p.joinOwedOutage.joinOwedRestart =
      (Part.joined { p with backup := { p.backup with outage := none, restart := none } } .event .outage o.body).joined
        .event .restart r.body := by
  rw [Part.joinOwedOutage_room (by omega) ho]
  exact Part.joinOwedRestart_room
    (p := Part.joined { p with backup := { p.backup with outage := none } } .event .outage o.body)
    ((Part.joined_queue_length _ _ _ _).trans_le (Nat.succ_le_succ h)) rfl hr

/-! ## The withheld summary (R113) -/

/-- The lowest compartment that owes a summary. -/
theorem Part.summaryComp_lowest {p : Part} {c : Nat} (h8 : c < 8) (hc : c < p.ctxs.length)
    (ho : (p.ctx c).summaryOwed = true) (ht : (p.ctx c).thermal ≠ .idle)
    (hbelow : (p.ctxs.take c).all (fun y => !(y.summaryOwed && y.thermal != .idle)) = true) :
    p.summaryComp = some c := by
  unfold Part.summaryComp
  rw [List.find?_range_eq_some]
  refine ⟨by simp [ho, ht], by simpa using h8, fun k hk => ?_⟩
  have hlk : k < p.ctxs.length := by omega
  have owes := List.all_eq_true.mp hbelow _ (List.mem_take_iff_getElem.mpr ⟨k, by omega, rfl⟩)
  have entry : p.ctx k = p.ctxs[k] := List.getD_eq_getElem _ _ hlk
  simpa [entry] using owes

theorem modify_eq_set_getD {α : Type} (l : List α) (n : Nat) (f : α → α) (d : α) :
    l.modify n f = l.set n (f (l.getD n d)) := by
  apply List.ext_getElem?
  intro k
  rw [List.getElem?_modify, List.getElem?_set]
  by_cases h : n = k
  · subst h
    by_cases hn : n < l.length
    · simp [hn]
    · simp [hn]
  · simp [h]

/-! ## The head of the queue leaves it -/

theorem Part.resumeScanner_stays {p : Part} (h : p.scan.run ≠ .frozen ∨ 11 < p.queue.length) : p.resumeScanner = p := by
  refine if_neg fun hc => ?_
  have := p.five_le_freeEntries.mp hc.2
  rcases h with h | h
  · exact h hc.1
  · omega

theorem Part.resumeScanner_resumes {p : Part} (h : p.scan.run = .frozen) (hq : p.queue.length ≤ 11)
    (ho : p.scan.owed = none) : p.resumeScanner = { p with scan := { p.scan with run := .running } } := by
  unfold Part.resumeScanner
  rw [if_pos ⟨h, p.five_le_freeEntries.mpr hq⟩]
  simp only [ho]

theorem Part.resumeScanner_owed {p : Part} {body : List Word} (h : p.scan.run = .frozen) (hq : p.queue.length ≤ 11)
    (ho : p.scan.owed = some body) : p.resumeScanner = { p with
      queue := p.queue ++ [{ stream := .event, kind := .doorStatus, body := body, taken := none }]
      scan := { p.scan with owed := none, run := if p.queue.length ≤ 10 then .running else .frozen } } := by
  unfold Part.resumeScanner
  rw [if_pos ⟨h, p.five_le_freeEntries.mpr hq⟩]
  simp only [ho, Part.addRecord_eq_joined, Part.joined, h, reduceCtorEq, false_and, if_false, Part.five_le_freeEntries,
    List.length_append, List.length_singleton]
  by_cases hl : p.queue.length ≤ 10
  · rw [if_pos (by omega), if_pos hl]
  · rw [if_neg (by omega), if_neg hl]

theorem Part.headWritten_eq {p : Part} {q : QueueEntry} {rest : List QueueEntry} (hq : p.queue = q :: rest)
    (ht : q.taken ≠ none) :
    p.headWritten = if q.kind = .routeEnd then (Part.resumeScanner { p with queue := rest }).closeRoute
      else Part.resumeScanner { p with queue := rest } := by
  unfold Part.headWritten
  simp only [hq]
  rw [if_pos (by simpa [Option.isSome_iff_ne_none] using ht)]

theorem State.writeComplete_next {s : State} {base : Nat} {words : List Word} (hq : s.Quiet)
    (hb : s.part.arb.burst = some (.record base words)) :
    exec .recordWriterWriteComplete s = .next { s with
      mem := s.mem.writeWords base words
      part := s.part.endBurst.headWritten.grantPort } := by
  have written : s.writeRecordBurst = { s with
      mem := s.mem.writeWords base words
      part := s.part.endBurst.headWritten } := by
    unfold State.writeRecordBurst
    rw [hb]
  show execRecordWriterWriteComplete s = _
  unfold execRecordWriterWriteComplete
  rw [State.whenReady_next hq.1 (by simp [Part.inRecordBurst, hb]) (by rw [written]; exact hq.2), written]

/-! ## The route close (R24) -/

/-- One stream's closing at the route close, on the store: no record is under assembly. -/
def Store.closeStream (now : Nat) (x : Store) (st : Stream) : Store :=
  match (x.streams.get st).openSeg with
  | none => x
  | some n =>
    { x with
      segs := x.segs.modify (n - 1) (fun e =>
        { e with state := .closed, closeTime := some now, exitChain := some (x.streams.get st).running, owed := .closed })
      streams := x.streams.set st { x.streams.get st with openSeg := none, append := none } }

theorem Part.closeStream_eq {p : Part} {st : Stream} (ha : p.asm = none)
    (h0 : (p.store.streams.get st).openSeg ≠ some 0) :
    p.closeStream st = { p with store := p.store.closeStream p.clock.now st } := by
  unfold Part.closeStream Store.closeStream Part.stream
  cases hn : (p.store.streams.get st).openSeg with
  | none => rfl
  | some n =>
    cases n with
    | zero => exact absurd hn h0
    | succ n => exact if_neg (by simp [ha])

theorem Store.closeStream_openSeg (now : Nat) (x : Store) (st st' : Stream) :
    ((x.closeStream now st).streams.get st').openSeg = none
      ∨ ((x.closeStream now st).streams.get st').openSeg = (x.streams.get st').openSeg := by
  unfold Store.closeStream
  split
  · exact .inr rfl
  · by_cases h : st' = st
    · subst h
      simp
    · exact .inr (by simp [Streams.get_set_ne, h])

theorem Part.closeStreams_eq (l : List Stream) : ∀ {p : Part}, p.asm = none →
    (∀ st ∈ l, (p.store.streams.get st).openSeg ≠ some 0) →
    l.foldl Part.closeStream p = { p with store := l.foldl (Store.closeStream p.clock.now) p.store } := by
  induction l with
  | nil => exact fun _ _ => rfl
  | cons st l ih =>
    intro p ha h0
    rw [List.foldl_cons, Part.closeStream_eq ha (h0 st List.mem_cons_self)]
    refine (ih (p := { p with store := p.store.closeStream p.clock.now st }) ha ?_).trans rfl
    · intro st' hst'
      rcases Store.closeStream_openSeg p.clock.now p.store st st' with h | h
      · exact fun hk => by simp [h] at hk
      · exact fun hk => h0 st' (List.mem_cons_of_mem _ hst') (h.symm.trans hk)

theorem Part.closeRoute_idle {p : Part} (h : p.route.closePending = false) : p.closeRoute = p :=
  if_neg (by simp [h])

theorem Part.closeRoute_closes {p : Part} (ha : p.asm = none) (hp : p.route.closePending = true)
    (hw : p.route.closeWait = none)
    (h0 : ∀ st ∈ [Stream.sample, .event, .delivery], (p.store.streams.get st).openSeg ≠ some 0) :
    p.closeRoute = { p with
      store := [Stream.sample, .event, .delivery].foldl (Store.closeStream p.clock.now) p.store
      route := { p.route with closePending := false } } := by
  unfold Part.closeRoute
  rw [if_pos hp, Part.closeStreams_eq _ ha h0]
  simp only [hw, Option.isSome_none]

/-! ## The bodies of the records a warm restart owes (R201, R202) -/

theorem OwedOutage.body_eq (o : OwedOutage) : o.body = words32 o.fail ++ words32 o.restart ++ words32 o.secs
    ++ [BitVec.ofNat 16 o.merged, BitVec.ofNat 16 (o.comps.toNat + 256 * min 255 o.count)] := by
  have low : o.comps.toNat % 256 = o.comps.toNat := Nat.mod_eq_of_lt o.comps.isLt
  have high : sat8 o.count % 256 = min 255 o.count := by
    unfold sat8 satAt
    omega
  unfold OwedOutage.body outageBody bytesWord wordOf
  rw [low, high]

/-- The word of the long operation a restart ended, with its claim (R202, R214). -/
theorem Ended.word_eq (e : Ended) :
    bytesWord e.code.toNat (match e with | .verify i => i | _ => 255) = BitVec.ofNat 16 (match e with
      | .none => 0xFF00
      | .blanking => 0xFF01
      | .format => 0xFF02
      | .verify i => 3 + 256 * (i % 256)) := by
  cases e <;> rfl

theorem OwedRestart.body_eq (r : OwedRestart) : r.body = ([0] : List Word) ++ words32 r.fail ++ words32 r.restart
    ++ [BitVec.ofNat 16 r.merged]
    ++ [BitVec.ofNat 16 (match r.ended with
        | .none => 0xFF00
        | .blanking => 0xFF01
        | .format => 0xFF02
        | .verify i => 3 + 256 * (i % 256))]
    ++ (match r.voided with
        | some (st, n, k) => [st.code, BitVec.ofNat 16 n, BitVec.ofNat 16 k]
        | none => [blank, blank, blank]) := by
  have word := Ended.word_eq r.ended
  unfold OwedRestart.body
  rw [← word, List.append_assoc (_ ++ _) [_] [_]]
  cases r.voided <;> rfl

theorem State.restartRecordsJoin_next {s : State} (h : s.part.running = true) :
    exec .restartRecordsJoin s = .next { s with part := s.part.joinOwedOutage.joinOwedRestart } := by
  show execRestartRecordsJoin s = _
  unfold execRestartRecordsJoin
  exact State.onRunning_next h

theorem State.withheldSummary_next {s : State} {c : Nat} (h : s.part.running = true) (hq : s.part.queue.length ≤ 15)
    (hc : s.part.summaryComp = some c) :
    exec .withheldSummary s = .next { s with part := s.part.addSummary c } := by
  have room : 1 ≤ s.part.freeEntries := by
    unfold Part.freeEntries
    omega
  show execWithheldSummary s = _
  unfold execWithheldSummary
  rw [State.onRunning_next h, if_pos room, hc]

/-- Settles O11: the burst's end by the head's kind and the scanner's state, the joins by the free entries. -/
theorem recordsLeaveAndJoinTheQueue : Obligations.RecordsLeaveAndJoinTheQueue := by
  refine ⟨⟨?_, ?_⟩, ?_⟩
  · intro base words q rest s hq hb hqueue ht hrun ha h0 p close left
    have done := State.writeComplete_next hq hb
    have headed : p.endBurst.headWritten = if q.kind = .routeEnd then left.resumeScanner.closeRoute else left.resumeScanner :=
      Part.headWritten_eq (p := p.endBurst) hqueue ht
    have stays : left.resumeScanner = left := Part.resumeScanner_stays (.inl hrun)
    refine ⟨fun hk => ?_, fun hk hp hw => ?_⟩
    · rw [done, headed, stays]
      split
      · rw [Part.closeRoute_idle (p := left) (hk.resolve_left (by simp [*]))]
      · rfl
    · have closes := Part.closeRoute_closes (p := left) ha hp hw (by simpa using h0)
      rw [done, headed, stays, if_pos hk, closes]
      rfl
  · intro base words body q rest s hq hb hqueue ht hk hrun p left
    have done := State.writeComplete_next hq hb
    have headed : p.endBurst.headWritten = left.resumeScanner :=
      (Part.headWritten_eq (p := p.endBurst) hqueue ht).trans (if_neg hk)
    refine ⟨fun h => ?_, fun h ho => ?_, fun h ho => ?_⟩
    · rw [done, headed, Part.resumeScanner_stays (.inr h)]
    · rw [done, headed, Part.resumeScanner_resumes (p := left) hrun h ho]
    · rw [done, headed, Part.resumeScanner_owed (p := left) hrun h ho]
  · intro body o r c s hr p outage restart x
    have owedOutage : o.body = outage := o.body_eq
    have owedRestart : r.body = restart := r.body_eq
    refine ⟨fun h hb => ?_, fun h hb => ?_, fun h ho hr' => ?_, fun h ho => ?_, fun h ho hr' => ?_, fun h h8 hc ho ht hl => ?_⟩
    · exact (State.onRunning_next hr).trans (by rw [Part.joinRouteEnd_room h hb])
    · exact (State.onRunning_next hr).trans (by rw [Part.joinOutage_room h hb])
    · rw [← owedOutage, ← owedRestart, State.restartRecordsJoin_next hr, Part.joinOwed_both h ho hr']
    · rw [← owedOutage, State.restartRecordsJoin_next hr, Part.joinOwedOutage_room (le_of_eq h) ho,
        Part.joinOwedRestart_full (by rw [Part.joined_queue_length]; exact Nat.lt_succ_of_le (le_of_eq h.symm))]
    · rw [← owedRestart, State.restartRecordsJoin_next hr, Part.joinOwedOutage_none ho, Part.joinOwedRestart_room h ho hr']
    · rw [State.withheldSummary_next hr h (Part.summaryComp_lowest h8 hc ho ht hl)]
      unfold Part.addSummary Part.modCtx
      rw [Part.addRecord_eq_joined, modify_eq_set_getD _ _ _ Ctx.cold]
      rfl

end Sys2Proof.Machine

/-! # Proofs: the accesses at the port, served one by one (R29, R30) -/

namespace Sys2Proof.Machine

/-! ## Serving what waits -/

/-- `n` pieces of work of the port, and the arbiter's grant when nothing waits after them. -/
def State.drain (n : Nat) (s : State) : State :=
  if (s.pump n).port.waiting.isEmpty then { s.pump n with part := (s.pump n).part.grantPort } else s.pump n

theorem State.settle_eq_drain (s : State) : s.settle = s.drain (8 * s.port.waiting.length) := rfl

theorem State.pump_nil {s : State} (h : s.port.waiting = []) : ∀ n, s.pump n = s
  | 0 => rfl
  | n + 1 => by simp [State.pump, h]

/-- With nothing waiting, the arbiter's grant is all that is left. -/
theorem State.drain_nil {s : State} (h : s.port.waiting = []) (n : Nat) :
    s.drain n = { s with part := s.part.grantPort } := by
  unfold State.drain
  rw [State.pump_nil h, h]
  rfl

/-- The first piece of work is done. -/
theorem State.drain_serves {s t : State} {w : Work} {rest more : List Work} (h : s.port.waiting = w :: rest)
    (hw : s.tryWork w = some (t, more)) (n : Nat) : s.drain (n + 1) = (t.setWaiting (more ++ rest)).drain n := by
  have step : s.pump (n + 1) = (t.setWaiting (more ++ rest)).pump n := by
    simp [State.pump, h, hw]
  unfold State.drain
  rw [step]

/-- The first piece of work must wait, and so does what stands behind it. -/
theorem State.drain_waits {s : State} {w : Work} {rest : List Work} (h : s.port.waiting = w :: rest)
    (hw : s.tryWork w = none) (n : Nat) : s.drain (n + 1) = s := by
  have step : s.pump (n + 1) = s := by simp [State.pump, h, hw]
  unfold State.drain
  rw [step, h]
  rfl

/-! ## An upstream write at an idle gate (R51, R56) -/

theorem Part.arrive_idle {p : Part} {d : Word} (hg : p.chan.gate = .idle) (hd : d ≠ 0x5AC3) (a : Addr) (dock : Bool) :
    (p.setDock dock).arrive a d dock = (p.met dock, [.police a d none]) := by
  have idle : (p.setDock dock).collecting = false := by simp [Part.collecting, Part.setDock, hg]
  have gate : (p.setDock dock).endPresentation.chan.gate = .idle := hg
  unfold Part.arrive Part.gateWrite
  rw [idle]
  simp only [Bool.false_eq_true, if_false, gate]
  exact if_neg hd

/-- The write meets the idle gate and is handed to the policer. -/
theorem State.upstreamWrite_policed {s : State} {a : Addr} {d : Word} (hq : s.Quiet) (hg : s.part.chan.gate = .idle)
    (hd : d ≠ 0x5AC3) (dock : Bool) :
    exec (.upstreamWrite a d dock) s
      = .next (State.drain 7 (State.setWaiting [.police a d none] { s with part := s.part.met dock })) := by
  obtain ⟨hr, hw⟩ := hq
  have arrives : State.tryWork (.write a d dock)
      (State.setWaiting [.write a d dock] { s with part := s.part.setDock dock })
      = some (State.setWaiting [.write a d dock] { s with part := s.part.met dock }, [.police a d none]) := by
    simp only [State.tryWork, State.setWaiting, Part.arrive_idle hg hd]
  show execUpstreamWrite a d dock s = _
  unfold execUpstreamWrite State.access
  have appended : ({ s with part := s.part.setDock dock } : State).port.waiting ++ [.write a d dock] = [.write a d dock] := by
    rw [show ({ s with part := s.part.setDock dock } : State).port.waiting = [] from hw]
    rfl
  dsimp only
  rw [appended, if_pos (show (s.part.setDock dock).running = true from hr), State.settle_eq_drain]
  exact congrArg Host.Outcome.next (State.drain_serves rfl arrives 7)

/-- A write that breaks nothing and can be placed at once takes its effect, and the port is granted. -/
theorem State.upstreamWrite_placed {s u : State} {a : Addr} {d : Word} {dock : Bool} (hq : s.Quiet)
    (hg : s.part.chan.gate = .idle) (hd : d ≠ 0x5AC3) (hb : (s.part.met dock).breaks a = false)
    (hu : State.classify a d s.part.clock.now none
      (State.setWaiting [.place a d s.part.clock.now none] { s with part := s.part.met dock }) = some u) :
    exec (.upstreamWrite a d dock) s = .next { u.setWaiting [] with part := u.part.grantPort } := by
  let v (w : Work) : State := State.setWaiting [w] { s with part := s.part.met dock }
  have policed : (v (.police a d none)).tryWork (.police a d none)
      = some (v (.police a d none), [.place a d s.part.clock.now none]) :=
    State.police_unbroken (s := v (.police a d none)) hb d none
  have placed : (v (.place a d s.part.clock.now none)).tryWork (.place a d s.part.clock.now none) = some (u, []) := by
    have := State.place_unbroken (s := v (.place a d s.part.clock.now none)) hb d s.part.clock.now none
    rwa [hu] at this
  rw [State.upstreamWrite_policed hq hg hd]
  refine congrArg Host.Outcome.next ((State.drain_serves rfl policed 6).trans ?_)
  exact (State.drain_serves rfl placed 5).trans (State.drain_nil rfl 5)

/-! ## What a write in the store meets -/

theorem Part.policed_iff (p : Part) : p.policed = true ↔ p.mode = .guarded ∨ p.mode = .service := by
  unfold Part.policed
  rw [Bool.or_eq_true, beq_iff_eq, beq_iff_eq]

theorem Part.headerPending_false {p : Part} {n : Nat}
    (h : p.store.direct.all (fun y => y.kind != .header || y.seg != n) = true) : p.headerPending n = false := by
  unfold Part.headerPending
  rw [List.any_eq_false]
  intro y hy
  have := List.all_eq_true.mp h y hy
  simp only [Bool.or_eq_true, bne_iff_ne] at this
  simpa [imp_iff_not_or] using this

/-- A write into a record segment, past the break of R42. -/
theorem State.classify_record {s : State} {a : Addr} (hm : s.part.mode = .guarded ∨ s.part.mode = .service)
    (h1 : 1 ≤ addrSeg a.toNat) (hn : addrSeg a.toNat < s.part.store.nSeg)
    (hh : s.part.headerPending (addrSeg a.toNat) = false) (d : Word) (t : Nat) :
    s.classify a d t none = s.writeRecord a d t := by
  have h0 : addrSeg a.toNat ≠ 0 := by omega
  have hx : ¬ s.part.store.nSeg ≤ addrSeg a.toNat := by omega
  unfold State.classify
  rcases hm with hm | hm
  · simp only [Option.getD_none, hm, if_neg h0, if_neg hx, hh, Bool.false_eq_true, if_false]
  · simp only [Option.getD_none, hm, if_neg h0, if_neg hx, hh, Bool.false_eq_true, if_false]

theorem Part.expects_iff {p : Part} {x : Assembly} (hx : p.asm = some x) (a : Addr) :
    p.expects a = true ↔ a.toNat = slotAddr x.seg x.slot + x.next := by
  unfold Part.expects
  rw [hx]
  exact beq_iff_eq

theorem Part.breaks_of_expects {p : Part} {a : Addr} (h : p.expects a = true) : p.breaks a = false := by
  simp [Part.breaks, h]

theorem addrSeg_slot {n s k : Nat} (hs : s < 1024) (hk : k < 16) : addrSeg (slotAddr n s + k) = n := by
  unfold addrSeg slotAddr
  omega

theorem Part.portFree_of {p : Part} (hb : p.arb.burst = none) (hf : p.arb.fairness < 8 ∨ p.req2Waiting = false) :
    p.portFree = true := by
  unfold Part.portFree
  rw [hb]
  rcases hf with h | h
  · have : ¬ 8 ≤ p.arb.fairness := by omega
    simp [this]
  · simp [h]

/-- Word 15 of the record under assembly goes to memory and commits the record (R39, R40). -/
theorem State.acceptWord_last {s : State} {x : Assembly} {chain : DWord} {t : Nat} (hf : s.part.portFree = true)
    (hn : x.next = 15) (hc : x.chain = some chain) (ht : x.receipt = some t) (a : Addr) (d : Word) (arrived : Nat) :
    s.acceptWord a d arrived x = some { s with
      mem := s.mem.write a.toNat (BitVec.ofNat 16 (chain.toNat / 65536))
      part := Part.commitRecord { s.part.granted with asm := some { x with next := 16 } } } := by
  unfold State.acceptWord Assembly.takeWord Assembly.noteFloor
  simp only [hn, Nat.reduceLT, if_false, Nat.reduceEqDiff, State.forward_eq hf, hc, ht, Option.getD_some, if_true]
  rfl

/-- The write of word 15, through the gate, the policer and the assembler. -/
theorem State.upstreamWrite_word15 {s : State} {a : Addr} {d : Word} {dock : Bool} {x : Assembly} {chain : DWord} {t : Nat}
    (hs : s.Ready) (ha : s.part.asm = some x) (hm : s.part.mode = .guarded ∨ s.part.mode = .service) (hd : d ≠ 0x5AC3)
    (hb : s.part.arb.burst = none) (hf : s.part.arb.fairness < 8 ∨ s.part.req2Waiting = false)
    (hn : x.next = 15) (hc : x.chain = some chain) (ht : x.receipt = some t)
    (h1 : 1 ≤ x.seg) (hseg : x.seg < s.part.store.nSeg) (hslot : x.slot < 1024)
    (haddr : a.toNat = x.seg * 16384 + 16 * x.slot + 15)
    (hh : s.part.store.direct.all (fun y => y.kind != .header || y.seg != x.seg) = true) :
    exec (.upstreamWrite a d dock) s = .next { s with
      mem := s.mem.write a.toNat (BitVec.ofNat 16 (chain.toNat / 65536))
      part := (Part.commitRecord { (s.part.met dock).granted with asm := some { x with next := 16 } }).grantPort } := by
  obtain ⟨hq, hg, -⟩ := hs
  have hexp : (s.part.met dock).expects a = true := (Part.expects_iff (x := x) ha a).mpr (by rw [haddr, hn]; rfl)
  have hin : addrSeg a.toNat = x.seg := haddr ▸ addrSeg_slot hslot (by decide)
  have hfree : (s.part.met dock).portFree = true := Part.portFree_of (p := s.part) hb hf
  let v : State := State.setWaiting [.place a d s.part.clock.now none] { s with part := s.part.met dock }
  have written : v.writeRecord a d s.part.clock.now = v.acceptWord a d s.part.clock.now x := by
    unfold State.writeRecord
    have hsome : (if v.part.expects a = true then v.part.asm else none) = some x := (if_pos hexp).trans ha
    simp only [hsome]
  have hpend : v.part.headerPending (addrSeg a.toNat) = false := by
    rw [hin]
    exact Part.headerPending_false hh
  have classified := State.classify_record (s := v) (a := a) hm (by omega) (by rw [hin]; exact hseg) hpend d s.part.clock.now
  rw [written, State.acceptWord_last (s := v) hfree hn hc ht] at classified
  rw [State.upstreamWrite_placed hq hg hd (Part.breaks_of_expects hexp) classified]
  obtain ⟨pending, mem, ⟨waiting, readData⟩, part⟩ := s
  obtain rfl : waiting = [] := hq.2
  rfl

end Sys2Proof.Machine

/-! # Proofs: the commit of a record, and the last slot of a segment (R20, R23, R40) -/

namespace Sys2Proof.Machine

/-! ## A direct write stays on the list -/

/-- The mode and the extent are as they were, and what stands on the direct write list stays on it. -/
structure Part.ListStands (p q : Part) : Prop where
  mode : q.mode = p.mode
  nSeg : q.store.nSeg = p.store.nSeg
  direct : ∃ more, q.store.direct = p.store.direct ++ more

theorem Part.ListStands.of_eq {p q : Part} (hm : q.mode = p.mode) (hn : q.store.nSeg = p.store.nSeg)
    (hd : q.store.direct = p.store.direct) : Part.ListStands p q :=
  ⟨hm, hn, [], hd.trans (List.append_nil _).symm⟩

theorem Part.ListStands.refl (p : Part) : Part.ListStands p p := .of_eq rfl rfl rfl

theorem Part.ListStands.trans {p q r : Part} (h : Part.ListStands p q) (k : Part.ListStands q r) : Part.ListStands p r := by
  obtain ⟨l, hl⟩ := h.direct
  obtain ⟨m, hm⟩ := k.direct
  exact ⟨k.mode.trans h.mode, k.nSeg.trans h.nSeg, l ++ m, by rw [hm, hl, List.append_assoc]⟩

theorem Part.ListStands.ite {p q r : Part} {c : Prop} [Decidable c] (h : Part.ListStands p q) (k : Part.ListStands p r) :
    Part.ListStands p (if c then q else r) := by
  split
  · exact h
  · exact k

theorem Part.modSeg_listStands (n : Nat) (f : SegEntry → SegEntry) (p : Part) : Part.ListStands p (p.modSeg n f) :=
  .ite (.refl p) (.of_eq rfl rfl rfl)

theorem Part.modStream_listStands (st : Stream) (f : StreamEntry → StreamEntry) (p : Part) :
    Part.ListStands p (p.modStream st f) := .of_eq rfl rfl rfl

theorem Part.advanceStream_listStands (st : Stream) (n : Nat) (chain : DWord) (p : Part) :
    Part.ListStands p (p.advanceStream st n chain) :=
  (Part.modStream_listStands _ _ p).trans (Part.modSeg_listStands _ _ _)

theorem Part.closeSegment_listStands (st : Stream) (n : Nat) (p : Part) : Part.ListStands p (p.closeSegment st n) :=
  (Part.modSeg_listStands _ _ p).trans (Part.modStream_listStands _ _ _)

theorem Part.pushDirect_listStands (e : DirectEntry) (p : Part) : Part.ListStands p (p.pushDirect e) :=
  ⟨rfl, rfl, [e], rfl⟩

theorem Part.openTaken_listStands (st : Stream) (n : Nat) (p : Part) : Part.ListStands p (p.openTaken st n) := by
  cases n <;> exact ⟨rfl, rfl, _, rfl⟩

theorem Part.openSegment_listStands (st : Stream) (p : Part) : Part.ListStands p (p.openSegment st) := by
  unfold Part.openSegment
  split
  · exact .refl p
  · rename_i rest _
    have taken : Part.ListStands p ({ p with store := { p.store with pool := rest } } : Part).raiseStoreLow :=
      .ite (.of_eq rfl rfl rfl) (.of_eq rfl rfl rfl)
    exact taken.trans (Part.openTaken_listStands st _ _)

theorem Part.needSegment_listStands (st : Stream) (p : Part) : Part.ListStands p (p.needSegment st) :=
  .ite (.refl p) (.ite (Part.openSegment_listStands st p) (.of_eq rfl rfl rfl))

theorem Part.slotConsumed_listStands (st : Stream) (n s : Nat) (needs : Bool) (p : Part) :
    Part.ListStands p (p.slotConsumed st n s needs) :=
  have closed := Part.closeSegment_listStands st n p
  .ite (.ite (.ite (closed.trans (Part.needSegment_listStands st _)) closed) (Part.modStream_listStands _ _ p))
    (Part.modSeg_listStands _ _ p)

theorem Part.ListStands.nonempty {p q : Part} (h : Part.ListStands p q) (hp : p.store.direct ≠ []) :
    q.store.direct ≠ [] := by
  obtain ⟨more, hm⟩ := h.direct
  rw [hm]
  exact List.append_ne_nil_of_left_ne_nil hp _

/-! ## Nothing waits for the assembly's end -/

theorem Part.afterAssembly_idle {p : Part} (hw : p.route.closeWait = none) (hr : p.chan.running = none) (st : Stream) :
    p.afterAssembly st = p := by
  have closed : p.finishClose st = p := by
    unfold Part.finishClose
    rw [if_neg (by simp [hw])]
  unfold Part.afterAssembly Part.wakeWhere
  rw [closed, if_neg (by simp [Part.isRunning, hr])]

theorem Part.rollsOver_idle {p : Part} (hw : p.route.closeWait = none) (st : Stream) : p.rollsOver st = true := by
  simp [Part.rollsOver, hw]

theorem Part.advanceStream_eq {st : Stream} {n : Nat} (hn : 1 ≤ n) (chain : DWord) (p : Part) :
    p.advanceStream st n chain = { p with store := { p.store with
      segs := p.store.segs.modify (n - 1) (fun g => { g with count := some (g.count.getD 0 + 1) })
      streams := p.store.streams.set st { p.store.streams.get st with
        nextRec := (p.store.streams.get st).nextRec + 1, running := chain } } } :=
  Part.modSeg_pos hn _ _

/-- After an answer is prepared, the request's slot is still in the open segment and nothing waits for the commit. -/
theorem Part.answered_idle {p q : Part} {n : Nat} (asked : Part.EvidenceOnly p q) (hw : p.route.closeWait = none)
    (hrun : p.chan.running = none) (ho : p.store.streams.delivery.openSeg = some n) (ans : Answer) (t : Nat) (chain : DWord)
    (s : Nat) :
    (q.advanceStream .delivery n chain
      |> (fun r => if s < 1023 ∧ (r.stream .delivery).openSeg ≠ some n then r.slotConsumed .delivery n s false else r)
      |> Part.commitAnswer ans t n s |> Part.afterAssembly .delivery)
      = (q.advanceStream .delivery n chain).commitAnswer ans t n s := by
  have committed := (Part.advanceStream_storeOnly .delivery n chain q).trans (Part.commitAnswer_storeOnly ans t n s _)
  have stays : ((q.advanceStream .delivery n chain).stream .delivery).openSeg = some n := by
    have same : ((q.advanceStream .delivery n chain).stream .delivery).openSeg = q.store.streams.delivery.openSeg := by
      unfold Part.advanceStream Part.modSeg Part.stream
      split <;> rfl
    rw [same, asked.store]
    exact ho
  dsimp only
  rw [if_neg (fun h => h.2 stays)]
  refine Part.afterAssembly_idle ?_ ?_ _
  · exact (congrArg Route.closeWait (committed.route.trans asked.route)).trans hw
  · exact (congrArg Channel.running (committed.chan.trans asked.chan)).trans hrun

section
variable {p : Part} {a : Assembly} {chain : DWord} {t : Nat} (hr : a.receipt = some t) (hc : a.chain = some chain)
  (hw : p.route.closeWait = none) (hrun : p.chan.running = none)
include hr hc hw hrun

/-- A SAMPLE commits: its slot is consumed and the exposure engine takes it (R40, R143). -/
theorem Part.commitRecord_sample (hk : a.kind = .sample) :
    Part.commitRecord { p with asm := some a } = Part.consumeSample a.words t (Part.slotConsumed a.stream a.seg a.slot true
      (Part.advanceStream a.stream a.seg chain { p with asm := none })) := by
  have advanced := Part.advanceStream_storeOnly a.stream a.seg chain { p with asm := none }
  have taken := advanced.trans (Part.slotConsumed_storeOnly a.stream a.seg a.slot true _)
  have consumed := Part.consumeSample_only a.words t (Part.slotConsumed a.stream a.seg a.slot true
    (Part.advanceStream a.stream a.seg chain { p with asm := none }))
  have rolls : Part.rollsOver { p with asm := some a } a.stream = true := Part.rollsOver_idle hw _
  unfold Part.commitRecord
  dsimp only
  rw [if_pos hk, hr, hc, rolls]
  refine Part.afterAssembly_idle ?_ ?_ _
  · exact (congrArg Route.closeWait (consumed.route.trans taken.route)).trans hw
  · exact (congrArg Channel.running (consumed.chan.trans taken.chan)).trans hrun

/-- A request commits, and then its answer, where the stream's open segment is the request's (R20, R40). -/
theorem Part.commitRecord_request (hk : a.kind ≠ .sample) (hst : a.stream = .delivery)
    (ho : p.store.streams.delivery.openSeg = some a.seg) :
    Part.commitRecord { p with asm := some a } =
      let answered := Part.answerRequest a.kind a.words t { p with asm := none }
      Part.commitAnswer answered.1 t a.seg a.slot (answered.2.advanceStream .delivery a.seg chain) := by
  unfold Part.commitRecord
  dsimp only
  rw [if_neg hk, hr, hc, hst]
  exact Part.answered_idle (Part.answerRequest_only a.kind a.words t { p with asm := none }) hw hrun ho _ t chain a.slot
end

/-- The answer takes its slot and joins the direct write list (R20). -/
theorem Part.placeAnswer_eq {p : Part} {n : Nat} (hn : 1 ≤ n) (hw : p.route.closeWait = none) (ans : Answer) (t s : Nat) :
    p.placeAnswer ans t n s =
      let e := p.store.streams.delivery
      let words := recordWords ans.kind ans.body t e.running
      Part.slotConsumed .delivery n s true { p with store := { p.store with
        segs := p.store.segs.modify (n - 1) (fun g => { g with count := some (g.count.getD 0 + 1) })
        streams := { p.store.streams with
          delivery := { e with nextRec := e.nextRec + 1, running := recordChainField words, reserved := some (n, s) } }
        direct := p.store.direct ++ [{ kind := .answer, seg := n, slot := s, words := words }] } } := by
  unfold Part.placeAnswer
  dsimp only
  rw [Part.rollsOver_idle hw, Part.advanceStream_eq hn]
  rfl

theorem Part.commitAnswer_next {s : Nat} (hs : s < 1023) (ans : Answer) (t n : Nat) (p : Part) :
    p.commitAnswer ans t n s = p.placeAnswer ans t n (s + 1) := if_pos hs

theorem modify_modify_count (l : List SegEntry) (n : Nat) :
    (l.modify n (fun g => { g with count := some (g.count.getD 0 + 1) })).modify n
        (fun g => { g with count := some (g.count.getD 0 + 1) })
      = l.modify n (fun g => { g with count := some (g.count.getD 0 + 1 + 1) }) := by
  rw [List.modify_modify_eq]
  rfl

/-- A request and its answer in the next slot (R20, R40). -/
theorem Part.commitAnswer_advanced {p : Part} {n s : Nat} (hs : s < 1023) (hn : 1 ≤ n) (hw : p.route.closeWait = none)
    (ans : Answer) (t : Nat) (chain : DWord) :
    (p.advanceStream .delivery n chain).commitAnswer ans t n s =
      let e := p.store.streams.delivery
      let words := recordWords ans.kind ans.body t chain
      Part.slotConsumed .delivery n (s + 1) true { p with store := { p.store with
        segs := p.store.segs.modify (n - 1) (fun g => { g with count := some (g.count.getD 0 + 1 + 1) })
        streams := { p.store.streams with
          delivery := { e with
            nextRec := e.nextRec + 1 + 1, running := recordChainField words, reserved := some (n, s + 1) } }
        direct := p.store.direct ++ [{ kind := .answer, seg := n, slot := s + 1, words := words }] } } := by
  have route := (Part.advanceStream_storeOnly .delivery n chain p).route
  rw [Part.commitAnswer_next hs, Part.placeAnswer_eq hn (route ▸ hw), Part.advanceStream_eq hn]
  dsimp only
  rw [modify_modify_count]
  rfl

/-- Settles O18: word 15 through the port (`upstreamWrite_word15`), then the commit by the record's kind. -/
theorem word15CommitsTheRecord : Obligations.Word15CommitsTheRecord := by
  refine ⟨?_, ?_⟩
  · intro a d dock x chain t s hs ha hm hd hb hf hk hst hn hc ht h1 hseg hslot haddr hh ho hw hrun p e
    have running : (s.part.met dock).granted.chan.running = none := by simp [Part.met, Part.granted, hrun]
    have commit := Part.commitRecord_sample (a := { x with next := 16 }) (p := (s.part.met dock).granted) ht hc hw running hk
    rw [State.upstreamWrite_word15 hs ha hm hd hb hf hn hc ht h1 hseg hslot haddr hh, commit, Part.advanceStream_eq h1]
    dsimp only
    rw [hst]
    rfl
  · intro a d dock x chain t s hs ha hm hd hb hf hk hst hn hc ht h1 hseg hslot haddr hh ho hw hrun p answered words q e
    have asked := Part.answerRequest_only x.kind x.words t p
    have running : p.chan.running = none := by simp [p, Part.met, Part.granted, hrun]
    have commit := Part.commitRecord_request (a := { x with next := 16 }) (p := (s.part.met dock).granted) ht hc hw running hk hst ho
    rw [State.upstreamWrite_word15 hs ha hm hd hb hf hn hc ht h1 hseg (by omega) haddr hh, commit]
    dsimp only
    rw [Part.commitAnswer_advanced hslot h1 ((congrArg Route.closeWait asked.route).trans hw)]
    dsimp only
    rw [Part.grantPort_of_direct ((Part.slotConsumed_listStands _ _ _ _ _).nonempty (by simp))]

end Sys2Proof.Machine

/-! # Proofs: a request in slot 1,023 and its answer in a new segment (R20, R21, R23; log 56) -/

namespace Sys2Proof.Machine

theorem Part.openSegment_openSeg {p : Part} {n : Nat} {rest : List Nat} (h : p.store.pool = n :: rest) (st : Stream) :
    ((p.openSegment st).store.streams.get st).openSeg = some n := by
  rw [Part.openSegment_cons h]
  simp [Part.openTaken]

/-- The request's segment closes, and the answer takes slot 1 of a new one. -/
theorem Part.commitAnswer_last {p : Part} {n m : Nat} {rest : List Nat} (ho : p.store.streams.delivery.openSeg = some (n + 1))
    (hpool : p.store.pool = (m + 1) :: rest) (ans : Answer) (t : Nat) :
    p.commitAnswer ans t (n + 1) 1023
      = ((p.closeSegment .delivery (n + 1)).openSegment .delivery).placeAnswer ans t (m + 1) 1 := by
  have closed : p.slotConsumed .delivery (n + 1) 1023 false = p.closeSegment .delivery (n + 1) :=
    Part.slotConsumed_last (st := .delivery) ho (le_refl _) false
  have opened : (((p.closeSegment .delivery (n + 1)).openSegment .delivery).stream .delivery).openSeg = some (m + 1) :=
    Part.openSegment_openSeg (p := p.closeSegment .delivery (n + 1)) hpool .delivery
  unfold Part.commitAnswer
  rw [if_neg (by omega)]
  dsimp only
  rw [closed, opened]

/-- An answer in slot 1 of the stream's open segment: the append slot is 2. -/
theorem Part.placeAnswer_first {p : Part} {m : Nat} (hw : p.route.closeWait = none)
    (ho : p.store.streams.delivery.openSeg = some (m + 1)) (ans : Answer) (t : Nat) :
    p.placeAnswer ans t (m + 1) 1 =
      let f := p.store.streams.delivery
      let words := recordWords ans.kind ans.body t f.running
      { p with store := { p.store with
        segs := p.store.segs.modify m (fun g => { g with count := some (g.count.getD 0 + 1) })
        streams := { p.store.streams with
          delivery := { f with
            nextRec := f.nextRec + 1, running := recordChainField words, append := some 2, reserved := some (m + 1, 1) } }
        direct := p.store.direct ++ [{ kind := .answer, seg := m + 1, slot := 1, words := words }] } } := by
  rw [Part.placeAnswer_eq (by omega) hw]
  refine (Part.slotConsumed_below (st := .delivery) (k := 1) ?_ (by decide) true).trans rfl
  exact ho

/-- The last slot's record counts in the segment that closes with it. -/
theorem Part.closeSegment_advanced (n : Nat) (chain : DWord) (p : Part) :
    (p.advanceStream .delivery (n + 1) chain).closeSegment .delivery (n + 1) = { p with store := { p.store with
      segs := p.store.segs.modify n (fun g => { g with
        count := some (g.count.getD 0 + 1), state := .closed, closeTime := some p.clock.now, exitChain := some chain
        owed := .closed })
      streams := { p.store.streams with
        delivery := { p.store.streams.delivery with
          nextRec := p.store.streams.delivery.nextRec + 1, running := chain, openSeg := none, append := none } } } } := by
  rw [Part.closeSegment_eq, Part.advanceStream_eq (by omega)]
  dsimp only
  rw [Nat.add_sub_cancel, List.modify_modify_eq]
  rfl

/-- Settles O20: `slotConsumed` by its branches, and the request in slot 1,023 by the commit's closing and opening. -/
theorem theLastSlotClosesTheSegment : Obligations.TheLastSlotClosesTheSegment := by
  refine ⟨?_, ?_⟩
  · intro st n k needs p e closed waits
    obtain ⟨stays, opens, stalls⟩ := Part.slotConsumed_cases st n k needs p
    refine ⟨fun ho hk => ?_, fun ho hk hn => ?_, fun ho hk hn hw hm => ?_, fun ho hk hn hw hm => ?_, fun ho => ?_⟩
    · exact Part.slotConsumed_below ho hk needs
    · exact stays ho hk hn
    · exact opens ho hk hn hw hm
    · rw [stalls ho hk hn hw hm, Part.stall_eq, Part.closeSegment_eq]
      simp [closed, e]
    · rw [Part.slotConsumed_closed ho]
      rfl
  · intro a d dock x chain t m rest s hs ha hm hd hb hf hk hst hn hc ht h1 hseg hslot haddr hh ho hw hrun hpool
      p answered q e closed new f words
    have asked := Part.answerRequest_only x.kind x.words t p
    obtain ⟨n, hn1⟩ : ∃ n, x.seg = n + 1 := ⟨x.seg - 1, by omega⟩
    have running : (s.part.met dock).granted.chan.running = none := by simp [Part.met, Part.granted, hrun]
    have commit := Part.commitRecord_request (a := { x with next := 16 }) (p := (s.part.met dock).granted) ht hc hw running hk hst ho
    have closes : (q.advanceStream .delivery x.seg chain).closeSegment .delivery x.seg = closed := by
      simp only [closed, hn1, Part.closeSegment_advanced]
      rfl
    have frame := Part.advanceStream_storeOnly .delivery x.seg chain q
    have opened : (q.advanceStream .delivery x.seg chain).store.streams.delivery.openSeg = some (n + 1) := by
      rw [Part.advanceStream_eq h1]
      exact (congrArg (fun z => z.streams.delivery.openSeg) asked.store).trans (hn1 ▸ ho)
    have pool : (q.advanceStream .delivery x.seg chain).store.pool = (m + 1) :: rest := by
      rw [Part.advanceStream_eq h1]
      exact (congrArg Store.pool asked.store).trans hpool
    have route : new.route.closeWait = none :=
      (congrArg Route.closeWait ((Part.openSegment_storeOnly .delivery closed).route.trans asked.route)).trans hw
    have last := Part.commitAnswer_last opened pool answered.1 t
    rw [← hn1, closes, Part.placeAnswer_first route (Part.openSegment_openSeg (p := closed)
      ((congrArg Store.pool asked.store).trans hpool) .delivery)] at last
    rw [State.upstreamWrite_word15 hs ha hm hd hb hf hn hc ht h1 hseg (by omega) (by omega) hh, commit]
    dsimp only
    rw [hslot]
    refine (congrArg (fun z : Part => Host.Outcome.next { s with
      mem := s.mem.write a.toNat (BitVec.ofNat 16 (chain.toNat / 65536)), part := z.grantPort }) last).trans ?_
    rw [Part.grantPort_of_direct (by simp)]

end Sys2Proof.Machine

/-! # Proofs: which accesses must wait (R22, R29, R47, R48) -/

namespace Sys2Proof.Machine

/-! ## What an access waits for, read off the part -/

/-- A write into a record segment waits: for the port, or at word 0 for a VOID record. -/
def Part.recordWaits (p : Part) (a : Addr) (d : Word) : Bool :=
  match (if p.expects a then p.asm else none) with
  | some _ => !p.portFree
  | none =>
    match p.placeWrite a d with
    | .error _ => false
    | .ok _ => p.voidPending || !p.portFree

/-- A write waits, by its address and the mode it is placed under (R31, R32). -/
def Part.classifyWaits (p : Part) (a : Addr) (d : Word) (released : Option Mode) : Bool :=
  match released.getD p.mode with
  | .unformatted => !p.portFree
  | .foreign => false
  | _ =>
    if addrSeg a.toNat = 0 then
      if a.toNat < 16 then false
      else if a.toNat < 2048 then p.route.state == .idle && !p.portFree
      else !p.portFree
    else if p.store.nSeg ≤ addrSeg a.toNat then false
    else p.headerPending (addrSeg a.toNat) || p.recordWaits a d

/-- A write waits, its break included (R22, R42). -/
def Part.placeWaits (p : Part) (a : Addr) (d : Word) (t : Nat) (released : Option Mode) : Bool :=
  if p.breaks a then (p.voidAssembly t true).classifyWaits a d released && p.heldBack a
  else p.classifyWaits a d released

/-- A read under the device mode waits (R45). -/
def Part.readWaits (p : Part) (a : Addr) : Bool :=
  let n := addrSeg a.toNat
  if p.policed && decide (p.store.nSeg ≤ n) then false
  else if p.policed && n != 0 && p.shut n then false
  else p.policed && p.headerPending n || !p.portFree

/-- A piece of work waits. -/
def Part.workWaits (p : Part) : Work → Bool
  | .police a _ _ => p.breaks a && p.voidPending
  | .place a d t released => p.placeWaits a d t released
  | .modeRead a => p.readWaits a
  | .write _ _ _ => false
  | .gate _ _ _ => false
  | .read _ => false

theorem State.forward_isNone (a : Addr) (d : Word) (s : State) : (s.forward a d).isNone = !s.part.portFree := by
  unfold State.forward
  cases s.part.portFree <;> rfl

theorem State.acceptWord_isNone (a : Addr) (d : Word) (t : Nat) (x : Assembly) (s : State) :
    (s.acceptWord a d t x).isNone = !s.part.portFree := by
  rw [← State.forward_isNone a (x.takeWord d t (s.part.stream x.stream).running).1 s]
  unfold State.acceptWord
  dsimp only
  cases s.forward a (x.takeWord d t (s.part.stream x.stream).running).1 <;> rfl

theorem State.writeRecord_isNone (a : Addr) (d : Word) (t : Nat) (s : State) :
    (s.writeRecord a d t).isNone = s.part.recordWaits a d := by
  unfold State.writeRecord Part.recordWaits
  dsimp only
  cases (if s.part.expects a then s.part.asm else none) with
  | some x => exact State.acceptWord_isNone a d t x s
  | none =>
    cases s.part.placeWrite a d with
    | error c => rfl
    | ok x =>
      cases hv : s.part.voidPending
      · simpa using State.forward_isNone a d s
      · rfl

theorem State.classify_isNone (a : Addr) (d : Word) (t : Nat) (released : Option Mode) (s : State) :
    (s.classify a d t released).isNone = s.part.classifyWaits a d released := by
  have place : (if addrSeg a.toNat = 0 then
        if a.toNat < 16 then some { s with part := s.part.refuseWrite a .label }
        else if a.toNat < 2048 then
          if s.part.route.state ≠ .idle then some { s with part := s.part.refuseWrite a .routeLocked }
          else (s.forward a d).map (fun t => { t with part := t.part.disturbLoad })
        else s.forward a d
      else if s.part.store.nSeg ≤ addrSeg a.toNat then some { s with part := s.part.refuseWrite a .outOfStore }
      else if s.part.headerPending (addrSeg a.toNat) then none
      else s.writeRecord a d t).isNone
      = if addrSeg a.toNat = 0 then
          if a.toNat < 16 then false
          else if a.toNat < 2048 then s.part.route.state == .idle && !s.part.portFree
          else !s.part.portFree
        else if s.part.store.nSeg ≤ addrSeg a.toNat then false
        else s.part.headerPending (addrSeg a.toNat) || s.part.recordWaits a d := by
    split
    · split
      · rfl
      · split
        · split
          · simp [*]
          · simp_all [State.forward_isNone]
        · exact State.forward_isNone a d s
    · split
      · rfl
      · split
        · simp [*]
        · simp [*, State.writeRecord_isNone]
  unfold State.classify Part.classifyWaits
  dsimp only
  cases released.getD s.part.mode with
  | unformatted => exact State.forward_isNone a d s
  | foreign => rfl
  | guarded => exact place
  | service => exact place

theorem State.place_isNone (a : Addr) (d : Word) (t : Nat) (released : Option Mode) (s : State) :
    (s.place a d t released).isNone = s.part.placeWaits a d t released := by
  unfold State.place Part.placeWaits
  dsimp only
  split
  · rw [← State.classify_isNone a d t released { s with part := s.part.voidAssembly t true }]
    cases State.classify a d t released { s with part := s.part.voidAssembly t true } with
    | some u => rfl
    | none => cases hb : s.part.heldBack a <;> rfl
  · rw [Option.isNone_map, State.classify_isNone]

theorem State.modeRead_isNone (a : Addr) (s : State) : (s.modeRead a).isNone = s.part.readWaits a := by
  unfold State.modeRead Part.readWaits
  dsimp only
  split
  · rfl
  · split
    · rfl
    · split
      · simp [*]
      · cases hf : s.part.portFree <;> simp [*]

theorem State.police_isNone (a : Addr) (d : Word) (released : Option Mode) (s : State) :
    (s.police a d released).isNone = (s.part.breaks a && s.part.voidPending) := by
  unfold State.police
  cases s.part.breaks a && s.part.voidPending <;> rfl

/-- Which work waits is decided by the part alone. -/
theorem State.tryWork_isNone (w : Work) (s : State) : (s.tryWork w).isNone = s.part.workWaits w := by
  cases w with
  | write a d dock => rfl
  | gate a d dock => rfl
  | read a => rfl
  | police a d released => exact State.police_isNone a d released s
  | place a d t released => exact State.place_isNone a d t released s
  | modeRead a => exact (Option.isNone_map).trans (State.modeRead_isNone a s)

theorem State.tryWork_waits {w : Work} {s : State} (h : s.part.workWaits w = true) : s.tryWork w = none :=
  Option.isNone_iff_eq_none.mp ((State.tryWork_isNone w s).trans h)

theorem State.workWaits_of_none {w : Work} {s : State} (h : s.tryWork w = none) : s.part.workWaits w = true :=
  (State.tryWork_isNone w s).symm.trans (Option.isNone_iff_eq_none.mpr h)

end Sys2Proof.Machine

/-! # Proofs: an access that must wait, at an idle gate or behind others (R22, R29, R47, R51) -/

namespace Sys2Proof.Machine

/-! ## When the port or a header holds a write back -/

theorem Part.portFree_false {p : Part} (h : p.arb.burst ≠ none ∨ (8 ≤ p.arb.fairness ∧ p.req2Waiting = true)) :
    p.portFree = false := by
  unfold Part.portFree
  rcases h with h | ⟨hf, hr⟩
  · cases hb : p.arb.burst with
    | none => exact absurd hb h
    | some b => rfl
  · simp [hf, hr]

theorem Part.classifyWaits_unformatted {p : Part} {released : Option Mode} (h : released.getD p.mode = .unformatted)
    (a : Addr) (d : Word) : p.classifyWaits a d released = !p.portFree := by
  unfold Part.classifyWaits
  simp only [h]

/-- In the store, past the label and the route sheet. -/
theorem Part.classifyWaits_segment0 {p : Part} {a : Addr} (hm : p.mode = .guarded ∨ p.mode = .service)
    (hlow : 2048 ≤ a.toNat) (hhigh : a.toNat < 16384) (d : Word) : p.classifyWaits a d none = !p.portFree := by
  have h0 : addrSeg a.toNat = 0 := by
    unfold addrSeg
    omega
  have h16 : ¬ a.toNat < 16 := by omega
  have h2048 : ¬ a.toNat < 2048 := by omega
  unfold Part.classifyWaits
  rcases hm with hm | hm <;> simp only [Option.getD_none, hm, h0, h16, h2048, if_true, if_false]

/-- In a record segment of the store. -/
theorem Part.classifyWaits_record {p : Part} {a : Addr} (hm : p.mode = .guarded ∨ p.mode = .service)
    (h1 : 1 ≤ addrSeg a.toNat) (hn : addrSeg a.toNat < p.store.nSeg) (d : Word) :
    p.classifyWaits a d none = (p.headerPending (addrSeg a.toNat) || p.recordWaits a d) := by
  have h0 : addrSeg a.toNat ≠ 0 := by omega
  have hx : ¬ p.store.nSeg ≤ addrSeg a.toNat := by omega
  unfold Part.classifyWaits
  rcases hm with hm | hm <;> simp only [Option.getD_none, hm, h0, hx, if_false]

theorem Part.placeWaits_unbroken {p : Part} {a : Addr} (h : p.breaks a = false) (d : Word) (t : Nat) (m : Option Mode) :
    p.placeWaits a d t m = p.classifyWaits a d m := by
  unfold Part.placeWaits
  rw [h]
  rfl

theorem Part.recordWaits_expects {p : Part} {a : Addr} {x : Assembly} (hx : p.asm = some x) (h : p.expects a = true)
    (d : Word) : p.recordWaits a d = !p.portFree := by
  have some_ : (if p.expects a = true then p.asm else none) = some x := (if_pos h).trans hx
  unfold Part.recordWaits
  simp only [some_]

/-- A word 0 waits for a VOID record (R22). -/
theorem Part.recordWaits_voids {p : Part} {a : Addr} {d : Word} {x : Assembly} (ha : p.asm = none)
    (hp : p.placeWrite a d = .ok x) (hv : p.voidPending = true) : p.recordWaits a d = true := by
  have none_ : (if p.expects a = true then p.asm else none) = none := by
    rw [ha]
    exact ite_self none
  unfold Part.recordWaits
  simp only [none_, hp, hv, Bool.true_or]

theorem Part.breaks_of_noAsm {p : Part} (h : p.asm = none) (a : Addr) : p.breaks a = false := by
  simp [Part.breaks, h]

theorem Part.breaks_of_unpoliced {p : Part} (h : p.mode = .unformatted) (a : Addr) : p.breaks a = false := by
  simp [Part.breaks, Part.policed, h]

/-! ## A break leaves a pending header pending -/

theorem Part.endRunning_listStands (st : CmdState) (o : CmdOutcome) (rs : List Word) (p : Part) :
    Part.ListStands p (p.endRunning st o rs) := by
  unfold Part.endRunning
  split
  · exact .refl p
  · exact .ite (.of_eq rfl rfl rfl) (.of_eq rfl rfl rfl)

theorem Part.decideWhere_listStands (st : Stream) (p : Part) : Part.ListStands p (p.decideWhere st Part.endRunning) := by
  have served : Part.ListStands p (if (p.stream st).openSeg.isSome then p else p.needSegment st) :=
    .ite (.refl p) (Part.needSegment_listStands st p)
  unfold Part.decideWhere
  exact .ite (Part.endRunning_listStands _ _ _ p) (.ite (served.trans (Part.endRunning_listStands _ _ _ _))
    (served.trans (Part.endRunning_listStands _ _ _ _)))

theorem Part.finishClose_listStands (st : Stream) (p : Part) : Part.ListStands p (p.finishClose st) := by
  have ended (q : Part) : Part.ListStands q { q with route := { q.route with closePending := false, closeWait := none } } :=
    .of_eq rfl rfl rfl
  refine .ite ?_ (.refl p)
  dsimp only
  split
  · exact (Part.closeSegment_listStands st _ p).trans (ended _)
  · exact ended p

theorem Part.voidAssembly_listStands (t : Nat) (direct : Bool) (p : Part) : Part.ListStands p (p.voidAssembly t direct) := by
  unfold Part.voidAssembly
  split
  · exact .refl p
  · rename_i x _
    have noted : Part.ListStands p (Part.noteReceipt t { p with asm := none }) := .of_eq rfl rfl rfl
    have advanced := noted.trans (Part.advanceStream_listStands x.stream x.seg
      (recordChainField (x.voidWords t (p.stream x.stream).running)) _)
    have raised (q : Part) : Part.ListStands q (q.raise causeRecordBroken) := .of_eq rfl rfl rfl
    have after (q : Part) : Part.ListStands q (q.afterAssembly x.stream) :=
      (Part.finishClose_listStands _ q).trans (.ite (Part.decideWhere_listStands _ _) (.refl _))
    exact (((Part.ListStands.ite (advanced.trans (Part.pushDirect_listStands _ _)) advanced).trans
      (Part.slotConsumed_listStands _ _ _ _ _)).trans (raised _)).trans (after _)

theorem Part.ListStands.headerPending {p q : Part} (h : Part.ListStands p q) {n : Nat} (hp : p.headerPending n = true) :
    q.headerPending n = true := by
  obtain ⟨more, hm⟩ := h.direct
  unfold Part.headerPending at hp ⊢
  rw [hm, List.any_append, hp, Bool.true_or]

/-- A write into a segment whose header is still to be written waits, also one that breaks a record (R22; log 17). -/
theorem Part.placeWaits_headed {p : Part} {a : Addr} (hm : p.mode = .guarded ∨ p.mode = .service)
    (h1 : 1 ≤ addrSeg a.toNat) (hn : addrSeg a.toNat < p.store.nSeg) (hh : p.headerPending (addrSeg a.toNat) = true)
    (d : Word) (t : Nat) : p.placeWaits a d t none = true := by
  have void := Part.voidAssembly_listStands t true p
  have waits := Part.classifyWaits_record hm h1 hn d
  have broken := Part.classifyWaits_record (p := p.voidAssembly t true) (void.mode ▸ hm) h1 (void.nSeg ▸ hn) d
  unfold Part.placeWaits Part.heldBack
  rw [waits, broken, hh, void.headerPending hh]
  simp

/-! ## The access that comes to an idle gate -/

/-- A write that breaks nothing at the policer, or no VOID is pending, waits to be placed. -/
theorem State.upstreamWrite_waits {s : State} {a : Addr} {d : Word} (hq : s.Quiet) (hg : s.part.chan.gate = .idle)
    (hd : d ≠ 0x5AC3) (dock : Bool) (hv : ((s.part.met dock).breaks a && (s.part.met dock).voidPending) = false)
    (hw : (s.part.met dock).placeWaits a d s.part.clock.now none = true) :
    exec (.upstreamWrite a d dock) s = .next { s with
      port := { s.port with waiting := [.place a d s.part.clock.now none] }, part := s.part.met dock } := by
  let v (w : Work) : State := State.setWaiting [w] { s with part := s.part.met dock }
  have policed : (v (.police a d none)).tryWork (.police a d none)
      = some (v (.police a d none), [.place a d s.part.clock.now none]) := by
    show State.police a d none (v (.police a d none)) = _
    unfold State.police
    exact if_neg (by simpa [v, State.setWaiting] using hv)
  have waits : (v (.place a d s.part.clock.now none)).tryWork (.place a d s.part.clock.now none) = none :=
    State.tryWork_waits (s := v (.place a d s.part.clock.now none)) hw
  rw [State.upstreamWrite_policed hq hg hd]
  exact congrArg Host.Outcome.next ((State.drain_serves rfl policed 6).trans (State.drain_waits rfl waits 5))

/-- A write that would break a record while a VOID record is pending waits at the policer (R22, R42). -/
theorem State.upstreamWrite_waitsPoliced {s : State} {a : Addr} {d : Word} (hq : s.Quiet) (hg : s.part.chan.gate = .idle)
    (hd : d ≠ 0x5AC3) (dock : Bool) (hv : ((s.part.met dock).breaks a && (s.part.met dock).voidPending) = true) :
    exec (.upstreamWrite a d dock) s = .next { s with
      port := { s.port with waiting := [.police a d none] }, part := s.part.met dock } := by
  let v (w : Work) : State := State.setWaiting [w] { s with part := s.part.met dock }
  have waits : (v (.police a d none)).tryWork (.police a d none) = none :=
    State.tryWork_waits (s := v (.police a d none)) hv
  rw [State.upstreamWrite_policed hq hg hd]
  exact congrArg Host.Outcome.next (State.drain_waits rfl waits 6)

/-- A read at an idle gate, off the presentation address, is handed to the device mode. -/
theorem State.upstreamRead_waits {s : State} {a : Addr} (hq : s.Quiet) (hg : s.part.chan.gate = .idle)
    (hu : s.part.presentedAt a = none) (hw : s.part.readWaits a = true) :
    exec (.upstreamRead a) s = .next { s with port := { s.port with waiting := [.modeRead a] } } := by
  obtain ⟨hr, hwait⟩ := hq
  let v (w : Work) : State := s.setWaiting [w]
  have arrives : (v (.read a)).tryWork (.read a) = some (v (.read a), [.modeRead a]) := by
    have presented : (v (.read a)).part.presentedAt a = none := hu
    have gate : (v (.read a)).part.chan.gate = .idle := hg
    show some (State.arriveRead a (v (.read a))) = _
    unfold State.arriveRead
    simp only [presented, gate]
  have waits : (v (.modeRead a)).tryWork (.modeRead a) = none := State.tryWork_waits (s := v (.modeRead a)) hw
  show execUpstreamRead a s = _
  unfold execUpstreamRead State.access
  rw [hwait]
  dsimp only
  rw [if_pos hr, State.settle_eq_drain]
  exact congrArg Host.Outcome.next ((State.drain_serves rfl arrives 7).trans (State.drain_waits rfl waits 6))

/-! ## The access behind one that waits -/

theorem State.setWaiting_waits {w : Work} {s : State} (h : s.tryWork w = none) (ws : List Work) :
    (s.setWaiting ws).tryWork w = none :=
  State.tryWork_waits (s := s.setWaiting ws) (State.workWaits_of_none (s := s) h)

/-- An access behind one that must wait waits untouched (R29, R47). -/
theorem State.access_behind {s : State} {w : Work} {rest : List Work} (hr : s.part.running = true)
    (hs : s.port.waiting = w :: rest) (hw : s.tryWork w = none) (v : Work) :
    s.access v = s.setWaiting (s.port.waiting ++ [v]) := by
  unfold State.access
  dsimp only
  rw [if_pos hr, State.settle_eq_drain]
  have first : (s.setWaiting (s.port.waiting ++ [v])).port.waiting = w :: (rest ++ [v]) := by
    rw [hs]
    rfl
  have length : 8 * (s.setWaiting (s.port.waiting ++ [v])).port.waiting.length = 8 * (rest ++ [v]).length + 7 + 1 := by
    rw [first, List.length_cons]
    omega
  rw [length]
  exact State.drain_waits first (State.setWaiting_waits hw _) _

/-- An access while RESET is asserted or a mount runs waits untouched (R199, R203). -/
theorem State.access_held {s : State} (hr : s.part.running = false) (hp : s.part.power ≠ .off) (v : Work) :
    s.access v = s.setWaiting (s.port.waiting ++ [v]) := by
  unfold State.access
  dsimp only
  rw [if_neg (by simp [hr]), if_neg hp]

/-- An access without SUPPLY is lost (R29). -/
theorem State.access_lost {s : State} (hp : s.part.power = .off) (v : Work) : s.access v = s := by
  have stopped : s.part.running = false := by simp [Part.running, hp]
  unfold State.access
  dsimp only
  rw [if_neg (by simp [stopped]), if_pos hp]

end Sys2Proof.Machine

/-! # Proofs: what waits is served by the row that ends the wait (R22, R29, R39, R42, R51) -/

namespace Sys2Proof.Machine

/-! ## What a write does where it is placed -/

theorem State.classify_unformatted {s : State} {released : Option Mode} (h : released.getD s.part.mode = .unformatted)
    (a : Addr) (d : Word) (t : Nat) : s.classify a d t released = s.forward a d := by
  unfold State.classify
  simp only [h]

theorem State.classify_segment0 {s : State} {a : Addr} (hm : s.part.mode = .guarded ∨ s.part.mode = .service)
    (hlow : 2048 ≤ a.toNat) (hhigh : a.toNat < 16384) (d : Word) (t : Nat) :
    s.classify a d t none = s.forward a d := by
  have h0 : addrSeg a.toNat = 0 := by
    unfold addrSeg
    omega
  have h16 : ¬ a.toNat < 16 := by omega
  have h2048 : ¬ a.toNat < 2048 := by omega
  unfold State.classify
  rcases hm with hm | hm <;> simp only [Option.getD_none, hm, h0, h16, h2048, if_true, if_false]

theorem State.classify_label {s : State} {a : Addr} (hm : s.part.mode = .guarded ∨ s.part.mode = .service)
    (h16 : a.toNat < 16) (d : Word) (t : Nat) :
    s.classify a d t none = some { s with part := s.part.refuseWrite a .label } := by
  have h0 : addrSeg a.toNat = 0 := by
    unfold addrSeg
    omega
  unfold State.classify
  rcases hm with hm | hm <;> simp only [Option.getD_none, hm, h0, h16, if_true]

theorem State.writeRecord_refused {s : State} {a : Addr} {d : Word} {c : RefusalCause} (ha : s.part.asm = none)
    (hp : s.part.placeWrite a d = .error c) (t : Nat) :
    s.writeRecord a d t = some { s with part := s.part.refuseWrite a c } := by
  have unexpected : (if s.part.expects a = true then s.part.asm else none) = none := by
    rw [ha]
    exact ite_self none
  unfold State.writeRecord
  simp only [unexpected, hp]

theorem State.writeRecord_begins {s : State} {a : Addr} {d : Word} {x : Assembly} (ha : s.part.asm = none)
    (hp : s.part.placeWrite a d = .ok x) (hv : s.part.voidPending = false) (hf : s.part.portFree = true) (t : Nat) :
    s.writeRecord a d t
      = some { s with mem := s.mem.write a.toNat d, part := { s.part.granted with asm := some x } } := by
  have unexpected : (if s.part.expects a = true then s.part.asm else none) = none := by
    rw [ha]
    exact ite_self none
  unfold State.writeRecord
  simp only [unexpected, hp, hv, State.forward_eq hf]
  rfl

theorem State.writeRecord_expected {s : State} {a : Addr} {x : Assembly} (ha : s.part.asm = some x)
    (he : s.part.expects a = true) (d : Word) (t : Nat) : s.writeRecord a d t = s.acceptWord a d t x := by
  have expected : (if s.part.expects a = true then s.part.asm else none) = some x := (if_pos he).trans ha
  unfold State.writeRecord
  simp only [expected]

/-- Word 12 takes the receipt time from the time the word arrived, and the chain from the words (R39). -/
theorem State.acceptWord_receipt {s : State} {x : Assembly} (hf : s.part.portFree = true) (hn : x.next = 12) (a : Addr)
    (d : Word) (t : Nat) : s.acceptWord a d t x = some { s with
      mem := s.mem.write a.toNat (BitVec.ofNat 16 t)
      part := { s.part.granted with
        clock := { s.part.clock with floor := max s.part.clock.floor t }
        asm := some { x with
          next := 13, receipt := some t
          chain := some (recordChain (s.part.store.streams.get x.stream).running (x.words ++ words32 t)) } } } := by
  unfold State.acceptWord Assembly.takeWord Assembly.noteFloor
  simp only [hn, Nat.lt_irrefl, if_false, if_true, State.forward_eq hf, Nat.reduceEqDiff]
  rfl

theorem Part.refuseWrite_eq (a : Addr) (c : RefusalCause) (p : Part) : p.refuseWrite a c = { p with
    attention := p.attention ||| causeWriteRefused
    refusals := { first := some (match p.refusals.first with | some f => f | none => (a, c)),
                  count := min 65535 (p.refusals.count + 1) } } := by
  have count : sat16 (p.refusals.count + 1) = min 65535 (p.refusals.count + 1) := Nat.min_comm _ _
  unfold Part.refuseWrite
  rw [count]
  cases p.refusals.first <;> rfl

/-- A record is voided with its VOID record on the direct write list, where nothing waits for the assembly's end (R42). -/
theorem Part.voidAssembly_eq {p : Part} {x : Assembly} (hx : p.asm = some x) (h1 : 1 ≤ x.seg)
    (hw : p.route.closeWait = none) (hrun : p.chan.running = none) (t : Nat) :
    p.voidAssembly t true =
      let e := p.store.streams.get x.stream
      let head := recordHead .void (x.words.drop 1) t
      let chain := recordChain e.running head
      (Part.slotConsumed x.stream x.seg x.slot true { p with
        asm := none
        clock := { p.clock with floor := max p.clock.floor t }
        store := { p.store with
          segs := p.store.segs.modify (x.seg - 1) (fun g => { g with count := some (g.count.getD 0 + 1) })
          streams := p.store.streams.set x.stream { e with nextRec := e.nextRec + 1, running := chain }
          direct := p.store.direct
            ++ [{ kind := .void, seg := x.seg, slot := x.slot, words := head ++ dwords chain }] } }).raise
        causeRecordBroken := by
  unfold Part.voidAssembly
  simp only [hx, Part.rollsOver_idle hw, if_true, Part.advanceStream_eq h1, Assembly.voidWords, recordChainField_recordWords]
  have consumed (q : Part) := Part.slotConsumed_storeOnly x.stream x.seg x.slot true q
  refine Part.afterAssembly_idle ?_ ?_ _
  · exact (congrArg Route.closeWait (consumed _).route).trans hw
  · exact (congrArg Channel.running (consumed _).chan).trans hrun

/-! ## Serving one access -/

theorem State.settle_placed {v u : State} {a : Addr} {d : Word} {t : Nat} {m : Option Mode}
    (hw : v.port.waiting = [.place a d t m]) (hp : v.place a d t m = some (u, [])) :
    v.settle = { u.setWaiting [] with part := u.part.grantPort } := by
  rw [State.settle_eq_drain, hw]
  exact (State.drain_serves hw hp 7).trans (State.drain_nil rfl 7)

theorem State.settle_unbroken {v u : State} {a : Addr} {d : Word} {t : Nat} {m : Option Mode}
    (hw : v.port.waiting = [.place a d t m]) (hb : v.part.breaks a = false) (hc : v.classify a d t m = some u) :
    v.settle = { u.setWaiting [] with part := u.part.grantPort } :=
  State.settle_placed hw ((State.place_unbroken hb d t m).trans (by rw [hc]; rfl))

theorem State.settle_read {v u : State} {a : Addr} (hw : v.port.waiting = [.modeRead a]) (hr : v.modeRead a = some u) :
    v.settle = { u.setWaiting [] with part := u.part.grantPort } := by
  have served : v.tryWork (.modeRead a) = some (u, []) := by
    show (v.modeRead a).map (fun t => (t, [])) = _
    rw [hr]
    rfl
  rw [State.settle_eq_drain, hw]
  exact (State.drain_serves hw served 7).trans (State.drain_nil rfl 7)

/-- A read that nothing holds back returns the word in memory. -/
theorem State.modeRead_memory {s : State} {a : Addr} (hf : s.part.portFree = true)
    (h : s.part.policed = false ∨ (addrSeg a.toNat < s.part.store.nSeg ∧ s.part.shut (addrSeg a.toNat) = false
      ∧ s.part.headerPending (addrSeg a.toNat) = false)) :
    s.modeRead a = some { s.answerRead (s.mem.read a.toNat) with part := s.part.granted } := by
  unfold State.modeRead
  dsimp only
  rcases h with h | ⟨hn, hs, hh⟩
  · simp only [h, Bool.false_and, Bool.false_eq_true, if_false, hf, if_true]
    rfl
  · have outside : ¬ s.part.store.nSeg ≤ addrSeg a.toNat := by omega
    simp only [hs, hh, outside, decide_false, Bool.and_false, Bool.false_eq_true, if_false, hf, if_true]
    rfl

end Sys2Proof.Machine

/-! # Proofs: the label write that ends a FORMAT leaves the port free (R51, R193, R195; log 50) -/

namespace Sys2Proof.Machine

/-! ## What the end of a long operation leaves to the port -/

/-- The mode, the arbiter and the assembly are as they were. -/
structure Part.PortStands (p q : Part) : Prop where
  mode : q.mode = p.mode
  arb : q.arb = p.arb
  asm : q.asm = p.asm

theorem Part.PortStands.refl (p : Part) : Part.PortStands p p := ⟨rfl, rfl, rfl⟩

theorem Part.PortStands.trans {p q r : Part} (h : Part.PortStands p q) (k : Part.PortStands q r) : Part.PortStands p r :=
  ⟨k.mode.trans h.mode, k.arb.trans h.arb, k.asm.trans h.asm⟩

theorem Part.PortStands.ite {p q r : Part} {c : Prop} [Decidable c] (h : Part.PortStands p q) (k : Part.PortStands p r) :
    Part.PortStands p (if c then q else r) := by
  split
  · exact h
  · exact k

theorem Part.slotsChanged_portStands (ended : Bool) (p : Part) : Part.PortStands p (p.slotsChanged ended) := by
  have waiting : Part.PortStands p p.beginWaiting := .ite ⟨rfl, rfl, rfl⟩ (.refl p)
  have verify (q : Part) : Part.PortStands q q.startVerify := by
    unfold Part.startVerify
    split
    · exact .ite ⟨rfl, rfl, rfl⟩ (.refl q)
    · exact .refl q
  have abandoned (q : Part) : Part.PortStands q q.abandonStep := by
    unfold Part.abandonStep
    split
    · exact .refl q
    · exact .ite ⟨rfl, rfl, rfl⟩ ⟨rfl, rfl, rfl⟩
  have begun (n : Nat) (q : Part) : Part.PortStands q (q.beginStep n) := by
    unfold Part.beginStep
    split <;> exact ⟨rfl, rfl, rfl⟩
  have turn (q : Part) : Part.PortStands q (q.scrubTurn ended) := .ite (abandoned q) (.ite (begun _ q) (.refl q))
  exact (waiting.trans (verify _)).trans (turn _)

theorem Part.endRunning_portStands (st : CmdState) (o : CmdOutcome) (rs : List Word) (p : Part) :
    Part.PortStands p (p.endRunning st o rs) := by
  unfold Part.endRunning
  split
  · exact .refl p
  · exact .ite ⟨rfl, rfl, rfl⟩ ⟨rfl, rfl, rfl⟩

theorem Part.freeClaim_portStands (i : Nat) (p : Part) : Part.PortStands p (p.freeClaim i) := by
  have held (n : Nat) (q : Part) : Part.PortStands q (q.modSeg n (fun e => { e with holds := e.holds - 1 })) :=
    .ite (.refl q) ⟨rfl, rfl, rfl⟩
  have fold (l : List Nat) : ∀ q : Part,
      Part.PortStands q (l.foldl (fun p n => p.modSeg n (fun e => { e with holds := e.holds - 1 })) q) := by
    induction l with
    | nil => exact .refl
    | cons n l ih => exact fun q => (held n q).trans (ih _)
  have freed (q : Part) : Part.PortStands q (q.modClaim i (fun _ => Claim.free)) := ⟨rfl, rfl, rfl⟩
  exact (fold _ p).trans (freed _)

theorem Part.closeVerify_portStands (i : Nat) (p : Part) : Part.PortStands p (p.closeVerify i) := by
  have vacated (q : Part) : Part.PortStands q q.vacateVerify := ⟨rfl, rfl, rfl⟩
  exact ((Part.freeClaim_portStands i p).trans (vacated _)).trans (Part.slotsChanged_portStands _ _)

/-- A command that waited for the end of a long operation takes effect. -/
theorem Part.afterLongBurst_portStands (p : Part) : Part.PortStands p (p.afterLongBurst true) := by
  have deferred (w : RunningWork) : Part.PortStands p (p.deferredWork w true) := by
    unfold Part.deferredWork
    split
    · exact .refl p
    · exact .refl p
    · exact .ite (Part.closeVerify_portStands _ p) (Part.freeClaim_portStands _ p)
    · exact .refl p
  have done (w : RunningWork) := (deferred w).trans (Part.endRunning_portStands .done .ok [] _)
  unfold Part.afterLongBurst
  split
  · exact .refl p
  · split
    · exact done _
    · exact done _
    · exact done _
    · exact .refl p

theorem Part.EvidenceOnly.portStands {p q : Part} (h : Part.EvidenceOnly p q) : Part.PortStands p q :=
  ⟨h.mode, h.arb, h.asm⟩

/-- A completed FORMAT leaves mode GUARDED and no record under assembly (R195). -/
theorem Part.formatComplete_stands (code : Nat) (p : Part) :
    (p.formatComplete code).mode = .guarded ∧ (p.formatComplete code).arb = p.arb ∧ (p.formatComplete code).asm = none := by
  have load (q : Part) : Part.PortStands q q.dropLoad :=
    .ite (Part.PortStands.trans (q := { q with route := { q.route with load := none } }) ⟨rfl, rfl, rfl⟩
      (Part.endRunning_portStands _ _ _ _)) ⟨rfl, rfl, rfl⟩
  have scheduled (q : Part) : Part.PortStands q q.rescheduleScrub := ⟨rfl, rfl, rfl⟩
  have raised (q : Part) : Part.PortStands q (q.raise causeOpDone) := ⟨rfl, rfl, rfl⟩
  have frame (q : Part) := ((((load q).trans (scheduled _)).trans (Part.resumeScanner_only _).portStands).trans
    (raised _)).trans (Part.slotsChanged_portStands true _)
  unfold Part.formatComplete
  exact ⟨(frame _).mode, (frame _).arb, (frame _).asm⟩

end Sys2Proof.Machine

/-! # Proofs: the accesses that wait, and the rows that end their wait (O22) -/

namespace Sys2Proof.Machine

theorem State.settle_forwarded {v : State} {a : Addr} {d : Word} {t : Nat} {m : Option Mode}
    (hw : v.port.waiting = [.place a d t m]) (hb : v.part.breaks a = false) (hc : v.classify a d t m = v.forward a d)
    (hf : v.part.portFree = true) :
    v.settle = { v with
      mem := v.mem.write a.toNat d, port := { v.port with waiting := [] }, part := v.part.granted.grantPort } :=
  State.settle_unbroken hw hb (hc.trans (State.forward_eq hf a d))

/-- A write released under UNFORMATTED, with the port free and no record under assembly, is made (R51). -/
theorem State.settle_unformatted {v : State} {a : Addr} {d : Word} {t : Nat}
    (hw : v.port.waiting = [.place a d t (some .unformatted)]) (ha : v.part.asm = none) (hf : v.part.portFree = true) :
    v.settle.port.waiting = [] ∧ v.settle.part.mode = v.part.mode ∧ v.settle.mem = v.mem.write a.toNat d := by
  rw [State.settle_forwarded hw (Part.breaks_of_noAsm ha a) (State.classify_unformatted rfl a d t) hf]
  exact ⟨rfl, (Part.grantPort_grantOnly v.part.granted).mode, rfl⟩

/-! ## The rows -/

/-- The part after the direct write, whose burst needs none before it. -/
theorem Part.directDone_wrote {p : Part} {e : DirectEntry} {more : List DirectEntry} (hb : p.arb.burst = none)
    (hd : p.store.direct = e :: more) : p.directDone e = { p with
      arb := { p.arb with burst := none, fairness := 0 }
      store := { p.store with
        direct := more
        streams := { p.store.streams with
          delivery := if e.kind = .answer then { p.store.streams.delivery with reserved := none }
            else p.store.streams.delivery } } } := by
  rw [Part.directDone_eq hd, ← hb]

theorem State.directWriteComplete_settles {s : State} {e : DirectEntry} {more : List DirectEntry}
    (hr : s.part.running = true) (hb : s.part.arb.burst = none) (hd : s.part.store.direct = e :: more) :
    exec .directWriteComplete s = .next (State.settle { s with
      mem := s.mem.writeWords (slotAddr e.seg e.slot) e.words, part := s.part.directDone e }) := by
  have written : s.writeDirect = { s with
      mem := s.mem.writeWords (slotAddr e.seg e.slot) e.words, part := s.part.directDone e } := by
    unfold State.writeDirect
    rw [hd]
  show execDirectWriteComplete s = _
  unfold execDirectWriteComplete State.whenReady
  rw [if_pos (by simp [hr, hb, hd]), written]

theorem State.writeComplete_settles {s : State} {base : Nat} {words : List Word} (hr : s.part.running = true)
    (hb : s.part.arb.burst = some (.record base words)) :
    exec .recordWriterWriteComplete s = .next (State.settle { s with
      mem := s.mem.writeWords base words, part := s.part.endBurst.headWritten }) := by
  have written : s.writeRecordBurst = { s with
      mem := s.mem.writeWords base words, part := s.part.endBurst.headWritten } := by
    unfold State.writeRecordBurst
    rw [hb]
  show execRecordWriterWriteComplete s = _
  unfold execRecordWriterWriteComplete State.whenReady
  rw [if_pos (by simp [hr, Part.inRecordBurst, hb]), written]

theorem State.formatBurst_settles {s : State} {f : FormatOp} (hr : s.part.running = true)
    (hb : s.part.arb.burst = some .longOperation) (hf : s.part.retire.state = .formatRunning)
    (hfmt : s.part.retire.fmt = some f) (hstage : f.stage = .write) :
    exec .formatBurst s = .next (State.settle { s with
      mem := s.mem.writeWords 0 (labelWords f.code s.part.clock.now)
      part := (s.part.endBurst.formatComplete f.code).afterLongBurst true }) := by
  have written : s.formatBurst = { s with
      mem := s.mem.writeWords 0 (labelWords f.code s.part.clock.now)
      part := (s.part.endBurst.formatComplete f.code).afterLongBurst true } := by
    have fmt : s.part.endBurst.retire.fmt = some f := hfmt
    unfold State.formatBurst
    simp only [fmt, hstage]
    rfl
  show execFormatBurst s = _
  unfold execFormatBurst State.whenReady
  rw [if_pos (by simp [hr, Part.inLongBurst, hb, Part.formatRunning, hf]), written]

/-- The label write that ends a FORMAT lets a released K1 be written under UNFORMATTED (R51; log 50). -/
theorem State.formatBurst_serves {s : State} {a : Addr} {t : Nat} {f : FormatOp} (hr : s.part.running = true)
    (hb : s.part.arb.burst = some .longOperation) (hw : s.port.waiting = [.place a 0x5AC3 t (some .unformatted)])
    (hf : s.part.retire.state = .formatRunning) (hfmt : s.part.retire.fmt = some f) (hstage : f.stage = .write)
    (hfair : s.part.arb.fairness < 8) :
    ∃ u, exec .formatBurst s = .next u ∧ u.port.waiting = [] ∧ u.part.mode = .guarded
      ∧ u.mem = (s.mem.writeWords 0 (labelWords f.code s.part.clock.now)).write a.toNat 0x5AC3 := by
  obtain ⟨hmode, harb, hasm⟩ := Part.formatComplete_stands f.code s.part.endBurst
  have stands := Part.afterLongBurst_portStands (s.part.endBurst.formatComplete f.code)
  have arb := stands.arb.trans harb
  have free : ((s.part.endBurst.formatComplete f.code).afterLongBurst true).portFree = true :=
    Part.portFree_of (by rw [arb]; rfl) (.inl (by rw [arb]; exact hfair))
  obtain ⟨waiting, mode, mem⟩ := State.settle_unformatted (v := { s with
    mem := s.mem.writeWords 0 (labelWords f.code s.part.clock.now)
    part := (s.part.endBurst.formatComplete f.code).afterLongBurst true }) hw (stands.asm.trans hasm) free
  exact ⟨_, State.formatBurst_settles hr hb hf hfmt hstage, waiting, mode.trans (stands.mode.trans hmode), mem⟩

/-- A K1 held at the gate is released by a write elsewhere, and waits for the burst; the write waits behind it (R51). -/
theorem State.upstreamWrite_releases {s : State} {a b : Addr} (hr : s.part.running = true) (hw : s.port.waiting = [])
    (hb : s.part.arb.burst ≠ none) (hg : s.part.chan.gate = .keyed b) (hab : b ≠ a) (hm : s.part.mode = .unformatted)
    (d : Word) (dock : Bool) :
    exec (.upstreamWrite a d dock) s = .next { s with
      port := { s.port with waiting := [.place b 0x5AC3 s.part.clock.now (some .unformatted), .gate a d dock] }
      part := (s.part.met dock).setGate .idle } := by
  let v (ws : List Work) : State := State.setWaiting ws { s with part := (s.part.met dock).setGate .idle }
  have released : (s.part.setDock dock).arrive a d dock
      = ((s.part.met dock).setGate .idle, [.police b 0x5AC3 (some .unformatted), .gate a d dock]) := by
    have keyed : (s.part.setDock dock).collecting = false := by simp [Part.collecting, Part.setDock, hg]
    have gate : (s.part.setDock dock).endPresentation.chan.gate = .keyed b := hg
    have mode : (s.part.setDock dock).endPresentation.mode = .unformatted := hm
    unfold Part.arrive Part.gateWrite
    rw [keyed]
    simp only [Bool.false_eq_true, if_false, gate, mode]
    exact if_neg fun h => hab h.1.symm
  have arrives : State.tryWork (.write a d dock)
      (State.setWaiting [.write a d dock] { s with part := s.part.setDock dock })
      = some (v [.write a d dock], [.police b 0x5AC3 (some .unformatted), .gate a d dock]) := by
    simp only [State.tryWork, State.setWaiting, released]
    rfl
  have unbroken : ((s.part.met dock).setGate .idle).breaks b = false := Part.breaks_of_unpoliced hm b
  have policed : (v [.police b 0x5AC3 (some .unformatted), .gate a d dock]).tryWork (.police b 0x5AC3 (some .unformatted))
      = some (v [.police b 0x5AC3 (some .unformatted), .gate a d dock],
          [.place b 0x5AC3 s.part.clock.now (some .unformatted)]) :=
    State.police_unbroken (s := v [.police b 0x5AC3 (some .unformatted), .gate a d dock]) unbroken _ _
  have waits : ((s.part.met dock).setGate .idle).placeWaits b 0x5AC3 s.part.clock.now (some .unformatted) = true := by
    rw [Part.placeWaits_unbroken unbroken, Part.classifyWaits_unformatted rfl]
    exact congrArg not (Part.portFree_false (p := (s.part.met dock).setGate .idle) (.inl hb))
  have waiting := State.tryWork_waits
    (s := v [.place b 0x5AC3 s.part.clock.now (some .unformatted), .gate a d dock]) (w := .place _ _ _ _) waits
  show execUpstreamWrite a d dock s = _
  unfold execUpstreamWrite State.access
  dsimp only
  rw [hw, List.nil_append, if_pos (show (s.part.setDock dock).running = true from hr), State.settle_eq_drain]
  refine congrArg Host.Outcome.next ((State.drain_serves rfl arrives 7).trans ?_)
  exact (State.drain_serves rfl policed 6).trans (State.drain_waits rfl waiting 5)

end Sys2Proof.Machine

/-! # Proofs: stretched accesses wait and are served (O22) -/

namespace Sys2Proof.Machine

theorem Part.breaks_true {p : Part} {a : Addr} {x : Assembly} (hm : p.mode = .guarded ∨ p.mode = .service)
    (hx : p.asm = some x) (ha : a.toNat ≠ slotAddr x.seg x.slot + x.next) : p.breaks a = true := by
  have unexpected : p.expects a = false := Bool.eq_false_iff.mpr (mt (Part.expects_iff hx a).mp ha)
  simp [Part.breaks, p.policed_iff.mpr hm, hx, unexpected]

/-- A read waits for a pending header (R22, R45). -/
theorem Part.readWaits_headed {p : Part} {a : Addr} (hm : p.mode = .guarded ∨ p.mode = .service)
    (hn : addrSeg a.toNat < p.store.nSeg) (hs : p.shut (addrSeg a.toNat) = false)
    (hh : p.headerPending (addrSeg a.toNat) = true) : p.readWaits a = true := by
  have inside : ¬ p.store.nSeg ≤ addrSeg a.toNat := by omega
  simp [Part.readWaits, inside, hs, p.policed_iff.mpr hm, hh]

theorem Part.readWaits_unformatted {p : Part} {a : Addr} (hm : p.mode = .unformatted) (hf : p.portFree = false) :
    p.readWaits a = true := by
  simp [Part.readWaits, Part.policed, hm, hf]

/-- A write the port holds back waits: outside the store, in segment 0, or as the expected next word. -/
theorem Part.placeWaits_busy {p : Part} {a : Addr} (hf : p.portFree = false) (hb : p.breaks a = false)
    (h : p.mode = .unformatted ∨ ((p.mode = .guarded ∨ p.mode = .service) ∧ 2048 ≤ a.toNat ∧ a.toNat < 16384)
      ∨ ((p.mode = .guarded ∨ p.mode = .service) ∧ 1 ≤ addrSeg a.toNat ∧ addrSeg a.toNat < p.store.nSeg
          ∧ p.expects a = true)) (d : Word) (t : Nat) : p.placeWaits a d t none = true := by
  rw [Part.placeWaits_unbroken hb]
  rcases h with hm | ⟨hm, hlow, hhigh⟩ | ⟨hm, h1, hn, he⟩
  · rw [Part.classifyWaits_unformatted (released := none) hm, hf]
    rfl
  · rw [Part.classifyWaits_segment0 hm hlow hhigh, hf]
    rfl
  · obtain ⟨x, hx⟩ : ∃ x, p.asm = some x := by
      cases ha : p.asm with
      | none => simp [Part.expects, ha] at he
      | some x => exact ⟨x, rfl⟩
    rw [Part.classifyWaits_record hm h1 hn, Part.recordWaits_expects hx he, hf]
    exact Bool.or_true _

/-- A word 0 waits for a VOID record, where no record is under assembly (R22). -/
theorem Part.placeWaits_voids {p : Part} {a : Addr} {d : Word} {x : Assembly} (hm : p.mode = .guarded ∨ p.mode = .service)
    (h1 : 1 ≤ addrSeg a.toNat) (hn : addrSeg a.toNat < p.store.nSeg) (ha : p.asm = none)
    (hp : p.placeWrite a d = .ok x) (hv : p.voidPending = true) (t : Nat) : p.placeWaits a d t none = true := by
  rw [Part.placeWaits_unbroken (Part.breaks_of_noAsm ha a), Part.classifyWaits_record hm h1 hn,
    Part.recordWaits_voids ha hp hv]
  exact Bool.or_true _

theorem Part.presentedAt_none {p : Part} {a : Addr} (h : ∀ c, p.chan.current = some c → c.addr ≠ some a) :
    p.presentedAt a = none := by
  unfold Part.presentedAt
  cases hc : p.chan.current with
  | none => rfl
  | some c => exact if_neg (h c hc)

theorem Part.voidPending_false {p : Part} (h : p.store.direct.all (fun y => y.kind != .void) = true) :
    p.voidPending = false := by
  unfold Part.voidPending
  rw [List.any_eq_false]
  intro y hy
  simpa using List.all_eq_true.mp h y hy

/-- A write into the store label breaks the record under assembly and is then refused (R32, R42). -/
theorem State.place_label {s : State} {a : Addr} (hb : s.part.breaks a = true)
    (hm : s.part.mode = .guarded ∨ s.part.mode = .service) (h16 : a.toNat < 16) (d : Word) (t : Nat) :
    s.place a d t none = some ({ s with part := (s.part.voidAssembly t true).refuseWrite a .label }, []) := by
  have mode := (Part.voidAssembly_listStands t true s.part).mode
  have label := State.classify_label (s := { s with part := s.part.voidAssembly t true }) (a := a) (mode ▸ hm) h16 d t
  unfold State.place
  rw [if_pos hb]
  simp only [label]

/-- A write that waited for a VOID record makes its break once none is pending (R42). -/
theorem State.settle_broken {v u : State} {a : Addr} {d : Word} (hw : v.port.waiting = [.police a d none])
    (hv : v.part.voidPending = false)
    (hp : (v.setWaiting [.place a d v.part.clock.now none]).place a d v.part.clock.now none = some (u, [])) :
    v.settle = { u.setWaiting [] with part := u.part.grantPort } := by
  have policed : v.tryWork (.police a d none) = some (v, [.place a d v.part.clock.now none]) := by
    show State.police a d none v = _
    unfold State.police
    exact if_neg (by simp [hv])
  have placed : (v.setWaiting [.place a d v.part.clock.now none]).tryWork (.place a d v.part.clock.now none)
      = some (u, []) := hp
  rw [State.settle_eq_drain, hw]
  refine (State.drain_serves hw policed 7).trans ?_
  exact (State.drain_serves rfl placed 6).trans (State.drain_nil rfl 6)

/-- Settles O22: what waits is `workWaits` of the part, and a row that ends the wait serves the one access. -/
theorem stretchedAccessesWaitAndAreServed : Obligations.StretchedAccessesWaitAndAreServed := by
  refine ⟨?_, ?_, ?_, ?_⟩
  · intro a d dock x asm s hq hg hrest hd p n inStore held headed voids waiting unshown placed
    have waits := State.upstreamWrite_waits (a := a) hq hg hd dock
    refine ⟨fun hheld hplace hasm => ?_, fun ⟨hm, h1, hn⟩ hh hv => ?_, fun ⟨hm, h1, hn⟩ hx ha hv => ?_,
      fun ⟨hm, h1, hn⟩ hasm hv hp => ?_, fun hu hheld hm => ?_, fun hu ⟨hm, h1, hn⟩ hs hh => ?_⟩
    · have busy : (p.met dock).portFree = false := Part.portFree_false (p := p.met dock) hheld
      have unbroken : (p.met dock).breaks a = false := by
        rcases hasm with hasm | ⟨-, hx, ha⟩
        · exact Part.breaks_of_noAsm hasm a
        · exact Part.breaks_of_expects ((Part.expects_iff (p := p.met dock) hx a).mpr ha)
      refine waits (by simp [p, unbroken]) (Part.placeWaits_busy busy unbroken ?_ d _)
      refine hplace.imp_right (Or.imp_right fun ⟨⟨hm, h1, hn⟩, hx, ha⟩ => ⟨hm, h1, hn, ?_⟩)
      exact (Part.expects_iff (p := p.met dock) hx a).mpr ha
    · exact waits (Bool.and_eq_false_imp.mpr fun _ => hv) (Part.placeWaits_headed (p := p.met dock) hm h1 hn hh _ _)
    · exact State.upstreamWrite_waitsPoliced hq hg hd dock
        (Bool.and_eq_true_iff.mpr ⟨Part.breaks_true (p := p.met dock) hm hx ha, hv⟩)
    · exact waits (by simp [Part.breaks_of_noAsm (p := s.part.met dock) hasm a])
        (Part.placeWaits_voids (p := p.met dock) hm h1 hn hasm hp hv _)
    · have shown := Part.presentedAt_none (p := p) (a := a) fun c hc => by simpa [unshown, hc] using hu
      exact State.upstreamRead_waits hq hg shown (Part.readWaits_unformatted hm (Part.portFree_false hheld))
    · have shown := Part.presentedAt_none (p := p) (a := a) fun c hc => by simpa [unshown, hc] using hu
      exact State.upstreamRead_waits hq hg shown (Part.readWaits_headed hm hn hs hh)
  · intro a d dock w rest s p behind
    refine ⟨fun hr hs hw => ?_, fun hr hs hw => ?_, fun hp => ?_, fun hp => ?_⟩
    · exact congrArg Host.Outcome.next (State.access_behind (s := { s with part := p.setDock dock }) hr hs hw _)
    · exact congrArg Host.Outcome.next (State.access_behind hr hs hw _)
    · have stopped : p.running = false := by
        rcases hp with hp | ⟨-, hm⟩
        · simp [Part.running, hp]
        · simp [Part.running, hm]
      have powered : p.power ≠ .off := by
        rcases hp with hp | ⟨hp, -⟩
        · simp [hp]
        · simp [hp]
      exact ⟨congrArg Host.Outcome.next (State.access_held (s := { s with part := p.setDock dock }) stopped powered _),
        congrArg Host.Outcome.next (State.access_held stopped powered _)⟩
    · exact ⟨congrArg Host.Outcome.next (State.access_lost (s := { s with part := p.setDock dock }) hp _),
        congrArg Host.Outcome.next (State.access_lost hp _)⟩
  · intro a d dock b f t s hr hb p
    refine ⟨fun hw hg hab hm => ?_, fun hw hf hfmt hstage hfair => ?_⟩
    · exact State.upstreamWrite_releases hr hw (by simp [hb]) hg hab hm d dock
    · exact State.formatBurst_serves hr hb hw hf hfmt hstage hfair
  · intro a d t base words e more x q rest c s hr p n served wrote mem writes policed inStore refused chain voided
    let v : State := { s with mem := mem, part := wrote }
    have row (h : writes) : exec .directWriteComplete s = .next v.settle := by
      rw [State.directWriteComplete_settles hr h.1 h.2, Part.directDone_wrote h.1 h.2]
      rfl
    have free : v.part.portFree = true := Part.portFree_of rfl (.inl (show 0 < 8 by decide))
    have record (h : inStore) (d : Word) (t : Nat) : v.classify a d t none = v.writeRecord a d t :=
      State.classify_record (s := v) h.1 h.2.1 h.2.2.1 (Part.headerPending_false (p := wrote) h.2.2.2) d t
    refine ⟨fun hw hd hm => ?_, fun hw hd hm => ?_, fun hw hd hin ha hp => ?_, fun hw hd hin ha hp hv => ?_,
      fun hw hd hm hv hx h1 ha ho hc hrun => ?_, ?_⟩
    · rw [row hd, State.settle_forwarded (v := v) hw ?_ ?_ free]
      · rcases hm with hm | ⟨-, ha, -⟩
        · exact Part.breaks_of_unpoliced hm a
        · exact Part.breaks_of_noAsm ha a
      · rcases hm with hm | ⟨hm, -, hlow, hhigh⟩
        · exact State.classify_unformatted (s := v) (released := none) hm a d t
        · exact State.classify_segment0 (s := v) hm hlow hhigh d t
    · rw [row hd, State.settle_read (v := v) hw (State.modeRead_memory free ?_)]
      · rfl
      · rcases hm with hm | ⟨⟨hm, h1, hn, hh⟩, hs⟩
        · exact .inl (by simp [v, wrote, Part.policed, hm])
        · exact .inr ⟨hn, hs, Part.headerPending_false hh⟩
    · rw [row hd, State.settle_unbroken (v := v) hw (Part.breaks_of_noAsm ha a)
        ((record hin d t).trans (State.writeRecord_refused (s := v) ha hp t)), Part.refuseWrite_eq]
      rfl
    · have clear : v.part.voidPending = false := Part.voidPending_false hv
      rw [row hd, State.settle_unbroken (v := v) hw (Part.breaks_of_noAsm ha a)
        ((record hin d t).trans (State.writeRecord_begins (s := v) ha hp clear free t))]
      rfl
    · have clear : v.part.voidPending = false := Part.voidPending_false hv
      have broken : v.part.breaks a = true := Part.breaks_true (p := wrote) hm hx (by unfold slotAddr; omega)
      have void : wrote.voidAssembly p.clock.now true = voided.raise causeRecordBroken := by
        rw [Part.voidAssembly_eq (p := wrote) hx h1 hc hrun]
        rfl
      have consumed := Part.slotConsumed_listStands x.stream x.seg x.slot true
      have refusals : voided.refusals = p.refusals := (Part.slotConsumed_storeOnly _ _ _ _ _).refusals
      have pending : voided.store.direct ≠ [] := (consumed _).nonempty (by simp)
      rw [row hd, State.settle_broken (v := v) hw clear (State.place_label
        (s := v.setWaiting [.place a d v.part.clock.now none]) broken hm ha d _)]
      refine congrArg (fun q : Part => Host.Outcome.next { s with mem := mem, port := served, part := q }) ?_
      show (Part.refuseWrite a .label (wrote.voidAssembly p.clock.now true)).grantPort = _
      rw [void, Part.grantPort_of_direct (p := (voided.raise causeRecordBroken).refuseWrite a .label) pending,
        Part.refuseWrite_eq]
      simp only [refused, ← refusals]
      rfl
    · intro hw hb hqueue ht hk hrun hm hx hn hslot haddr h1 hseg hh hfair left
      let v : State := { s with mem := s.mem.writeWords base words, part := left }
      have done : exec .recordWriterWriteComplete s = .next v.settle := by
        have headed : p.endBurst.headWritten = left.resumeScanner :=
          (Part.headWritten_eq (p := p.endBurst) hqueue ht).trans (if_neg hk)
        rw [State.writeComplete_settles hr hb, headed, Part.resumeScanner_stays (p := left) (.inl hrun)]
      have expected : v.part.expects a = true := (Part.expects_iff (p := left) hx a).mpr (by rw [haddr, hn]; rfl)
      have inSeg : addrSeg a.toNat = x.seg := haddr ▸ addrSeg_slot hslot (by decide)
      have free : v.part.portFree = true := Part.portFree_of rfl (.inl hfair)
      have unheaded : v.part.headerPending (addrSeg a.toNat) = false := by
        rw [inSeg]
        exact Part.headerPending_false hh
      have classified : v.classify a d t none = _ :=
        (State.classify_record (s := v) hm (by omega) (by rw [inSeg]; exact hseg) unheaded d t).trans
          ((State.writeRecord_expected (s := v) hx expected d t).trans (State.acceptWord_receipt free hn a d t))
      rw [done, State.settle_unbroken (v := v) hw (Part.breaks_of_expects expected) classified]
      rfl

end Sys2Proof.Machine

/-! # Proofs: what the mount reads of a slot and of a header (R19, R204, R205) -/

namespace Sys2Proof.Machine

/-! ## The words of a slot -/

@[simp] theorem Memory.slot_length (m : Memory) (n s : Nat) : (m.slot n s).length = 16 := by
  simp [Memory.slot, Memory.readWords]

theorem Memory.wordAt_slot {i : Nat} (hi : i < 16) (m : Memory) (n s : Nat) :
    wordAt (m.slot n s) i = m.read (slotAddr n s + i) := by
  unfold wordAt Memory.slot Memory.readWords
  rw [List.getD_eq_getElem _ _ (by simpa using hi), List.getElem_map, List.getElem_range]

/-- Inside a list the value beyond its end does not matter. -/
theorem getD_zero_eq_wordAt {ws : List Word} {i : Nat} (h : i < ws.length) : ws.getD i 0 = wordAt ws i := by
  unfold wordAt
  rw [List.getD_eq_getElem _ _ h, List.getD_eq_getElem _ _ h]

theorem getD_zero_eq_num32At {ws : List Word} {i : Nat} (h : i + 1 < ws.length) :
    (ws.getD (i + 1) 0).toNat * 65536 + (ws.getD i 0).toNat = num32At ws i := by
  rw [getD_zero_eq_wordAt h, getD_zero_eq_wordAt (by omega)]
  rfl

theorem words_joinD (lo hi : Word) : dwords (joinD lo hi) = [lo, hi] := by
  have hlo := lo.isLt
  have hhi := hi.isLt
  have num : (joinD lo hi).toNat = hi.toNat * 65536 + lo.toNat := by
    unfold joinD join32
    rw [BitVec.toNat_ofNat]
    omega
  unfold dwords words32 loWord hiWord
  rw [num]
  congr 1
  · apply BitVec.eq_of_toNat_eq
    rw [BitVec.toNat_ofNat]
    omega
  · congr 1
    apply BitVec.eq_of_toNat_eq
    rw [BitVec.toNat_ofNat]
    omega

@[simp] theorem wordOf_toNat (w : Word) : wordOf w.toNat = w := by simp [wordOf]

/-- The chain value before a slot stands in the last two words of the slot below it (R4, R7). -/
theorem Memory.slotChain_before {k : Nat} (hk : 1 ≤ k) (m : Memory) (n : Nat) :
    m.slotChain n (k - 1) = BitVec.ofNat 32 ((m.read (n * 16384 + 16 * k - 1)).toNat * 65536
      + (m.read (n * 16384 + 16 * k - 2)).toNat) := by
  have high : slotAddr n (k - 1) + 15 = n * 16384 + 16 * k - 1 := by
    unfold slotAddr
    omega
  have low : slotAddr n (k - 1) + 14 = n * 16384 + 16 * k - 2 := by
    unfold slotAddr
    omega
  unfold Memory.slotChain recordChainField dwordAt
  rw [Memory.wordAt_slot (by decide), Memory.wordAt_slot (by decide), high, low]
  rfl

/-! ## The header of a segment (R204) -/

theorem Memory.lastMarked_iff (m : Memory) (n k j : Nat) :
    m.lastMarked n k = j ↔ j ≤ k ∧ (j = 0 ∨ m.slotMarked n j = true) ∧ ∀ i, j < i → i ≤ k → m.slotMarked n i = false := by
  induction k with
  | zero =>
    refine ⟨?_, fun ⟨hj, _⟩ => (Nat.le_zero.mp hj).symm⟩
    rintro rfl
    exact ⟨le_refl _, .inl rfl, fun i hi hi' => by omega⟩
  | succ k ih =>
    unfold Memory.lastMarked
    split
    · rename_i hm
      constructor
      · rintro rfl
        exact ⟨le_refl _, .inr hm, fun i hi hi' => by omega⟩
      · rintro ⟨hj, -, habove⟩
        by_contra hne
        have := habove (k + 1) (by omega) (le_refl _)
        simp [hm] at this
    · rename_i hm
      rw [ih]
      constructor
      · rintro ⟨hj, hmark, habove⟩
        refine ⟨by omega, hmark, fun i hi hi' => ?_⟩
        rcases Nat.lt_or_ge k i with h | h
        · rw [show i = k + 1 by omega]
          simpa using hm
        · exact habove i hi h
      · rintro ⟨hj, hmark, habove⟩
        have hjk : j ≤ k := by
          by_contra hlt
          obtain rfl : j = k + 1 := by omega
          simp [hm] at hmark
        exact ⟨hjk, hmark, fun i hi hi' => habove i hi (by omega)⟩

theorem Stream.ofCode_iff (w : Word) (st : Stream) : Stream.ofCode w = some st ↔ w = st.code := by
  constructor
  · intro h
    unfold Stream.ofCode at h
    split at h
    · cases h; assumption
    · split at h
      · cases h; assumption
      · split at h
        · cases h; assumption
        · split at h
          · cases h; assumption
          · cases h
  · rintro rfl
    exact Stream.ofCode_code st

/-- A header's condition and the state it gives (R204). -/
theorem conditionState_iff (w : Word) (st : SegState) :
    (conditionState w).readable = true ∧ st = conditionState w
      ↔ (w = 1 ∧ st = .opened) ∨ (w = 2 ∧ st = .closed) ∨ (w = 3 ∧ st = .faulted) := by
  unfold conditionState conditionOpen conditionClosed conditionFaulted
  by_cases h1 : w = 1
  · subst h1
    simp [SegState.readable]
  · by_cases h2 : w = 2
    · subst h2
      simp [SegState.readable]
    · by_cases h3 : w = 3
      · subst h3
        simp [SegState.readable]
      · rw [if_neg h1, if_neg h2, if_neg h3]
        refine ⟨fun h => absurd h.1 (by decide), ?_⟩
        rintro (⟨h, -⟩ | ⟨h, -⟩ | ⟨h, -⟩)
        · exact absurd h h1
        · exact absurd h h2
        · exact absurd h h3

/-- The header found, field by field. -/
theorem Memory.header_iff (m : Memory) (n : Nat) (h : Found) :
    m.header n = some h ↔ (wordAt (m.slot n 0) 2 = h.stream.code ∧ wordAt (m.slot n 0) 0 = Kind.header.headerWord
      ∧ recordChain (dwordAt (m.slot n 0) 6) (m.slot n 0) = recordChainField (m.slot n 0)
      ∧ (conditionState (wordAt (m.slot n 0) 1)).readable = true ∧ h.state = conditionState (wordAt (m.slot n 0) 1)
      ∧ h.number = n ∧ h.segSeq = wordAt (m.slot n 0) 3 ∧ h.first = dwordAt (m.slot n 0) 4 ∧ h.entry = dwordAt (m.slot n 0) 6
      ∧ h.openTime = num32At (m.slot n 0) 8 ∧ m.lastMarked n 1023 = h.last) := by
  unfold Memory.header
  dsimp only
  constructor
  · intro hh
    split at hh
    · cases hh
    · rename_i st hst
      split at hh
      · rename_i hc
        obtain ⟨h0, hchain, hread⟩ := hc
        cases hh
        exact ⟨(Stream.ofCode_iff _ _).mp hst, h0, hchain, hread, rfl, rfl, rfl, rfl, rfl, rfl, rfl⟩
      · cases hh
  · rintro ⟨hst, h0, hchain, hread, hstate, hnum, hseq, hfirst, hentry, htime, hlast⟩
    simp only [(Stream.ofCode_iff _ _).mpr hst]
    rw [if_pos ⟨h0, hchain, hread⟩]
    obtain ⟨⟩ := h
    simp only at hst hstate hnum hseq hfirst hentry htime hlast
    subst hstate hnum hseq hfirst hentry htime hlast
    rfl

end Sys2Proof.Machine

/-! # Proofs: the newest of a stream's segments, and the tables a mount builds (R14, R19, R205) -/

namespace Sys2Proof.Machine

/-! ## The newest of the segments -/

/-- What `newer` keeps is not before what it passes over. -/
theorem Found.newer_some (a b : Found) :
    ∃ c, Found.newer (some a) b = some c ∧ a.first.toNat ≤ c.first.toNat ∧ b.first.toNat ≤ c.first.toNat := by
  unfold Found.newer
  dsimp only
  split
  · rename_i h
    refine ⟨b, rfl, ?_, le_refl _⟩
    rcases h with h | ⟨h, -⟩
    · omega
    · rw [h]
  · rename_i h
    refine ⟨a, rfl, le_refl _, ?_⟩
    omega

theorem foldl_newer_le (hs : List Found) : ∀ a : Found, ∃ c, hs.foldl Found.newer (some a) = some c
    ∧ a.first.toNat ≤ c.first.toNat ∧ ∀ f ∈ hs, f.first.toNat ≤ c.first.toNat := by
  induction hs with
  | nil => exact fun a => ⟨a, rfl, le_refl _, by simp⟩
  | cons b hs ih =>
    intro a
    obtain ⟨c, hc, hac, hbc⟩ := Found.newer_some a b
    obtain ⟨e, he, hce, hall⟩ := ih c
    refine ⟨e, by rw [List.foldl_cons, hc, he], by omega, fun f hf => ?_⟩
    rcases List.mem_cons.mp hf with rfl | hf
    · omega
    · exact hall f hf

/-- The newest segment has the highest first record number. -/
theorem newestOf_le {hs : List Found} {h : Found} (hh : newestOf hs = some h) :
    ∀ f ∈ hs, f.first.toNat ≤ h.first.toNat := by
  cases hs with
  | nil => cases hh
  | cons a hs =>
    obtain ⟨c, hc, hac, hall⟩ := foldl_newer_le hs a
    obtain rfl : c = h := Option.some.inj (hc.symm.trans hh)
    intro f hf
    rcases List.mem_cons.mp hf with rfl | hf
    · exact hac
    · exact hall f hf

theorem newestOf_ne_none {hs : List Found} (h : hs ≠ []) : ∃ g, newestOf hs = some g := by
  cases hs with
  | nil => exact absurd rfl h
  | cons a hs =>
    obtain ⟨c, hc, -⟩ := foldl_newer_le hs a
    exact ⟨c, hc⟩

/-- A segment whose first record number lies above those of the others is the newest. -/
theorem newestOf_eq {hs : List Found} {h : Found} (hmem : h ∈ hs)
    (hmax : ∀ f ∈ hs, f = h ∨ f.first.toNat < h.first.toNat) : newestOf hs = some h := by
  obtain ⟨g, hg⟩ := newestOf_ne_none (List.ne_nil_of_mem hmem)
  rcases hmax g (newestOf_mem hg) with rfl | hlt
  · exact hg
  · have := newestOf_le hg h hmem
    omega

/-! ## A stream's open segment -/

theorem openOf_eq {hs : List Found} {h : Found} (hmem : h ∈ hs) (ho : h.state = .opened)
    (hmax : ∀ f ∈ hs, f.stream = h.stream → f.state = .opened → f = h ∨ f.first.toNat < h.first.toNat) :
    openOf hs h.stream = if h.last < 1023 then some h else none := by
  have newest : newestOf ((ofStream hs h.stream).filter (fun h => h.state == .opened)) = some h := by
    refine newestOf_eq (by simp [ofStream, hmem, ho]) fun f hf => ?_
    simp only [ofStream, List.mem_filter, beq_iff_eq] at hf
    exact hmax f hf.1.1 hf.1.2 hf.2
  unfold openOf
  rw [newest]
  simp [Option.filter]

/-- A segment that a newer open one of its stream outdates is not the open one. -/
theorem openOf_ne {hs : List Found} {h g : Found} (hg : g ∈ hs) (hs' : g.stream = h.stream) (ho : g.state = .opened)
    (hlt : h.first.toNat < g.first.toNat) : openOf hs h.stream ≠ some h := by
  intro hopen
  have newest := (Option.filter_eq_some_iff.mp hopen).1
  have := newestOf_le newest g (by simp [ofStream, hg, hs', ho])
  omega

section
variable {hs : List Found} (hnodup : (hs.map (fun h => h.number)).Nodup)
include hnodup

theorem found_unique {f g : Found} (hf : f ∈ hs) (hg : g ∈ hs) (hn : f.number = g.number) : f = g :=
  List.inj_on_of_nodup_map hnodup hf hg hn

theorem mountEntry_found {h : Found} (hmem : h ∈ hs) (m : Memory) : mountEntry hs m h.number = h.entryOf hs m := by
  unfold mountEntry
  cases hf : hs.find? (fun g => g.number == h.number) with
  | none => exact absurd (List.find?_eq_none.mp hf h hmem) (by simp)
  | some g =>
    rw [found_unique hnodup (List.mem_of_find?_eq_some hf) hmem (by simpa using List.find?_some hf)]

/-- The open state stays with the stream's open segment alone. -/
theorem resolved_opened_iff {h : Found} (hmem : h ∈ hs) (ho : h.state = .opened) :
    h.resolved hs = if openOf hs h.stream = some h then .opened else .closed := by
  have same : (openOf hs h.stream).map (fun g => g.number) = some h.number ↔ openOf hs h.stream = some h := by
    constructor
    · intro hn
      obtain ⟨g, hg, hgn⟩ := Option.map_eq_some_iff.mp hn
      rw [hg, found_unique hnodup (openOf_mem hg).1 hmem hgn]
    · intro hh
      rw [hh]
      rfl
  unfold Found.resolved
  rw [if_pos ho]
  simp only [same]

end

theorem Found.resolved_of_not_opened {h : Found} (ho : h.state ≠ .opened) (hs : List Found) : h.resolved hs = h.state :=
  if_neg ho

theorem mountEntry_none {hs : List Found} {n : Nat} (h : ∀ g ∈ hs, g.number ≠ n) (m : Memory) :
    mountEntry hs m n = if m.slotBlank n 0 then SegEntry.blankEntry else SegEntry.scrapEntry := by
  have missing : hs.find? (fun h => h.number == n) = none := List.find?_eq_none.mpr fun g hg => by simpa using h g hg
  unfold mountEntry
  rw [missing]

/-! ## A stream's table entry -/

theorem mountStream_none {hs : List Found} {st : Stream} (h : ∀ g ∈ hs, g.stream ≠ st) (m : Memory) (seed : DWord) :
    mountStream hs m seed st = .fresh seed := by
  have empty : ofStream hs st = [] := List.filter_eq_nil_iff.mpr fun g hg => by simpa using h g hg
  unfold mountStream
  rw [empty]
  rfl

theorem mountStream_newest {hs : List Found} {h : Found} (hn : newestOf (ofStream hs h.stream) = some h) (m : Memory)
    (seed : DWord) : mountStream hs m seed h.stream =
      { openSeg := (openOf hs h.stream).map (fun g => g.number), append := (openOf hs h.stream).map (fun g => g.last + 1)
        nextRec := nextRecord hs h.stream, nextSeq := h.segSeq + 1
        running := m.slotChain h.number h.last, reserved := none, stalled := false } := by
  unfold mountStream
  rw [hn]

/-- The newest segment that has a record gives the next record number (R19; log 26). -/
theorem nextRecord_eq {hs : List Found} {g : Found} (hmem : g ∈ hs) (h0 : 0 < g.last)
    (hmax : ∀ f ∈ hs, f.stream = g.stream → 0 < f.last → f = g ∨ f.first.toNat < g.first.toNat) :
    nextRecord hs g.stream = g.first + BitVec.ofNat 32 g.last := by
  have newest : newestOf ((ofStream hs g.stream).filter (fun h => h.last != 0)) = some g := by
    refine newestOf_eq (by simp [ofStream, hmem]; omega) fun f hf => ?_
    simp only [ofStream, List.mem_filter, beq_iff_eq, bne_iff_ne] at hf
    exact hmax f hf.1.1 hf.1.2 (Nat.pos_of_ne_zero hf.2)
  unfold nextRecord
  rw [newest]

theorem nextRecord_none {hs : List Found} {st : Stream} (h : ∀ f ∈ hs, f.stream = st → f.last = 0) :
    nextRecord hs st = 1 := by
  have empty : (ofStream hs st).filter (fun h => h.last != 0) = [] := by
    refine List.filter_eq_nil_iff.mpr fun f hf => ?_
    simp only [ofStream, List.mem_filter, beq_iff_eq] at hf
    simp [h f hf.1 hf.2]
  unfold nextRecord
  rw [empty]
  rfl

/-! ## The clock of the mount -/

theorem foldl_max_zero (l : List Nat) : ∀ a : Nat,
    a ≤ l.foldl max a ∧ (∀ x ∈ l, x ≤ l.foldl max a) ∧ (l.foldl max a = a ∨ l.foldl max a ∈ l) := by
  induction l with
  | nil => exact fun a => ⟨le_refl _, by simp, .inl rfl⟩
  | cons b l ih =>
    intro a
    obtain ⟨hle, hall, hmem⟩ := ih (max a b)
    rw [List.foldl_cons]
    refine ⟨by omega, fun x hx => ?_, ?_⟩
    · rcases List.mem_cons.mp hx with rfl | hx
      · omega
      · exact hall x hx
    · rcases hmem with h | h
      · rw [h]
        rcases Nat.le_total a b with hab | hab
        · exact .inr (by simp [hab])
        · exact .inl (by omega)
      · exact .inr (List.mem_cons_of_mem _ h)

theorem mountClock_eq {hs : List Found} (h : hs ≠ []) (m : Memory) (formatTime : Nat) :
    mountClock m hs formatTime = (hs.map (fun h => h.newestTime m)).foldl max 0 := by
  unfold mountClock
  rw [if_neg (by simpa using h)]

theorem mountClock_le {hs : List Found} {h : Found} (hmem : h ∈ hs) (m : Memory) (formatTime : Nat) :
    h.newestTime m ≤ mountClock m hs formatTime := by
  rw [mountClock_eq (List.ne_nil_of_mem hmem)]
  exact (foldl_max_zero _ 0).2.1 _ (List.mem_map_of_mem hmem)

theorem mountClock_attained {hs : List Found} (hne : hs ≠ []) (m : Memory) (formatTime : Nat) :
    ∃ h ∈ hs, h.newestTime m = mountClock m hs formatTime := by
  obtain ⟨-, hall, hmem⟩ := foldl_max_zero (hs.map (fun h => h.newestTime m)) 0
  rw [mountClock_eq hne]
  rcases hmem with h0 | hmem
  · obtain ⟨h, hh⟩ := List.exists_mem_of_ne_nil _ hne
    refine ⟨h, hh, ?_⟩
    have := hall _ (List.mem_map_of_mem hh)
    omega
  · obtain ⟨h, hh, he⟩ := List.mem_map.mp hmem
    exact ⟨h, hh, he⟩

end Sys2Proof.Machine

/-! # Proofs: the mount reads the store (R19, R204, R205) -/

namespace Sys2Proof.Machine

/-! ## The words of a slot, and what the mount makes of them -/

theorem Memory.getD_slot {i : Nat} (hi : i < 16) (m : Memory) (n s : Nat) :
    (m.slot n s).getD i 0 = wordAt (m.slot n s) i :=
  getD_zero_eq_wordAt (by simpa using hi)

theorem Memory.getD_slot_num {i : Nat} (hi : i < 15) (m : Memory) (n s : Nat) :
    ((m.slot n s).getD (i + 1) 0).toNat * 65536 + ((m.slot n s).getD i 0).toNat = num32At (m.slot n s) i :=
  getD_zero_eq_num32At (by rw [Memory.slot_length]; omega)

theorem Memory.slot_zero (m : Memory) (n : Nat) : m.slot n 0 = (List.range 16).map (fun i => m.read (n * 16384 + i)) := by
  unfold Memory.slot Memory.readWords slotAddr
  rw [Nat.mul_zero, Nat.add_zero]

theorem Memory.slotBlank_zero (m : Memory) (n : Nat) :
    m.slotBlank n 0 = (List.range 16).all (fun i => m.read (n * 16384 + i) == blank) := by
  unfold Memory.slotBlank
  rw [Memory.slot_zero, List.all_map]
  rfl

theorem Memory.slotMarked_eq (m : Memory) (n s : Nat) : m.slotMarked n s = marked ((m.slot n s).getD 0 0) := by
  rw [Memory.getD_slot (by decide), Memory.wordAt_slot (by decide), Nat.add_zero, Memory.slotMarked]

/-- A header with its condition and its segment's last slot spelled out (R204). -/
theorem Memory.header_found_iff (m : Memory) (n : Nat) (h : Found) :
    m.header n = some h ↔ wordAt (m.slot n 0) 0 = Kind.header.headerWord
      ∧ recordChain (dwordAt (m.slot n 0) 6) (m.slot n 0) = recordChainField (m.slot n 0)
      ∧ wordAt (m.slot n 0) 2 = h.stream.code
      ∧ ((wordAt (m.slot n 0) 1 = 1 ∧ h.state = .opened) ∨ (wordAt (m.slot n 0) 1 = 2 ∧ h.state = .closed)
        ∨ (wordAt (m.slot n 0) 1 = 3 ∧ h.state = .faulted))
      ∧ h.number = n ∧ h.segSeq = wordAt (m.slot n 0) 3 ∧ h.first = dwordAt (m.slot n 0) 4 ∧ h.entry = dwordAt (m.slot n 0) 6
      ∧ h.openTime = num32At (m.slot n 0) 8 ∧ h.last ≤ 1023 ∧ (h.last = 0 ∨ m.slotMarked n h.last = true)
      ∧ ∀ k, h.last < k → k ≤ 1023 → m.slotMarked n k = false := by
  rw [Memory.header_iff, ← conditionState_iff, Memory.lastMarked_iff]
  constructor
  · rintro ⟨hst, h0, hchain, hread, hstate, hnum, hseq, hfirst, hentry, htime, hlast⟩
    exact ⟨h0, hchain, hst, ⟨hread, hstate⟩, hnum, hseq, hfirst, hentry, htime, hlast⟩
  · rintro ⟨h0, hchain, hst, ⟨hread, hstate⟩, hnum, hseq, hfirst, hentry, htime, hlast⟩
    exact ⟨hst, h0, hchain, hread, hstate, hnum, hseq, hfirst, hentry, htime, hlast⟩

theorem Memory.tailValid_iff {k : Nat} (hk : 1 ≤ k) (m : Memory) (n : Nat) :
    m.tailValid n k = true ↔ recordChain (BitVec.ofNat 32 ((m.read (n * 16384 + 16 * k - 1)).toNat * 65536
      + (m.read (n * 16384 + 16 * k - 2)).toNat)) (m.slot n k) = m.slotChain n k := by
  unfold Memory.tailValid
  rw [Memory.slotChain_before hk, beq_iff_eq]

/-- A cut-off slot lies below the last one without a mark, or is the last one with an invalid tail (R205; log 49). -/
theorem Found.mem_cutSlots_iff (h : Found) (m : Memory) (k : Nat) :
    k ∈ h.cutSlots m ↔ 1 ≤ k ∧ k ≤ h.last
      ∧ (if k < h.last then m.slotMarked h.number k = false else ¬ m.tailValid h.number k = true) := by
  have inRange : k ∈ (List.range h.last).map (· + 1) ↔ 1 ≤ k ∧ k ≤ h.last := by
    rw [List.mem_map]
    constructor
    · rintro ⟨j, hj, rfl⟩
      have := List.mem_range.mp hj
      omega
    · rintro ⟨h1, hle⟩
      exact ⟨k - 1, List.mem_range.mpr (by omega), by omega⟩
  unfold Found.cutSlots
  rw [List.mem_filter, inRange, and_assoc]
  by_cases hlt : k < h.last <;> simp [hlt]

theorem Found.newestTime_empty {h : Found} (h0 : h.last = 0) (m : Memory) : h.newestTime m = h.openTime := by
  unfold Found.newestTime
  simp [h0]

theorem Found.newestTime_valid {h : Found} (h0 : 1 ≤ h.last) {m : Memory} (hv : m.tailValid h.number h.last = true) :
    h.newestTime m = max h.openTime (num32At (m.slot h.number h.last) 12) := by
  have hne : h.last ≠ 0 := by omega
  unfold Found.newestTime
  simp only [hne, hv, if_true, if_false]
  rfl

/-! ## The entry of a segment found -/

/-- A segment's entry is that of its state once the open segments are resolved (R14, R205). -/
theorem Found.entryOf_resolved {h : Found} {hs : List Found} {st : SegState} (hr : h.resolved hs = st) (m : Memory) :
    h.entryOf hs m =
      { state := st, stream := some h.stream, segSeq := some h.segSeq, openTime := some h.openTime
        closeTime := if st = .opened then none
          else some (if h.last = 0 then h.openTime else num32At (m.slot h.number h.last) 12)
        firstRec := some h.first, count := some h.last, entryChain := some h.entry
        exitChain := if st = .opened then none else some (m.slotChain h.number h.last), holds := 0, owed := .none } := by
  subst hr
  rfl

section
variable {hs : List Found} (hnodup : (hs.map (fun h => h.number)).Nodup) {h : Found} (hmem : h ∈ hs)
include hnodup hmem

/-- The stream's newest segment in the state OPEN is its open one, unless it is full (R205). -/
theorem openOf_newest (ho : h.state = .opened)
    (hlow : ∀ f ∈ hs, f.stream = h.stream → f.state = .opened → f.number ≠ h.number → f.first.toNat < h.first.toNat) :
    openOf hs h.stream = if h.last < 1023 then some h else none := by
  refine openOf_eq hmem ho fun f hf hst hfo => ?_
  by_cases hn : f.number = h.number
  · exact .inl (found_unique hnodup hf hmem hn)
  · exact .inr (hlow f hf hst hfo hn)

theorem Found.resolved_newest (ho : h.state = .opened)
    (hlow : ∀ f ∈ hs, f.stream = h.stream → f.state = .opened → f.number ≠ h.number → f.first.toNat < h.first.toNat) :
    h.resolved hs = if h.last < 1023 then .opened else .closed := by
  rw [resolved_opened_iff hnodup hmem ho, openOf_newest hnodup hmem ho hlow]
  by_cases hl : h.last < 1023 <;> simp [hl]

theorem Found.resolved_outdated (ho : h.state = .opened) {g : Found} (hg : g ∈ hs) (hst : g.stream = h.stream)
    (hgo : g.state = .opened) (hlt : h.first.toNat < g.first.toNat) : h.resolved hs = .closed := by
  rw [resolved_opened_iff hnodup hmem ho, if_neg (openOf_ne hg hst hgo hlt)]

end

/-! ## The answer to a request that has none (R161, R206) -/

theorem Kind.ofHeader_headerWord (k : Kind) : Kind.ofHeader k.headerWord = some k := by
  cases k <;> rfl

theorem isRequest_iff (ws : List Word) :
    isRequest ws = true ↔ wordAt ws 0 = Kind.load.headerWord ∨ wordAt ws 0 = Kind.delivery.headerWord
      ∨ wordAt ws 0 = Kind.unload.headerWord := by
  unfold isRequest
  constructor
  · intro h
    cases hk : Kind.ofHeader (wordAt ws 0) with
    | none => simp [hk] at h
    | some k =>
      have word : k.headerWord = wordAt ws 0 := by simpa using List.find?_some hk
      rw [← word]
      simp only [hk, Kind.isRequest, Bool.or_eq_true, beq_iff_eq] at h
      rcases h with (rfl | rfl) | rfl <;> simp
  · rintro (h | h | h) <;> rw [h, Kind.ofHeader_headerWord] <;> rfl

theorem unanswered_load {req : List Word} (h : wordAt req 0 = Kind.load.headerWord) :
    unanswered req = { kind := .loadAck, body := [wordAt req 3, wordAt req 4, 7, blank, wordAt req 5, blank, blank,
      wordAt req 6, wordAt req 7] } := by
  unfold unanswered loadAckBody LoadBody.ofWords dwordAt
  rw [if_pos h, words_joinD, wordOf_toNat]
  rfl

theorem unanswered_proof {req : List Word} (h : wordAt req 0 ≠ Kind.load.headerWord) :
    unanswered req = { kind := .proof, body := [wordAt req 3, wordAt req 4]
      ++ (if wordAt req 0 = Kind.delivery.headerWord then [wordAt req 5, 0xD000, wordAt req 6] else [0, 0xD000, 0])
      ++ [0x8000, 0, 0, 0, 0, 0] } := by
  unfold unanswered proofBody DeliveryBody.ofWords dwordAt
  rw [if_neg h]
  dsimp only
  rw [words_joinD]
  by_cases hd : wordAt req 0 = Kind.delivery.headerWord
  · simp only [hd, if_true, wordOf_toNat]
    rfl
  · simp only [hd, if_false]
    rfl

/-- The record of the answer, word by word from the request. -/
theorem recordWords_unanswered {req : List Word} (hlen : req.length = 16) (clock : Nat) (seed : DWord) :
    recordWords (unanswered req).kind (unanswered req).body clock seed =
      if req.getD 0 0 = Kind.load.headerWord then
        recordWords .loadAck [req.getD 3 0, req.getD 4 0, 7, blank, req.getD 5 0, blank, blank, req.getD 6 0, req.getD 7 0]
          clock seed
      else
        recordWords .proof ([req.getD 3 0, req.getD 4 0]
          ++ (if req.getD 0 0 = Kind.delivery.headerWord then [req.getD 5 0, 0xD000, req.getD 6 0] else [0, 0xD000, 0])
          ++ [0x8000, 0, 0, 0, 0, 0]) clock seed := by
  have word (i : Nat) (hi : i < 16) : req.getD i 0 = wordAt req i := getD_zero_eq_wordAt (by omega)
  rw [word 0 (by decide), word 3 (by decide), word 4 (by decide), word 5 (by decide), word 6 (by decide), word 7 (by decide)]
  split
  · rename_i h
    rw [unanswered_load h]
  · rename_i h
    rw [unanswered_proof h]

/-! ## One cut-off slot -/

theorem Found.requestBefore_above {h : Found} {k : Nat} (hk : 2 ≤ k) (hs : List Found) (m : Memory) :
    h.requestBefore hs m k = (some (m.slot h.number (k - 1))).filter isRequest := by
  unfold Found.requestBefore
  rw [if_neg (by omega)]

theorem Found.requestBefore_first_delivery {h : Found} (hd : h.stream = .delivery) (hs : List Found) (m : Memory) :
    h.requestBefore hs m 1 = ((h.predecessor hs).map (fun g => m.slot g.number 1023)).filter isRequest := by
  unfold Found.requestBefore
  rw [if_pos rfl, if_pos hd]

theorem Found.requestBefore_first_other {h : Found} (hd : h.stream ≠ .delivery) (hs : List Found) (m : Memory) :
    h.requestBefore hs m 1 = none := by
  unfold Found.requestBefore
  rw [if_pos rfl, if_neg hd]
  rfl

/-- A record's body has 11 words: what stands beyond them is not written (R4). -/
theorem recordWords_take (k : Kind) (body : List Word) (t : Nat) (seed : DWord) (h : 11 ≤ body.length) :
    recordWords k (body.take 11) t seed = recordWords k body t seed := by
  have pad : padTo 11 (body.take 11) = padTo 11 body := by
    rw [padTo_of_length (by simpa using h)]
    unfold padTo
    rw [List.take_append_of_le_length h]
  unfold recordWords recordHead
  rw [pad]

theorem Settling.settleSlot_answers {h : Found} {hs : List Found} {x : Settling} {k : Nat} {req : List Word}
    (hreq : h.requestBefore hs x.mem k = some req) (clock : Nat) :
    Settling.settleSlot clock hs h x k =
      { x.put h.number k (recordWords (unanswered req).kind (unanswered req).body clock (x.mem.slotChain h.number (k - 1)))
        with completed := true } := by
  unfold Settling.settleSlot
  rw [hreq]

theorem Settling.settleSlot_voids {h : Found} {hs : List Found} {x : Settling} {k : Nat}
    (hreq : h.requestBefore hs x.mem k = none) (clock : Nat) :
    Settling.settleSlot clock hs h x k =
      { x.put h.number k (recordWords .void (((x.mem.slot h.number k).drop 1).take 11) clock
          (x.mem.slotChain h.number (k - 1))) with voided := x.voided + 1 } := by
  rw [recordWords_take _ _ _ _ (by simp)]
  unfold Settling.settleSlot
  rw [hreq]

/-! ## The obligation -/

/-- Settles O59: headers, table entries, stream entries, the clock and the cut-off slots, each by its own lemma above. -/
theorem theMountReadsTheStore : Obligations.TheMountReadsTheStore := by
  refine ⟨fun m n h => ?_, fun m hs n hn => ?_, fun m hs h g hmem hnodup => ?_,
    fun m hs seed st hst => mountStream_none hst m seed, fun m hs seed h g hmem hnodup hnewest => ?_,
    fun m hs formatTime => ⟨rfl, fun h hmem => mountClock_le hmem m formatTime, fun hne => mountClock_attained hne m formatTime⟩,
    fun m h k => ?_, fun clock hs h x k o hk => ?_⟩
  · intro ws at_ long
    have words : ws = m.slot n 0 := (Memory.slot_zero m n).symm
    have word (i : Nat) (hi : i < 16) : at_ i = wordAt (m.slot n 0) i := by
      rw [← Memory.getD_slot hi, ← words]
    have num (i : Nat) (hi : i < 15) : long i = num32At (m.slot n 0) i := by
      rw [← Memory.getD_slot_num hi, ← words]
    rw [words, word 0 (by decide), word 1 (by decide), word 2 (by decide), word 3 (by decide), num 4 (by decide), num 6 (by decide),
      num 8 (by decide), num 14 (by decide)]
    exact Memory.header_found_iff m n h
  · rw [mountEntry_none hn, Memory.slotBlank_zero]
    rfl
  · intro ws at_ long rivals read
    have num (i : Nat) (hi : i < 15) : long i = num32At (m.slot h.number h.last) i := Memory.getD_slot_num hi m h.number h.last
    have entry {st : SegState} (hr : h.resolved hs = st) : mountEntry hs m h.number = read st := by
      rw [mountEntry_found hnodup hmem, Found.entryOf_resolved hr]
      simp only [read, num 12 (by decide), num 14 (by decide)]
      rfl
    have rival {f : Found} : f ∈ rivals ↔ f ∈ hs ∧ f.stream = h.stream ∧ f.state = .opened ∧ f.number ≠ h.number := by
      simp [rivals, and_assoc]
    have lower (hlow : ∀ f ∈ rivals, f.first.toNat < h.first.toNat) (f : Found) (hf : f ∈ hs) (hst : f.stream = h.stream)
        (ho : f.state = .opened) (hn : f.number ≠ h.number) : f.first.toNat < h.first.toNat :=
      hlow f (rival.mpr ⟨hf, hst, ho, hn⟩)
    refine ⟨fun ho => entry (Found.resolved_of_not_opened ho hs), fun ho hl hlow => entry ?_, fun ho hl hlow => entry ?_,
      fun ho hg hlt => entry ?_⟩
    · rw [Found.resolved_newest hnodup hmem ho (lower hlow), if_pos (by omega)]
    · rw [Found.resolved_newest hnodup hmem ho (lower hlow), if_neg (by omega)]
    · obtain ⟨hg, hst, hgo, -⟩ := rival.mp hg
      exact Found.resolved_outdated hnodup hmem ho hg hst hgo hlt
  · intro ws at_ long y
    have others {f : Found} (hf : f ∈ hs) (hst : f.stream = h.stream) : f = h ∨ f.first.toNat < h.first.toNat := by
      by_cases hn : f.number = h.number
      · exact .inl (found_unique hnodup hf hmem hn)
      · exact .inr (hnewest f hf hst hn)
    have newest : newestOf (ofStream hs h.stream) = some h :=
      newestOf_eq (by simp [ofStream, hmem]) fun f hf => by
        simp only [ofStream, List.mem_filter, beq_iff_eq] at hf
        exact others hf.1 hf.2
    have num (i : Nat) (hi : i < 15) : long i = num32At (m.slot h.number h.last) i := Memory.getD_slot_num hi m h.number h.last
    have stays (ho : h.state = .opened) : openOf hs h.stream = if h.last < 1023 then some h else none :=
      openOf_newest hnodup hmem ho fun f hf hst _ => hnewest f hf hst
    have entry : y = _ := mountStream_newest newest m seed
    rw [entry]
    dsimp only
    refine ⟨rfl, by rw [num 14 (by decide)]; rfl, rfl, rfl, fun h0 => ?_, fun _ hall => nextRecord_none hall,
      fun _ hg hst hg0 hmax => ?_, fun ho hl => ?_, fun ho hl => ?_⟩
    · exact nextRecord_eq hmem h0 fun f hf hst _ => others hf hst
    · rw [← hst]
      refine nextRecord_eq hg hg0 fun f hf hfst hf0 => ?_
      by_cases hn : f.number = g.number
      · exact .inl (found_unique hnodup hf hg hn)
      · exact .inr (hmax f hf (hfst.trans hst) hf0 hn)
    · rw [stays ho, if_pos (by omega)]
      exact ⟨rfl, rfl⟩
    · rw [stays ho, if_neg (by omega)]
      exact ⟨rfl, rfl⟩
  · intro ws at_ long before
    have num (i : Nat) (hi : i < 15) : long i = num32At (m.slot h.number k) i := Memory.getD_slot_num hi m h.number k
    have tail (hk : 1 ≤ k) : m.tailValid h.number k = true ↔ recordChain before ws = BitVec.ofNat 32 (long 14) := by
      rw [num 14 (by decide)]
      exact Memory.tailValid_iff hk m h.number
    have mark : marked (at_ 0) = m.slotMarked h.number k := (Memory.slotMarked_eq m h.number k).symm
    refine ⟨?_, fun h0 => Found.newestTime_empty h0 m, fun hl h1 hchain => ?_⟩
    · rw [Found.mem_cutSlots_iff, mark]
      refine and_congr_right fun h1 => and_congr_right fun _ => ?_
      rw [tail h1]
    · rw [num 12 (by decide)]
      subst hl
      exact Found.newestTime_valid h1 ((tail h1).mpr hchain)
  · intro slot base seed asks put voids answers above req
    have chain : seed = x.mem.slotChain h.number (k - 1) := (Memory.slotChain_before hk x.mem h.number).symm
    have asked {ws : List Word} (hlen : ws.length = 16) : isRequest ws = true ↔ asks ws := by
      rw [isRequest_iff, ← getD_zero_eq_wordAt (by omega)]
    have voided (hr : h.requestBefore hs x.mem k = none) : Settling.settleSlot clock hs h x k = voids := by
      rw [Settling.settleSlot_voids hr]
      simp only [voids, chain]
      rfl
    have answered {ws : List Word} (hlen : ws.length = 16) (hr : h.requestBefore hs x.mem k = some ws) :
        Settling.settleSlot clock hs h x k = answers ws := by
      rw [Settling.settleSlot_answers hr, recordWords_unanswered hlen]
      simp only [answers, chain]
      rfl
    have len (n j : Nat) : (slot n j).length = 16 := Memory.slot_length x.mem n j
    refine ⟨fun h2 ha => ?_, fun h2 ha => ?_, fun h1 hd habove => ⟨?_, ?_⟩, fun h1 hd => ?_⟩
    · refine answered (len _ _) ?_
      rw [Found.requestBefore_above h2]
      exact Option.filter_eq_some_iff.mpr ⟨rfl, (asked (len _ _)).mpr ha⟩
    · refine voided ?_
      rw [Found.requestBefore_above h2]
      refine Option.filter_eq_none_iff.mpr fun ws hws hr => ?_
      obtain rfl := Option.some.inj hws
      exact ha ((asked (len _ _)).mp hr)
    · intro ws ho ha
      subst h1
      obtain ⟨g, hg, rfl⟩ := Option.map_eq_some_iff.mp (habove.trans ho)
      refine answered (len _ _) ?_
      rw [Found.requestBefore_first_delivery hd]
      exact Option.filter_eq_some_iff.mpr ⟨habove.trans ho, (asked (len _ _)).mpr ha⟩
    · intro hnone
      subst h1
      refine voided ?_
      rw [Found.requestBefore_first_delivery hd]
      refine Option.filter_eq_none_iff.mpr fun ws hws hr => ?_
      obtain ⟨g, hg, rfl⟩ := Option.map_eq_some_iff.mp hws
      exact hnone _ (habove.symm.trans hws) ((asked (len _ _)).mp hr)
    · subst h1
      exact voided (Found.requestBefore_first_other hd hs x.mem)

end Sys2Proof.Machine

/-! # Proofs: the ranges of the saturating counts and the sizes of the tables (R36, R48, R58, R94, R118, R139, R162, R187, R213)

Each count saturates where it rises, and each table is changed entry by entry. `Part.CountsKept` carries the invariant from one
part to the next; the lemmas follow the order of the model's definitions. -/

namespace Sys2Proof.Machine

/-! ## Tables -/

/-- A table of `n` entries that each satisfy `P`. -/
def TableOf {α : Type} (n : Nat) (P : α → Prop) (l : List α) : Prop := l.length = n ∧ ∀ x ∈ l, P x

section
variable {α : Type} {n : Nat} {P : α → Prop} {l : List α}

theorem TableOf.map (h : TableOf n P l) {f : α → α} (hf : ∀ x, P x → P (f x)) : TableOf n P (l.map f) :=
  ⟨(List.length_map f).trans h.1, List.forall_mem_map.mpr fun x hx => hf x (h.2 x hx)⟩

theorem TableOf.mapIdx (h : TableOf n P l) {f : Nat → α → α} (hf : ∀ i x, P x → P (f i x)) : TableOf n P (l.mapIdx f) := by
  refine ⟨List.length_mapIdx.trans h.1, fun y hy => ?_⟩
  obtain ⟨i, hi, rfl⟩ := List.mem_mapIdx.mp hy
  exact hf i _ (h.2 _ (List.getElem_mem hi))

/-- Entry `i` is changed, where the change may rest on what stands there. -/
theorem TableOf.modifyAt (h : TableOf n P l) {i : Nat} {f : α → α} (hf : ∀ x, l[i]? = some x → P x → P (f x)) :
    TableOf n P (l.modify i f) := by
  refine ⟨by rw [List.length_modify]; exact h.1, fun y hy => ?_⟩
  obtain ⟨j, hj⟩ := List.mem_iff_getElem?.mp hy
  rw [List.getElem?_modify] at hj
  obtain ⟨x, hx, rfl⟩ := Option.map_eq_some_iff.mp hj
  have hP : P x := h.2 x (List.mem_of_getElem? hx)
  split
  · rename_i hij
    exact hf x (hij ▸ hx) hP
  · exact hP

theorem TableOf.modify (h : TableOf n P l) {i : Nat} {f : α → α} (hf : ∀ x, P x → P (f x)) : TableOf n P (l.modify i f) :=
  h.modifyAt fun x _ => hf x

theorem TableOf.set (h : TableOf n P l) {i : Nat} {x : α} (hx : P x) : TableOf n P (l.set i x) :=
  ⟨List.length_set.trans h.1, fun y hy => (List.mem_or_eq_of_mem_set hy).elim (h.2 y) fun e => e ▸ hx⟩

theorem TableOf.replicate (n : Nat) {x : α} (hx : P x) : TableOf n P (List.replicate n x) :=
  ⟨List.length_replicate, fun _ hy => List.eq_of_mem_replicate hy ▸ hx⟩

end

/-! ## The invariant -/

theorem sat8_le (n : Nat) : sat8 n ≤ 255 := Nat.min_le_right _ _
theorem sat16_le (n : Nat) : sat16 n ≤ 65535 := Nat.min_le_right _ _
theorem sat32_le (n : Nat) : sat32 n ≤ 4294967295 := Nat.min_le_right _ _

/-- The counts of a consignment table entry that may be free. -/
def entryInRange (o : Option Consignment) : Prop := ∀ k, o = some k → k.countsInRange

theorem entryInRange.map {o : Option Consignment} (h : entryInRange o) {f : Consignment → Consignment}
    (hf : ∀ k, k.countsInRange → (f k).countsInRange) : entryInRange (o.map f) := by
  intro k hk
  obtain ⟨j, hj, rfl⟩ := Option.map_eq_some_iff.mp hk
  exact hf j (h j hj)

/-- Every saturating count lies in its range, the tables have their sizes, and the pending set has no unused bit. -/
structure Part.CountsSound (p : Part) : Prop where
  fairness : p.arb.fairness ≤ 8
  errors : p.chan.protectErrors ≤ 255
  refused : p.refusals.count ≤ 65535
  owed : p.scrub.owed ≤ 255
  ctxs : TableOf 8 Ctx.countsInRange p.ctxs
  slots : TableOf 24 Slot.countsInRange p.scan.slots
  cons : TableOf 32 entryInRange p.cons
  claims : p.claims.length = 8
  causes : p.attention &&& causeUnused = 0

theorem Part.countsSound_iff {p : Part} :
    p.CountsSound ↔ p.countsInRange ∧ p.tablesSized ∧ p.causesInRange := by
  constructor
  · rintro ⟨fairness, errors, refused, owed, ⟨hctxs, ctxs⟩, ⟨hslots, slots⟩, ⟨hcons, cons⟩, claims, causes⟩
    exact ⟨⟨fairness, errors, refused, owed, ctxs, slots, cons⟩, ⟨hctxs, hslots, hcons, claims⟩, causes⟩
  · rintro ⟨⟨fairness, errors, refused, owed, ctxs, slots, cons⟩, ⟨hctxs, hslots, hcons, claims⟩, causes⟩
    exact ⟨fairness, errors, refused, owed, ⟨hctxs, ctxs⟩, ⟨hslots, slots⟩, ⟨hcons, cons⟩, claims, causes⟩

/-- A part whose counts are sound is left with sound counts. -/
def Part.CountsKept (p q : Part) : Prop := p.CountsSound → q.CountsSound

theorem Part.CountsKept.refl (p : Part) : Part.CountsKept p p := id

theorem Part.CountsKept.trans {p q r : Part} (h : Part.CountsKept p q) (k : Part.CountsKept q r) : Part.CountsKept p r :=
  fun hp => k (h hp)

theorem Part.CountsKept.ite {p q r : Part} {c : Prop} [Decidable c] (h : Part.CountsKept p q) (k : Part.CountsKept p r) :
    Part.CountsKept p (if c then q else r) := by
  split
  · exact h
  · exact k

theorem Part.CountsKept.foldl {α : Type} {f : Part → α → Part} (hf : ∀ p a, Part.CountsKept p (f p a)) (l : List α) :
    ∀ p, Part.CountsKept p (l.foldl f p) := by
  induction l with
  | nil => exact .refl
  | cons a l ih => exact fun p => (hf p a).trans (ih _)

/-! ## The updates of the tables and of the pending set -/

theorem or_and_eq_zero {w : Nat} {a b u : BitVec w} (ha : a &&& u = 0) (hb : b &&& u = 0) : (a ||| b) &&& u = 0 := by
  ext i hi
  have ha' : (a &&& u)[i] = false := by rw [ha]; simp
  have hb' : (b &&& u)[i] = false := by rw [hb]; simp
  rw [BitVec.getElem_and] at ha' hb'
  simp [BitVec.getElem_and, BitVec.getElem_or, Bool.and_or_distrib_right, ha', hb']

theorem Part.raise_countsKept {c : Word} (hc : c &&& causeUnused = 0) (p : Part) : Part.CountsKept p (p.raise c) :=
  fun h => { h with causes := or_and_eq_zero h.causes hc }

theorem Part.modCtx_countsKept {f : Ctx → Ctx} (c : Nat) (p : Part)
    (hf : ∀ x : Ctx, x.countsInRange → (f x).countsInRange := by exact fun _ h => h) :
    Part.CountsKept p (p.modCtx c f) := fun h => { h with ctxs := h.ctxs.modify hf }

theorem Part.modCons_countsKept {f : Consignment → Consignment} (i : Nat) (p : Part)
    (hf : ∀ k : Consignment, k.countsInRange → (f k).countsInRange := by exact fun _ h => h) :
    Part.CountsKept p (p.modCons i f) := fun h => { h with cons := h.cons.modify fun _ ho => ho.map hf }

theorem Part.mapLoaded_countsKept {f : Consignment → Consignment} (sel : Consignment → Bool) (p : Part)
    (hf : ∀ k : Consignment, k.countsInRange → (f k).countsInRange := by exact fun _ h => h) :
    Part.CountsKept p (p.mapLoaded sel f) := by
  have selected (k : Consignment) (hk : k.countsInRange) : (if k.isLoaded && sel k then f k else k).countsInRange := by
    split
    · exact hf k hk
    · exact hk
  exact fun h => { h with cons := h.cons.map fun _ ho => ho.map selected }

/-- A change of the scanner that maps its slots. -/
theorem Part.scan_countsKept {p : Part} {x : Scanner} {f : Slot → Slot} (hx : x.slots = p.scan.slots.map f)
    (hf : ∀ y : Slot, y.countsInRange → (f y).countsInRange) : Part.CountsKept p { p with scan := x } :=
  fun h => { h with slots := hx ▸ h.slots.map hf }

/-! ## The record writer queue and the scanner's freeze (R25, R127, R129) -/

theorem Slot.disagreed_inRange (y : Slot) (hy : y.countsInRange) : ({ y with agree := 0 } : Slot).countsInRange :=
  ⟨Nat.zero_le _, hy.2⟩

theorem Part.freezeCheck_countsKept (p : Part) : Part.CountsKept p p.freezeCheck := by
  have frozen : Part.CountsKept p { p with scan := { p.scan with
      run := .frozen, slots := p.scan.slots.map (fun s => { s with agree := 0 }), dwellTest := none } } :=
    Part.scan_countsKept rfl Slot.disagreed_inRange
  exact .ite (frozen.trans (Part.raise_countsKept rfl _)) (.refl p)

theorem Part.addRecord_countsKept (st : Stream) (k : Kind) (body : List Word) (p : Part) :
    Part.CountsKept p (p.addRecord st k body) :=
  fun h => Part.freezeCheck_countsKept _ { h with }

theorem Part.resumeScanner_countsKept (p : Part) : Part.CountsKept p p.resumeScanner := by
  unfold Part.resumeScanner
  split
  · split
    · exact fun h => { h with }
    · rename_i body _
      have added : Part.CountsKept p (Part.addRecord .event .doorStatus body { p with scan := { p.scan with owed := none } }) :=
        fun h => Part.addRecord_countsKept _ _ _ _ { h with }
      exact .ite (fun h => { added h with }) added
  · exact .refl p

theorem Ctx.withheld_inRange (x : Ctx) (hx : x.countsInRange) :
    ({ x with withheld := sat8 (x.withheld + 1), summaryOwed := true } : Ctx).countsInRange :=
  have ⟨h1, h2, h3, h4, h5, h6, _, h8, h9⟩ := hx
  ⟨h1, h2, h3, h4, h5, h6, sat8_le _, h8, h9⟩

theorem Part.withhold_countsKept (c : Nat) (p : Part) : Part.CountsKept p (p.withhold c) :=
  (Part.modCtx_countsKept c p (by exact Ctx.withheld_inRange)).trans (Part.mapLoaded_countsKept _ _)

theorem Part.addExposure_countsKept (c : Nat) (k : Kind) (body : List Word) (p : Part) :
    Part.CountsKept p (p.addExposure c k body) :=
  .ite (Part.addRecord_countsKept _ _ _ p) (Part.withhold_countsKept c p)

theorem Part.addFault_countsKept (body : List Word) (p : Part) : Part.CountsKept p (p.addFault body) := by
  have active (x : Ctx) (hx : x.countsInRange) : (if x.thermal = .idle then x
      else { x with withheld := sat8 (x.withheld + 1), summaryOwed := true }).countsInRange := by
    split
    · exact hx
    · exact x.withheld_inRange hx
  have counted : Part.CountsKept p { p with ctxs := p.ctxs.map (fun x =>
      if x.thermal = .idle then x else { x with withheld := sat8 (x.withheld + 1), summaryOwed := true }) } :=
    fun h => { h with ctxs := h.ctxs.map active }
  exact .ite (Part.addRecord_countsKept _ _ _ p) (counted.trans (Part.mapLoaded_countsKept _ _))

/-! ## The exposure engine (chapter 5) -/

theorem Ctx.account_inRange (k : ClassEntry) (t : Nat) (x : Ctx) (hx : x.countsInRange) : (x.account k t).countsInRange := by
  obtain ⟨h1, -, -, -, h5, h6, h7, h8, h9⟩ := hx
  refine ⟨?_, sat32_le _, sat32_le _, sat32_le _, h5, h6, h7, h8, h9⟩
  show (if x.lastAboveHold k then _ else _) ≤ _
  split
  · exact sat32_le _
  · exact h1

theorem Part.alert_countsKept (k : Consignment) (condemned breached : Bool) (triggers reading : Word) (p : Part) :
    Part.CountsKept p (p.alert k condemned breached triggers reading) :=
  (Part.addExposure_countsKept _ _ _ p).trans (Part.raise_countsKept rfl _)

theorem Part.evaluate_countsKept (c : Nat) (r : Int) (i : Nat) (p : Part) : Part.CountsKept p (p.evaluate c r i) := by
  unfold Part.evaluate
  split
  · exact .refl p
  · have judged (cls : ClassEntry) (x : Ctx) : Part.CountsKept p (p.modCons i (fun k => k.afterReading cls x r)) :=
      Part.modCons_countsKept i p
    exact .ite (.ite ((judged _ _).trans (Part.alert_countsKept _ _ _ _ _ _)) (judged _ _)) (.refl p)

theorem Part.endGap_countsKept (c t : Nat) (p : Part) : Part.CountsKept p (p.endGap c t) :=
  .ite ((Part.modCtx_countsKept c p).trans (Part.addExposure_countsKept _ _ _ _)) (.refl p)

theorem Part.evaluateThermal_countsKept (c : Nat) (r : Int) (t : Nat) (unit : Word) (p : Part) :
    Part.CountsKept p (p.evaluateThermal c r t unit) := by
  have recorded {f : Ctx → Ctx} (hf : ∀ x : Ctx, x.countsInRange → (f x).countsInRange) (k : Kind) (body : List Word) :=
    ((Part.modCtx_countsKept c p hf).trans (Part.addExposure_countsKept c k body _)).trans
      (Part.raise_countsKept (c := causeExposureChange) rfl _)
  unfold Part.evaluateThermal
  dsimp only
  split
  · exact .refl p
  · exact .ite (recorded (by
      exact fun _ ⟨h1, h2, h3, h4, _, h6, h7, h8, h9⟩ => ⟨h1, h2, h3, h4, sat16_le _, h6, h7, h8, h9⟩) _ _) (.refl p)
  · exact .ite (Part.modCtx_countsKept c p) (recorded (by exact fun _ h => h) _ _)

theorem Part.takeSample_countsKept (c : Nat) (r : Int) (t : Nat) (unit : Word) (p : Part) :
    Part.CountsKept p (p.takeSample c r t unit) := by
  have accounted := Part.modCtx_countsKept c p (Ctx.account_inRange (p.classOfComp c) t)
  have evaluated (q : Part) : Part.CountsKept q (q.evaluateAll c r) :=
    CountsKept.foldl (fun q i => Part.evaluate_countsKept c r i q) _ q
  exact (((accounted.trans (Part.endGap_countsKept c t _)).trans (Part.evaluateThermal_countsKept c r t unit _)).trans
    (evaluated _)).trans (Part.modCtx_countsKept c _ (by
      exact fun _ ⟨h1, h2, h3, h4, h5, _, h7, h8, h9⟩ => ⟨h1, h2, h3, h4, h5, Nat.zero_le _, h7, h8, h9⟩))

theorem Part.consumeSample_countsKept (ws : List Word) (t : Nat) (p : Part) : Part.CountsKept p (p.consumeSample ws t) := by
  unfold Part.consumeSample
  dsimp only
  refine .ite (.refl p) (.ite (.refl p) (.ite (.refl p) ?_))
  split
  · exact Part.modCtx_countsKept _ p (by
      exact fun _ ⟨h1, h2, h3, h4, h5, h6, h7, _, h9⟩ => ⟨h1, h2, h3, h4, h5, h6, h7, sat16_le _, h9⟩)
  · exact (CountsKept.ite (Part.modCtx_countsKept _ p (by
      exact fun _ ⟨h1, h2, h3, h4, h5, h6, h7, h8, _⟩ => ⟨h1, h2, h3, h4, h5, h6, h7, h8, sat16_le _⟩)) (.refl p)).trans
      (Part.takeSample_countsKept _ _ _ _ _)

theorem Part.expireGapTimer_countsKept (c : Nat) (p : Part) : Part.CountsKept p (p.expireGapTimer c) :=
  (((Part.modCtx_countsKept c p).trans (Part.addExposure_countsKept _ _ _ _)).trans
    (Part.mapLoaded_countsKept _ _)).trans (Part.raise_countsKept rfl _)

theorem Part.expireDeadline_countsKept (i : Nat) (p : Part) : Part.CountsKept p (p.expireDeadline i) := by
  unfold Part.expireDeadline
  split
  · exact .refl p
  · exact (Part.modCons_countsKept i p).trans (Part.alert_countsKept _ _ _ _ _ _)

theorem Part.withheldSummary_countsKept (p : Part) :
    Part.CountsKept p (match p.summaryComp with | some c => p.addSummary c | none => p) := by
  split
  · exact (Part.modCtx_countsKept _ p).trans (Part.addRecord_countsKept _ _ _ _)
  · exact .refl p

theorem Ctx.cold_inRange : Ctx.cold.countsInRange := by decide

theorem Part.initContexts_countsKept (p : Part) : Part.CountsKept p p.initContexts := by
  intro h
  refine { h with ctxs := ⟨by simp [Part.initContexts], ?_⟩ }
  intro x hx
  obtain ⟨c, -, rfl⟩ := List.mem_map.mp hx
  split <;> exact Ctx.cold_inRange

theorem Part.stopContexts_countsKept (p : Part) : Part.CountsKept p p.stopContexts :=
  fun h => { h with ctxs := h.ctxs.map fun _ hx => hx }

theorem Part.budgetTest_countsKept (c i : Nat) (p : Part) : Part.CountsKept p (p.budgetTest c i) := by
  unfold Part.budgetTest
  split
  · exact .refl p
  · exact .ite ((Part.modCons_countsKept i p).trans (Part.alert_countsKept _ _ _ _ _ _)) (.refl p)

theorem Part.closeAtRestart_countsKept (tf tr : Nat) (p : Part) (c : Nat) : Part.CountsKept p (p.closeAtRestart tf tr c) := by
  have accounted := Part.modCtx_countsKept c p (Ctx.account_inRange (p.classOfComp c) tf)
  have tested (q : Part) := CountsKept.foldl (fun q i => Part.budgetTest_countsKept c i q) (List.range 32) q
  exact .ite (.refl p) ((accounted.trans (tested _)).trans (Part.modCtx_countsKept c _ (by
    exact fun _ ⟨h1, h2, h3, h4, h5, _, h7, h8, h9⟩ => ⟨h1, h2, h3, h4, h5, Nat.zero_le _, h7, h8, h9⟩)))

theorem Part.chargeOutage_countsKept (secs : Nat) (cs : List Nat) (p : Part) : Part.CountsKept p (p.chargeOutage secs cs) :=
  CountsKept.foldl (fun q c => (Part.modCtx_countsKept c q (by
    exact fun _ ⟨h1, h2, h3, _, h5, h6, h7, h8, h9⟩ => ⟨h1, h2, h3, sat32_le _, h5, h6, h7, h8, h9⟩)).trans
      (Part.mapLoaded_countsKept _ _)) cs p

/-! ## The consignment engine (chapter 7) -/

theorem Part.loadRequest_countsKept (ws : List Word) (t : Nat) (p : Part) : Part.CountsKept p (p.loadRequest ws t).2 := by
  unfold Part.loadRequest
  dsimp only
  split
  · exact .refl p
  · split
    · exact .refl p
    · refine fun h => { h with cons := h.cons.set ?_ }
      rintro k ⟨⟩
      exact ⟨Nat.zero_le _, Nat.zero_le _, Nat.zero_le _⟩

theorem Part.judgeHandover_countsKept (reading : Word) (i : Nat) (k : Consignment) (p : Part) :
    Part.CountsKept p (p.judgeHandover reading i k) := by
  unfold Part.judgeHandover
  dsimp only
  split
  · exact .refl p
  · exact .ite ((Part.modCons_countsKept i p).trans (Part.alert_countsKept _ _ _ _ _ _))
      (Part.modCons_countsKept i p)

theorem Part.leaveLoaded_countsKept (i : Nat) (st : ConsState) (p : Part) : Part.CountsKept p (p.leaveLoaded i st) :=
  Part.modCons_countsKept i p

theorem Part.applyDelivery_countsKept (b : DeliveryBody) (i : Nat) (p : Part) : Part.CountsKept p (p.applyDelivery b i) := by
  have reduced : Part.CountsKept p (p.modCons i (fun k => { k with remaining := k.remaining - b.quantity })) :=
    Part.modCons_countsKept i p
  refine .ite (Part.modCons_countsKept i p (by exact fun _ h => ⟨h.1, h.2.1, sat16_le _⟩)) ?_
  dsimp only
  split
  · exact .ite (reduced.trans (Part.leaveLoaded_countsKept _ _ _)) reduced
  · exact reduced

theorem Part.answerRequest_countsKept (k : Kind) (ws : List Word) (t : Nat) (p : Part) :
    Part.CountsKept p (p.answerRequest k ws t).2 := by
  have delivered : Part.CountsKept p (p.deliveryRequest ws).2 := by
    unfold Part.deliveryRequest
    dsimp only
    split
    · exact .refl p
    · exact (Part.judgeHandover_countsKept _ _ _ p).trans (Part.applyDelivery_countsKept _ _ _)
  have unloaded : Part.CountsKept p (p.unloadRequest ws).2 := by
    unfold Part.unloadRequest
    dsimp only
    split
    · exact .refl p
    · exact Part.leaveLoaded_countsKept _ _ p
  unfold Part.answerRequest
  split
  · exact Part.loadRequest_countsKept ws t p
  · exact unloaded
  · exact delivered

theorem Part.evidenceFault_countsKept (n : Nat) (p : Part) : Part.CountsKept p (p.evidenceFault n) := by
  unfold Part.evidenceFault
  split
  · exact .refl p
  · exact .ite (Part.mapLoaded_countsKept _ p) (.refl p)

theorem entryInRange_none : entryInRange none := fun _ h => nomatch h

theorem Part.releaseCons_countsKept (p : Part) : Part.CountsKept p p.releaseCons :=
  fun h => { h with cons := TableOf.replicate 32 entryInRange_none }

/-! ## The contact scanner (chapter 6) -/

theorem Part.tellDoor_countsKept (k : Nat) (p : Part) : Part.CountsKept p (p.tellDoor k) :=
  fun h => { h with ctxs := h.ctxs.mapIdx fun _ _ hx => by split <;> exact hx }

theorem Slot.accept_inRange (t : Nat) (x : Slot) (hx : x.countsInRange) : (x.accept t).countsInRange := by
  refine ⟨Nat.zero_le _, ?_, hx.2.2⟩
  show (if x.accepted then _ else _) ≤ _
  split
  · exact hx.2.1
  · exact sat16_le _

theorem Part.modSlot_countsKept {k : Nat} {f : Slot → Slot} {p : Part}
    (hf : ∀ x : Slot, p.scan.slots[k]? = some x → x.countsInRange → (f x).countsInRange) :
    Part.CountsKept p (p.modSlot k f) :=
  fun h => { h with slots := h.slots.modifyAt hf }

theorem Part.acceptContact_countsKept (s : Nat) (p : Part) : Part.CountsKept p (p.acceptContact s) := by
  have told (body : List Word) := ((Part.modSlot_countsKept (p := p) (k := s) fun x _ => Slot.accept_inRange p.clock.now x).trans
    (Part.addRecord_countsKept .event .doorChange body _)).trans (Part.tellDoor_countsKept s _)
  exact .ite ((told _).trans (Part.mapLoaded_countsKept _ _ (by exact fun _ h => ⟨sat16_le _, h.2⟩))) (told _)

theorem Part.acceptSeal_countsKept (s : Nat) (p : Part) : Part.CountsKept p (p.acceptSeal s) := by
  have told (body : List Word) := (Part.modSlot_countsKept (p := p) (k := s) fun x _ => Slot.accept_inRange p.clock.now x).trans
    (Part.addRecord_countsKept .event .sealChange body _)
  exact .ite (((told _).trans (Part.mapLoaded_countsKept _ _)).trans (Part.raise_countsKept rfl _)) (told _)

/-- Below two agreeing samples a differing one is counted, and never a third (R121). -/
theorem Slot.visited_inRange {differs : Bool} {x : Slot} (hx : x.countsInRange) (h : differs = true → x.agree < 2) :
    (x.visited differs).countsInRange := by
  unfold Slot.visited
  split
  · exact ⟨h ‹_›, hx.2⟩
  · exact ⟨Nat.zero_le _, hx.2⟩

theorem Part.judgeVisit_countsKept (s : Nat) (raw : Bool) (p : Part) : Part.CountsKept p (p.judgeVisit s raw) := by
  unfold Part.judgeVisit
  dsimp only
  split
  · exact .ite (Part.acceptContact_countsKept s p) (Part.acceptSeal_countsKept s p)
  · rename_i unaccepted
    refine Part.modSlot_countsKept fun x hx hr => Slot.visited_inRange hr fun hd => ?_
    have slot : p.slot s = x := by simp [Part.slot, List.getD, hx]
    rw [slot] at unaccepted hd
    simpa [hd] using unaccepted

theorem Part.visit_countsKept (s : Nat) (raw rescan audit : Bool) (p : Part) :
    Part.CountsKept p (p.visit s raw rescan audit) := by
  have judged := Part.judgeVisit_countsKept s raw p
  have reported (body : List Word) (q : Part) : Part.CountsKept q (q.addStatus body) :=
    .ite (Part.addRecord_countsKept _ _ _ q) fun h => { h with }
  exact .ite (judged.trans (reported _ _)) judged

theorem Part.scanVisit_countsKept (lines : BitVec 24) (p : Part) : Part.CountsKept p (p.scanVisit lines) := by
  unfold Part.scanVisit
  dsimp only
  split <;> exact fun h => Part.visit_countsKept _ _ _ _ _ { h with }

theorem Part.watchLines_countsKept (lines : BitVec 24) (p : Part) : Part.CountsKept p (p.watchLines lines) :=
  fun h => { h with slots := h.slots.mapIdx fun _ _ hy => by split <;> exact hy }

theorem Part.dwellStep_countsKept (p : Part) : Part.CountsKept p p.dwellStep := by
  unfold Part.dwellStep
  split
  · exact .refl p
  · split
    · exact fun h => { h with }
    · rename_i n _ _ s limit _
      have tested : Part.CountsKept p { p with scan := { p.scan with dwellTest := some (s + 1) } } := fun h => { h with }
      exact (((tested.trans (Part.modSlot_countsKept (by exact fun _ _ h => h))).trans (Part.addRecord_countsKept _ _ _ _)).trans
        (Part.raise_countsKept rfl _)).trans (Part.mapLoaded_countsKept _ _ (by exact fun _ h => ⟨h.1, sat16_le _, h.2.2⟩))

theorem Part.startScanning_countsKept (p : Part) : Part.CountsKept p p.startScanning :=
  (Part.scan_countsKept rfl (by exact fun _ _ => ⟨Nat.zero_le _, Nat.zero_le _, Nat.zero_le _⟩)).trans (Part.freezeCheck_countsKept _)

theorem Part.stopScanning_countsKept (p : Part) : Part.CountsKept p p.stopScanning :=
  Part.scan_countsKept rfl (by exact fun _ h => ⟨Nat.zero_le _, h.2⟩)

theorem Part.restartScanner_countsKept (p : Part) : Part.CountsKept p p.restartScanner := by
  have reset : Part.CountsKept p { p with scan := { p.scan with
      slots := p.scan.slots.map (fun x => { x with agree := 0 }), dwellTest := none } } :=
    Part.scan_countsKept rfl Slot.disagreed_inRange
  exact .ite (reset.trans fun h => { h with }) (reset.trans (Part.freezeCheck_countsKept _))

end Sys2Proof.Machine

/-! # Proofs: the counts and tables through the store, the slots, the assembler and the claim verifier -/

namespace Sys2Proof.Machine

/-! ## The segment and stream tables -/

theorem Part.modSeg_countsKept (n : Nat) (f : SegEntry → SegEntry) (p : Part) : Part.CountsKept p (p.modSeg n f) :=
  .ite (.refl p) fun h => { h with }

theorem Part.openSegment_countsKept (st : Stream) (p : Part) : Part.CountsKept p (p.openSegment st) := by
  unfold Part.openSegment
  split
  · exact .refl p
  · rename_i n rest _
    have low : Part.CountsKept p (Part.raiseStoreLow { p with store := { p.store with pool := rest } }) := fun h =>
      CountsKept.ite (Part.raise_countsKept rfl _) (.refl { p with store := { p.store with pool := rest } }) { h with }
    have taken (q : Part) : Part.CountsKept q (q.openTaken st n) :=
      (Part.modSeg_countsKept n _ q).trans fun h => { h with }
    exact low.trans (taken _)

theorem Part.needSegment_countsKept (st : Stream) (p : Part) : Part.CountsKept p (p.needSegment st) :=
  .ite (.refl p) (.ite (Part.openSegment_countsKept st p) fun h => Part.raise_countsKept rfl _ { h with })

theorem Part.closeSegment_countsKept (st : Stream) (n : Nat) (p : Part) : Part.CountsKept p (p.closeSegment st n) :=
  fun h => { Part.modSeg_countsKept n _ p h with }

theorem Part.advanceStream_countsKept (st : Stream) (n : Nat) (chain : DWord) (p : Part) :
    Part.CountsKept p (p.advanceStream st n chain) :=
  fun h => Part.modSeg_countsKept n _ _ { h with }

theorem Part.slotConsumed_countsKept (st : Stream) (n s : Nat) (needs : Bool) (p : Part) :
    Part.CountsKept p (p.slotConsumed st n s needs) :=
  have closed := Part.closeSegment_countsKept st n p
  .ite (.ite (.ite (closed.trans (Part.needSegment_countsKept st _)) closed) fun h => { h with })
    (Part.modSeg_countsKept _ _ p)

theorem Part.faultSegment_countsKept (n : Nat) (p : Part) : Part.CountsKept p (p.faultSegment n) := by
  unfold Part.faultSegment
  split
  · exact .refl p
  · split
    · exact fun h => { Part.modSeg_countsKept n _ p h with }
    · exact Part.modSeg_countsKept n _ p
    · exact .refl p

theorem Part.joinPool_countsKept (n : Nat) (p : Part) : Part.CountsKept p (p.joinPool n) := by
  have served (q : Part) : Part.CountsKept q q.serveStalled :=
    CountsKept.foldl (fun q st => .ite (Part.openSegment_countsKept st q) (.refl q)) _ q
  exact fun h => served _ { Part.modSeg_countsKept n (fun _ => SegEntry.blankEntry) p h with }

/-! ## The command channel and the arbiter -/

theorem Part.endRunning_countsKept (st : CmdState) (o : CmdOutcome) (rs : List Word) (p : Part) :
    Part.CountsKept p (p.endRunning st o rs) := by
  unfold Part.endRunning
  split
  · exact .refl p
  · exact .ite (fun h => { h with }) (fun h => { h with })

theorem Part.conclude_countsKept (st : CmdState) (o : CmdOutcome) (rs : List Word) (p : Part) :
    Part.CountsKept p (p.conclude st o rs) := fun h => { h with }

theorem Part.done_countsKept (rs : List Word) (p : Part) : Part.CountsKept p (p.done rs) := fun h => { h with }

theorem Part.refuseCommand_countsKept (o : CmdOutcome) (p : Part) : Part.CountsKept p (p.refuseCommand o) :=
  fun h => { h with }

theorem Part.startRunning_countsKept (w : RunningWork) (p : Part) : Part.CountsKept p (p.startRunning w) :=
  fun h => { h with }

theorem Part.protectError_countsKept (p : Part) : Part.CountsKept p p.protectError :=
  fun h => Part.raise_countsKept rfl _ { h with errors := sat8_le _ }

theorem Part.giveBurst_countsKept (b : Burst) (p : Part) : Part.CountsKept p (p.giveBurst b) := fun h => { h with }

theorem Part.endBurst_countsKept (p : Part) : Part.CountsKept p p.endBurst := fun h => { h with }

theorem Part.upstreamGrant_countsKept (p : Part) : Part.CountsKept p p.upstreamGrant := by
  have risen : (if p.req2Waiting then min 8 (p.arb.fairness + 1) else 0) ≤ 8 := by
    split
    · exact Nat.min_le_left _ _
    · exact Nat.zero_le _
  exact fun h => { h with fairness := risen }

theorem Part.grant2_countsKept (p : Part) : Part.CountsKept p p.grant2 := fun h => { h with fairness := Nat.zero_le _ }

/-! ## The long-operation slots (R73, R164, R189) -/

theorem Part.modClaim_countsKept (i : Nat) (f : Claim → Claim) (p : Part) : Part.CountsKept p (p.modClaim i f) :=
  fun h => { h with claims := (List.length_modify f _ _).trans h.claims }

theorem Part.startVerify_countsKept (p : Part) : Part.CountsKept p p.startVerify := by
  unfold Part.startVerify
  split
  · exact .ite (fun h => Part.modClaim_countsKept _ _ _ { h with }) (.refl p)
  · exact .refl p

theorem Part.beginStep_countsKept {n : Nat} {p : Part} (hn : p.CountsSound → n ≤ 255) :
    Part.CountsKept p (p.beginStep n) := by
  unfold Part.beginStep
  split
  · exact fun h => { h with owed := Nat.zero_le _ }
  · exact fun h => { h with owed := hn h }

theorem Part.scrubTurn_countsKept (ended : Bool) (p : Part) : Part.CountsKept p (p.scrubTurn ended) := by
  have abandoned : Part.CountsKept p p.abandonStep := by
    unfold Part.abandonStep
    split
    · exact .refl p
    · exact .ite (fun h => { h with }) (fun h => { h with owed := sat8_le _ })
  exact .ite abandoned (.ite (Part.beginStep_countsKept fun h => (Nat.sub_le _ _).trans h.owed) (.refl p))

theorem Part.slotsChanged_countsKept (ended : Bool) (p : Part) : Part.CountsKept p (p.slotsChanged ended) := by
  have waiting : Part.CountsKept p p.beginWaiting := .ite (fun h => { h with }) (.refl p)
  exact (waiting.trans (Part.startVerify_countsKept _)).trans (Part.scrubTurn_countsKept _ _)

theorem Part.discardCollecting_countsKept (p : Part) : Part.CountsKept p p.discardCollecting :=
  .ite (fun h => { h with }) (.refl p)

theorem Part.leaveService_countsKept (p : Part) : Part.CountsKept p p.leaveService :=
  fun h => Part.slotsChanged_countsKept false _ (Part.discardCollecting_countsKept _ { h with })

/-! ## The record assembler (R20, R40, R42, R66) -/

theorem Part.decideWhere_countsKept {finish : CmdState → CmdOutcome → List Word → Part → Part}
    (hf : ∀ st o rs p, Part.CountsKept p (finish st o rs p)) (st : Stream) (p : Part) :
    Part.CountsKept p (p.decideWhere st finish) := by
  have needed : Part.CountsKept p (if (p.stream st).openSeg.isSome then p else p.needSegment st) :=
    .ite (.refl p) (Part.needSegment_countsKept st p)
  exact .ite (hf _ _ _ p) (.ite (needed.trans (hf _ _ _ _)) (needed.trans (hf _ _ _ _)))

theorem Part.afterAssembly_countsKept (st : Stream) (p : Part) : Part.CountsKept p (p.afterAssembly st) := by
  have closed : Part.CountsKept p (p.finishClose st) := by
    unfold Part.finishClose
    split
    · dsimp only
      split
      · exact fun h => { Part.closeSegment_countsKept st _ p h with }
      · exact fun h => { h with }
    · exact .refl p
  exact closed.trans (.ite (Part.decideWhere_countsKept Part.endRunning_countsKept st _) (.refl _))

theorem Part.voidAssembly_countsKept (t : Nat) (direct : Bool) (p : Part) : Part.CountsKept p (p.voidAssembly t direct) := by
  unfold Part.voidAssembly
  split
  · exact .refl p
  · rename_i a _
    have advanced (chain : DWord) :
        Part.CountsKept p (Part.advanceStream a.stream a.seg chain (Part.noteReceipt t { p with asm := none })) :=
      fun h => Part.advanceStream_countsKept _ _ _ _ { h with }
    have listed (e : DirectEntry) (q : Part) : Part.CountsKept q (if direct then q.pushDirect e else q) :=
      .ite (fun h => { h with }) (.refl q)
    exact ((((advanced _).trans (listed _ _)).trans (Part.slotConsumed_countsKept _ _ _ _ _)).trans
      (Part.raise_countsKept rfl _)).trans (Part.afterAssembly_countsKept _ _)

theorem Part.placeAnswer_countsKept (ans : Answer) (t n s : Nat) (p : Part) :
    Part.CountsKept p (p.placeAnswer ans t n s) :=
  (Part.advanceStream_countsKept .delivery n _ p).trans fun h => Part.slotConsumed_countsKept _ _ _ _ _ { h with }

theorem Part.commitAnswer_countsKept (ans : Answer) (t n s : Nat) (p : Part) :
    Part.CountsKept p (p.commitAnswer ans t n s) := by
  have opened := (Part.slotConsumed_countsKept .delivery n s false p).trans (Part.openSegment_countsKept .delivery _)
  refine .ite (Part.placeAnswer_countsKept _ _ _ _ p) ?_
  dsimp only
  split
  · exact opened.trans (Part.placeAnswer_countsKept _ _ _ _ _)
  · exact opened

theorem Part.commitRecord_countsKept (p : Part) : Part.CountsKept p p.commitRecord := by
  unfold Part.commitRecord
  split
  · exact .refl p
  · rename_i a _
    have taken : Part.CountsKept p { p with asm := none } := fun h => { h with }
    have advanced (q : Part) (chain : DWord) := Part.advanceStream_countsKept a.stream a.seg chain q
    have consumed (q : Part) (needs : Bool) := Part.slotConsumed_countsKept a.stream a.seg a.slot needs q
    have ended (q : Part) := Part.afterAssembly_countsKept a.stream q
    dsimp only
    split
    · exact ((((taken.trans (advanced _ _)).trans (consumed _ _)).trans (Part.consumeSample_countsKept _ _ _)).trans
        (ended _))
    · have asked := taken.trans (Part.answerRequest_countsKept a.kind a.words (a.receipt.getD p.clock.now) _)
      have stays (q : Part) : Part.CountsKept q (if a.slot < 1023 ∧ (q.stream a.stream).openSeg ≠ some a.seg
          then q.slotConsumed a.stream a.seg a.slot false else q) := .ite (consumed q false) (.refl q)
      exact ((((asked.trans (advanced _ _)).trans (stays _)).trans (Part.commitAnswer_countsKept _ _ _ _ _)).trans
        (ended _))

/-! ## The claim verifier (chapter 8) -/

theorem Part.checkFault_countsKept (n s : Nat) (seq : Option DWord) (cause claim : Word) (p : Part) :
    Part.CountsKept p (p.checkFault n s seq cause claim) := by
  have later (q : Part) : Part.CountsKept q (q.laterFault n) :=
    fun h => { h with claims := List.length_mapIdx.trans h.claims }
  unfold Part.checkFault
  split
  · exact .refl p
  · exact .ite (((((Part.faultSegment_countsKept n p).trans (Part.addFault_countsKept _ _)).trans
      (Part.raise_countsKept rfl _)).trans (Part.evidenceFault_countsKept n _)).trans (later _)) (.refl p)

theorem Part.vacateVerify_countsKept (p : Part) : Part.CountsKept p p.vacateVerify :=
  fun h => Part.raise_countsKept rfl _ { h with }

theorem Part.emptyVerify_countsKept (p : Part) : Part.CountsKept p p.emptyVerify :=
  (Part.vacateVerify_countsKept p).trans (Part.slotsChanged_countsKept _ _)

theorem Part.completeVerify_countsKept (i : Nat) (p : Part) : Part.CountsKept p (p.completeVerify i) :=
  ((Part.modClaim_countsKept i _ p).trans (Part.raise_countsKept rfl _)).trans (Part.emptyVerify_countsKept _)

theorem Part.freeClaim_countsKept (i : Nat) (p : Part) : Part.CountsKept p (p.freeClaim i) :=
  (CountsKept.foldl (fun q n => Part.modSeg_countsKept n _ q) _ p).trans (Part.modClaim_countsKept _ _ _)

theorem Part.closeVerify_countsKept (i : Nat) (p : Part) : Part.CountsKept p (p.closeVerify i) :=
  (Part.freeClaim_countsKept i p).trans (Part.emptyVerify_countsKept _)

theorem Part.abortClaim_countsKept (v : Verify) (p : Part) : Part.CountsKept p (p.abortClaim v) :=
  (Part.modClaim_countsKept _ _ p).trans (Part.raise_countsKept rfl _)

theorem Part.abortVerify_countsKept (p : Part) : Part.CountsKept p p.abortVerify := by
  unfold Part.abortVerify
  split
  · exact .refl p
  · exact (Part.abortClaim_countsKept _ p).trans (Part.emptyVerify_countsKept _)

theorem Part.beginWrite_countsKept (v : Verify) (proofs : List ProofFinding) (p : Part) :
    Part.CountsKept p (p.beginWrite v proofs) := fun h => { h with }

theorem Part.extractStep_countsKept (p : Part) : Part.CountsKept p p.extractStep := by
  unfold Part.extractStep
  split
  · exact .refl p
  · rename_i v _
    refine .ite ?_ (.refl p)
    unfold Part.addExtract
    split
    · exact Part.completeVerify_countsKept _ p
    · rename_i k body rest _
      have added : Part.CountsKept p (Part.addRecord .claim k body
          { p with verify := some { v with extracts := rest, count := v.count + 1 } }) :=
        fun h => Part.addRecord_countsKept _ _ _ _ { h with }
      exact .ite (added.trans (Part.completeVerify_countsKept _ _)) added

theorem Part.collectNext_countsKept (v : Verify) (p : Part) : Part.CountsKept p (p.collectNext v) := by
  unfold Part.collectNext
  split
  · exact (Part.modClaim_countsKept _ _ p).trans (Part.beginWrite_countsKept _ _ _)
  · exact fun h => { h with }

theorem Part.beginCollect_countsKept (v : Verify) (p : Part) : Part.CountsKept p (p.beginCollect v) :=
  Part.collectNext_countsKept _ p

theorem Part.passCheck_countsKept (p : Part) : Part.CountsKept p p.passCheck := by
  unfold Part.passCheck
  split
  · exact .refl p
  · exact .ite (Part.beginCollect_countsKept _ p) (.refl p)

theorem Part.collectSlot_countsKept (v : Verify) (ws : List Word) (p : Part) : Part.CountsKept p (p.collectSlot v ws) := by
  unfold Part.collectSlot
  split
  · exact (Part.modClaim_countsKept _ _ p).trans (Part.beginWrite_countsKept _ _ _)
  · exact Part.collectNext_countsKept _ p

theorem Part.checkEnded_countsKept (v : Verify) (last : Nat) (p : Part) : Part.CountsKept p (p.checkEnded v last) := by
  unfold Part.checkEnded Part.checkNext
  split
  · exact Part.beginCollect_countsKept _ p
  · exact fun h => { h with }

theorem Part.checkSlot_countsKept (v : Verify) (ws : List Word) (p : Part) : Part.CountsKept p (p.checkSlot v ws) := by
  unfold Part.checkSlot
  split
  · exact Part.checkEnded_countsKept _ _ p
  · split
    · exact fun h => { h with }
    · exact Part.checkEnded_countsKept _ _ p
    · exact ((Part.modClaim_countsKept _ _ p).trans (Part.checkFault_countsKept _ _ _ _ _ _)).trans
        (Part.checkEnded_countsKept _ _ _)

theorem Part.unbatch_countsKept (n : Nat) (p : Part) : Part.CountsKept p (p.unbatch n) := by
  unfold Part.unbatch
  split
  · exact .ite (fun h => { h with }) (fun h => { h with })
  · exact .refl p

theorem Part.considerHold_countsKept (i lo hi : Nat) (p : Part) (n : Nat) :
    Part.CountsKept p (p.considerHold i lo hi n) := by
  unfold Part.considerHold
  split
  · exact .refl p
  · have flagged (f : Claim → Claim) := Part.modClaim_countsKept i f p
    exact .ite (.refl p) (.ite (flagged _) (.ite (.refl p) (.ite (flagged _) (.ite (flagged _)
      (((Part.modSeg_countsKept n _ p).trans (Part.unbatch_countsKept n _)).trans (Part.modClaim_countsKept i _ _))))))

theorem Part.holdPhase_countsKept (v : Verify) (p : Part) : Part.CountsKept p (p.holdPhase v) := by
  have held (lo hi : Nat) (q : Part) := CountsKept.foldl (Part.considerHold_countsKept v.claim lo hi) p.recordSegs q
  have covered (f : Claim → Claim) (c : Prop) [Decidable c] (q : Part) :
      Part.CountsKept q (if c then q else q.modClaim v.claim f) := .ite (.refl q) (Part.modClaim_countsKept _ _ q)
  exact fun h => { ((held _ _ p).trans (covered _ _ _)) h with }

theorem Part.notFound_countsKept (v : Verify) (number : BitVec 16) (p : Part) : Part.CountsKept p (p.notFound v number) :=
  (Part.modClaim_countsKept _ _ p).trans (Part.beginWrite_countsKept _ _ _)

theorem Part.walkTo_countsKept (v : Verify) (number : BitVec 16) (p : Part) : Part.CountsKept p (p.walkTo v number) := by
  unfold Part.walkTo
  split
  · exact fun h => { h with }
  · exact Part.notFound_countsKept _ _ p

theorem Part.fixWalk_countsKept (fuel : Nat) : ∀ p : Part, Part.CountsKept p (Part.fixWalk fuel p) := by
  induction fuel with
  | zero => exact .refl
  | succ fuel ih =>
    intro p
    unfold Part.fixWalk
    split
    · exact .refl p
    · exact .ite (.refl p) (.ite ((Part.walkTo_countsKept _ _ p).trans (ih _)) (.ite (.refl p)
        (.ite ((Part.walkTo_countsKept _ _ p).trans (ih _)) fun h => { h with })))

theorem Part.locateSlot_countsKept (v : Verify) (ws : List Word) (p : Part) : Part.CountsKept p (p.locateSlot v ws) := by
  refine .ite ((Part.modClaim_countsKept _ _ p).trans (Part.holdPhase_countsKept _ _)) ?_
  split
  · exact fun h => { h with }
  · exact Part.walkTo_countsKept _ _ p

theorem Part.verifySlot_countsKept (v : Verify) (ws : List Word) (p : Part) : Part.CountsKept p (p.verifySlot v ws) := by
  unfold Part.verifySlot
  split
  · exact Part.locateSlot_countsKept v ws p
  · exact Part.checkSlot_countsKept v ws p
  · exact Part.collectSlot_countsKept v ws p
  · exact .refl p
  · exact .refl p

theorem Part.retestWalk_countsKept (p : Part) : Part.CountsKept p p.retestWalk := by
  unfold Part.retestWalk
  split
  · exact .refl p
  · exact .ite (Part.notFound_countsKept _ _ p) (.refl p)

/-- A grant leaves the counts as they are and changes the claims entry by entry (R46, R166). -/
theorem Part.grantPort_countsKept (p : Part) : Part.CountsKept p p.grantPort := by
  have arbitrated (q : Part) : Part.CountsKept q q.arbitrate := by
    unfold Part.arbitrate
    split
    · split
      · exact .refl q
      · exact Part.giveBurst_countsKept _ q
    · exact .refl q
  have fixed (q : Part) : Part.CountsKept q q.fixGrant := by
    have walked := Part.fixWalk_countsKept 600 q
    refine .ite ?_ (.refl q)
    dsimp only
    split
    · exact walked
    · split
      · split
        · exact fun h => { walked h with }
        · exact walked
      · exact fun h => arbitrated _ { walked h with }
      · exact walked
  unfold Part.grantPort
  split
  · split
    · exact .refl p
    · exact (Part.giveBurst_countsKept _ p).trans (fixed _)
    · exact Part.giveBurst_countsKept _ p
  · exact .refl p

end Sys2Proof.Machine

/-! # Proofs: the counts and tables through the retire slot, the route, the commands and the upstream port -/

namespace Sys2Proof.Machine

/-! ## The retire batch and FORMAT (R181 to R185, R193 to R196) -/

theorem Part.windowExpires_countsKept (p : Part) : Part.CountsKept p p.windowExpires := by
  unfold Part.windowExpires
  split
  · exact .ite (fun h => Part.slotsChanged_countsKept false _ { h with }) (.refl p)
  · exact .refl p

theorem Part.takeNextSeg_countsKept (p : Part) : Part.CountsKept p p.takeNextSeg := by
  have marked (n : Nat) (q : Part) : Part.CountsKept q (q.markRetiring n) := by
    have retiring := Part.modSeg_countsKept n (fun e => { e with state := .retiring, owed := .none }) q
    unfold Part.markRetiring
    dsimp only
    split
    · exact .ite (retiring.trans (Part.voidAssembly_countsKept _ _ _)) retiring
    · exact retiring
  unfold Part.takeNextSeg
  split
  · split
    · exact .ite (.refl p) fun h => marked _ _ { h with }
    · exact .refl p
  · exact .refl p

theorem Part.segBlanked_countsKept (n : Nat) (p : Part) : Part.CountsKept p (p.segBlanked n) := by
  have joined := Part.joinPool_countsKept n p
  unfold Part.segBlanked
  dsimp only
  split
  · exact joined
  · exact .ite (fun h => { joined h with })
      fun h => Part.slotsChanged_countsKept true _ (Part.raise_countsKept rfl _ { joined h with })

theorem Part.endBlanking_countsKept (p : Part) : Part.CountsKept p p.endBlanking := by
  have ended {q : Part} (h : Part.CountsKept p q) : Part.CountsKept p
      (Part.slotsChanged true (Part.raise causeOpDone { q with retire := { q.retire with state := .empty, batch := none } })) :=
    fun hp => Part.slotsChanged_countsKept true _ (Part.raise_countsKept rfl _ { h hp with })
  refine ended ?_
  split
  · split
    · exact Part.modSeg_countsKept _ _ p
    · exact .refl p
  · exact .refl p

theorem Part.startFormat_countsKept (code : Nat) (p : Part) : Part.CountsKept p (p.startFormat code) :=
  fun h => Part.resumeScanner_countsKept _ { h with }

theorem Part.dropLoad_countsKept (p : Part) : Part.CountsKept p p.dropLoad :=
  .ite (fun h => Part.endRunning_countsKept _ _ _ _ { h with }) fun h => { h with }

theorem Part.dropRoute_countsKept (p : Part) : Part.CountsKept p p.dropRoute :=
  .ite (fun h => Part.releaseCons_countsKept _ (Part.stopScanning_countsKept _ (Part.stopContexts_countsKept _ { h with })))
    (.refl p)

theorem Part.formatTerminated_countsKept (p : Part) : Part.CountsKept p p.formatTerminated := by
  have dropped := (Part.dropLoad_countsKept p).trans (Part.dropRoute_countsKept _)
  exact fun h => Part.slotsChanged_countsKept true _ (Part.raise_countsKept rfl _
    { dropped h with claims := List.length_replicate, owed := h.owed })

theorem Part.rescheduleScrub_countsKept (p : Part) : Part.CountsKept p p.rescheduleScrub := fun h => { h with }

theorem Part.formatComplete_countsKept (code : Nat) (p : Part) : Part.CountsKept p (p.formatComplete code) := by
  have settled (q : Part) := ((((Part.dropLoad_countsKept q).trans (Part.rescheduleScrub_countsKept _)).trans
    (Part.resumeScanner_countsKept _)).trans (Part.raise_countsKept (c := causeOpDone) rfl _)).trans
      (Part.slotsChanged_countsKept true _)
  exact fun h => settled _ { h with owed := Nat.zero_le _ }

theorem Part.suspendNow_countsKept (p : Part) : Part.CountsKept p p.suspendNow := by
  refine .ite (fun h => Part.slotsChanged_countsKept true _ { h with }) ?_
  split
  · exact .ite (.refl p) fun h => Part.slotsChanged_countsKept true _ { h with }
  · exact .refl p

theorem Part.terminateNow_countsKept (p : Part) : Part.CountsKept p p.terminateNow :=
  .ite (Part.endBlanking_countsKept p) (.ite (Part.formatTerminated_countsKept p)
    (.ite (Part.abortVerify_countsKept p) (.refl p)))

theorem Part.deferredWork_countsKept (w : RunningWork) (ended : Bool) (p : Part) :
    Part.CountsKept p (p.deferredWork w ended) := by
  unfold Part.deferredWork
  split
  · exact .ite (.refl p) (Part.suspendNow_countsKept p)
  · exact .ite (.refl p) (Part.terminateNow_countsKept p)
  · exact .ite (Part.closeVerify_countsKept _ p) (Part.freeClaim_countsKept _ p)
  · exact .refl p

theorem Part.afterLongBurst_countsKept (ended : Bool) (p : Part) : Part.CountsKept p (p.afterLongBurst ended) := by
  have done (w : RunningWork) := (Part.deferredWork_countsKept w ended p).trans (Part.endRunning_countsKept .done .ok [] _)
  unfold Part.afterLongBurst
  split
  · exact .refl p
  · split
    · exact done _
    · exact done _
    · exact done _
    · exact .refl p

/-! ## Scrub steps (R188 to R191) -/

theorem Part.stepDue_countsKept (p : Part) : Part.CountsKept p p.stepDue := by
  have scheduled := Part.rescheduleScrub_countsKept p
  exact .ite (fun h => { scheduled h with owed := sat8_le _ })
    (scheduled.trans (Part.beginStep_countsKept fun h => h.owed))

theorem Part.endStep_countsKept (n : Nat) (p : Part) : Part.CountsKept p (p.endStep n) :=
  fun h => Part.scrubTurn_countsKept true _ { h with }

theorem Part.scrubSlot_countsKept (st : ScrubStep) (ws : List Word) (p : Part) : Part.CountsKept p (p.scrubSlot st ws) := by
  refine .ite (fun h => Part.scrubTurn_countsKept true _ { h with owed := sat8_le _ }) ?_
  dsimp only
  split
  · exact Part.endStep_countsKept _ p
  · split
    · exact fun h => { h with }
    · exact Part.endStep_countsKept _ p
    · exact (Part.checkFault_countsKept _ _ _ _ _ p).trans (Part.endStep_countsKept _ _)

/-! ## The route controller (chapter 4) -/

theorem Part.holdFields_countsKept (h : Held) (p : Part) : Part.CountsKept p (p.holdFields h) :=
  .ite (fun h => { h with }) fun h => { h with }

theorem Part.takeSheetBurst_countsKept (ws : List Word) (p : Part) : Part.CountsKept p (p.takeSheetBurst ws) := by
  have installed (s : Sheet) (check : DWord) (q : Part) : Part.CountsKept q (q.installSheet s check) := by
    have loaded (r : Part) : Part.CountsKept r { r with route := { r.route with state := .loaded } } := fun h => { h with }
    exact fun h => ((((Part.holdFields_countsKept s.held _).trans (Part.addRecord_countsKept .event .routeStart _ _)).trans
      (loaded _)).trans (Part.initContexts_countsKept _)).trans (Part.startScanning_countsKept _) { h with }
  have unloaded : Part.CountsKept p { p with route := { p.route with load := none } } := fun h => { h with }
  have checked (l : LoadRead) : Part.CountsKept p (p.checkSheet l) := by
    unfold Part.checkSheet
    dsimp only
    split
    · exact unloaded.trans (Part.endRunning_countsKept _ _ _ _)
    · exact .ite (unloaded.trans (Part.endRunning_countsKept _ _ _ _))
        ((unloaded.trans (installed _ _ _)).trans (Part.endRunning_countsKept _ _ _ _))
  unfold Part.takeSheetBurst
  split
  · exact .refl p
  · exact .ite (checked _) fun h => { h with }

theorem Part.joinRouteEnd_countsKept (p : Part) : Part.CountsKept p p.joinRouteEnd := by
  unfold Part.joinRouteEnd
  split
  · exact .refl p
  · exact .ite (fun h => Part.addRecord_countsKept _ _ _ _ { h with }) (.refl p)

theorem Part.endRoute_countsKept (p : Part) : Part.CountsKept p p.endRoute := by
  have stopped (q : Part) := (((Part.stopContexts_countsKept q).trans (Part.stopScanning_countsKept _)).trans
    (Part.releaseCons_countsKept _)).trans (Part.joinRouteEnd_countsKept _)
  exact fun h => stopped _ { h with }

theorem Part.closeRoute_countsKept (p : Part) : Part.CountsKept p p.closeRoute := by
  have closed (q : Part) (st : Stream) : Part.CountsKept q (q.closeStream st) := by
    unfold Part.closeStream
    split
    · exact .refl q
    · exact .ite (fun h => { h with }) (Part.closeSegment_countsKept _ _ q)
  exact .ite (fun h => { CountsKept.foldl closed [.sample, .event, .delivery] p h with }) (.refl p)

theorem Part.resumeRoute_countsKept (v : Nat) (p : Part) : Part.CountsKept p (p.resumeRoute v) := by
  have loaded : Part.CountsKept p (Part.initContexts { p with route := { p.route with state := .loaded } }) :=
    fun h => Part.initContexts_countsKept _ { h with }
  have charged (secs : Nat) (cs : List Nat) :=
    (loaded.trans (Part.chargeOutage_countsKept secs cs _)).trans (Part.startScanning_countsKept _)
  have recorded (q : Part) (r : Route) (c : Clock) : Part.CountsKept q { q with route := r, clock := c } :=
    fun h => { h with }
  exact (charged (v - p.clock.mark.getD v)
    (Part.initContexts { p with route := { p.route with state := .loaded } }).chargedComps).trans (recorded _ _ _)

theorem Part.joinOutage_countsKept (p : Part) : Part.CountsKept p p.joinOutage := by
  unfold Part.joinOutage
  split
  · exact .refl p
  · exact .ite (fun h => Part.addRecord_countsKept _ _ _ _ { h with }) (.refl p)

theorem Part.fieldsRead_countsKept (value : Word) (dock : Bool) (h : Held) (p : Part) :
    Part.CountsKept p (p.fieldsRead value dock h) := by
  have held (q : Part) : Part.CountsKept q (if h.inRange then q.holdFields h else q) :=
    .ite (Part.holdFields_countsKept h q) (.refl q)
  exact .ite (Part.endRunning_countsKept _ _ _ p)
    (.ite ((Part.protectError_countsKept p).trans (Part.endRunning_countsKept _ _ _ _))
      fun hp => Part.endRunning_countsKept _ _ _ _ (held _ { hp with }))

/-! ## The twenty commands (R54, R57) -/

section
variable (p : Part)

theorem Part.cmdAcknowledge_countsKept (causes : Word) : Part.CountsKept p (p.cmdAcknowledge causes) := by
  have cleared : Part.CountsKept p (p.acknowledgeCauses causes) := by
    intro h
    have refused : (if causes &&& causeWriteRefused != 0 then RefusalLog.empty else p.refusals).count ≤ 65535 := by
      split
      · exact Nat.zero_le _
      · exact h.refused
    have pending : (p.attention &&& ~~~causes) &&& causeUnused = 0 := by
      rw [BitVec.and_assoc, BitVec.and_comm (~~~causes), ← BitVec.and_assoc, h.causes]
      exact BitVec.zero_and
    exact { h with refused := refused, causes := pending }
  exact .ite (Part.refuseCommand_countsKept _ p) (cleared.trans (Part.done_countsKept _ _))

theorem Part.cmdWhere_countsKept (code : Word) : Part.CountsKept p (p.cmdWhere code) := by
  refine .ite (Part.refuseCommand_countsKept _ p) ?_
  split
  · exact Part.refuseCommand_countsKept _ p
  · exact .ite (Part.startRunning_countsKept _ p) (Part.decideWhere_countsKept Part.conclude_countsKept _ p)

theorem Part.cmdClockSet_countsKept (v : Nat) : Part.CountsKept p (p.cmdClockSet v) := by
  have set : Part.CountsKept p (p.setClock v) := fun h => { h with }
  exact .ite (Part.refuseCommand_countsKept _ p) (.ite (Part.refuseCommand_countsKept _ p)
    ((CountsKept.ite (set.trans (Part.resumeRoute_countsKept v _)) set).trans (Part.done_countsKept _ _)))

theorem Part.cmdClaimOpen_countsKept (id : DWord) : Part.CountsKept p (p.cmdClaimOpen id) := by
  refine .ite (Part.refuseCommand_countsKept _ p) (.ite (Part.refuseCommand_countsKept _ p) ?_)
  split
  · exact Part.refuseCommand_countsKept _ p
  · rename_i i _
    have queued : Part.CountsKept p (Part.modClaim i (fun _ => { Claim.free with state := .queued, id := some id })
      { p with claimQueue := p.claimQueue ++ [i] }) := fun h => Part.modClaim_countsKept _ _ _ { h with }
    exact (queued.trans (Part.slotsChanged_countsKept _ _)).trans (Part.done_countsKept _ _)

theorem Part.cmdClaimClose_countsKept (index : Word) : Part.CountsKept p (p.cmdClaimClose index) := by
  unfold Part.cmdClaimClose
  split
  · exact Part.refuseCommand_countsKept _ p
  · exact .ite (.ite (Part.startRunning_countsKept _ p)
      ((Part.closeVerify_countsKept _ p).trans (Part.done_countsKept _ _)))
        fun h => Part.done_countsKept _ _ (Part.freeClaim_countsKept _ _ { h with })

theorem Part.cmdResume_countsKept : Part.CountsKept p p.cmdResume := by
  have refused (o : CmdOutcome) := Part.refuseCommand_countsKept o p
  have moved (q : Part) := (Part.slotsChanged_countsKept false q).trans (Part.done_countsKept [] _)
  refine .ite (.ite (refused _) fun h => moved _ { h with }) ?_
  split
  · exact refused _
  · exact .ite (refused _) (.ite (refused _)
      fun h => moved _ (Part.passCheck_countsKept _ (Part.retestWalk_countsKept _ { h with })))

theorem Part.cmdServiceEnter_countsKept (value : Word) (dock : Bool) : Part.CountsKept p (p.cmdServiceEnter value dock) := by
  have refused (o : CmdOutcome) := Part.refuseCommand_countsKept o p
  refine .ite (refused _) (.ite (refused _) (.ite (refused _) ?_))
  split
  · exact Part.startRunning_countsKept _ p
  · exact .ite ((Part.protectError_countsKept p).trans (Part.refuseCommand_countsKept _ _)) fun h => { h with }

theorem Part.cmdRetire_countsKept (segment : Word) : Part.CountsKept p (p.cmdRetire segment) := by
  have refused (o : CmdOutcome) := Part.refuseCommand_countsKept o p
  unfold Part.cmdRetire
  dsimp only
  split
  · exact refused _
  · exact .ite (refused _) (.ite (refused _) (.ite (refused _) (.ite (refused _) (.ite (refused _) fun h => { h with }))))

theorem Part.carryOut_countsKept (c : Command) (ps : List Word) (dock : Bool) : Part.CountsKept p (p.carryOut c ps dock) := by
  have refused (o : CmdOutcome) := Part.refuseCommand_countsKept o p
  cases c with
  | report => exact Part.done_countsKept _ p
  | acknowledge => exact Part.cmdAcknowledge_countsKept p _
  | identity => exact Part.done_countsKept _ p
  | whereIs => exact Part.cmdWhere_countsKept p _
  | clockSet => exact Part.cmdClockSet_countsKept p _
  | routeLoad => exact .ite (refused _) (.ite (refused _) (.ite (refused _) fun h => { h with }))
  | routeEnd => exact .ite (refused _) (.ite (refused _) ((Part.endRoute_countsKept p).trans (Part.done_countsKept _ _)))
  | rescan => exact .ite (refused _) (.ite (refused _) (.ite (refused _) fun h => { h with }))
  | audit => exact .ite (refused _) (.ite (refused _) fun h => { h with })
  | claimOpen => exact Part.cmdClaimOpen_countsKept p _
  | claimRead =>
    show Part.CountsKept p (p.cmdClaimRead _)
    unfold Part.cmdClaimRead
    split
    · exact refused _
    · exact Part.done_countsKept _ p
  | claimClose => exact Part.cmdClaimClose_countsKept p _
  | progress => exact Part.done_countsKept _ p
  | suspend =>
    exact .ite (refused _) (.ite (refused _) (.ite (Part.startRunning_countsKept _ p)
      ((Part.suspendNow_countsKept p).trans (Part.done_countsKept _ _))))
  | resume => exact Part.cmdResume_countsKept p
  | terminate =>
    exact .ite (refused _) (.ite (Part.startRunning_countsKept _ p)
      ((Part.terminateNow_countsKept p).trans (Part.done_countsKept _ _)))
  | serviceEnter => exact Part.cmdServiceEnter_countsKept p _ dock
  | serviceLeave => exact .ite ((Part.leaveService_countsKept p).trans (Part.done_countsKept _ _)) (refused _)
  | retire => exact Part.cmdRetire_countsKept p _
  | format =>
    exact .ite (refused _) (.ite (refused _) (.ite (refused _) (.ite (refused _) (.ite (refused _)
      ((Part.startFormat_countsKept _ p).trans (Part.done_countsKept _ _))))))

theorem Part.judge_countsKept (c : Command) (ps : List Word) (dock : Bool) : Part.CountsKept p (p.judge c ps dock) :=
  .ite (Part.refuseCommand_countsKept _ p) (.ite (Part.refuseCommand_countsKept _ p)
    (.ite ((Part.protectError_countsKept p).trans (Part.refuseCommand_countsKept _ _)) (Part.carryOut_countsKept p c ps dock)))

end

/-! ## The gate (R51 to R53) -/

theorem Part.gateWrite_countsKept (a : Addr) (d : Word) (dock : Bool) (p : Part) :
    Part.CountsKept p (p.gateWrite a d dock).1 := by
  have taken (k : Addr) (c : Command) : Part.CountsKept p (p.takeCommand k c dock) :=
    .ite (fun h => Part.judge_countsKept _ _ _ _ { h with }) fun h => { h with }
  have collected (k : Addr) (c : Command) (got : List Word) : Part.CountsKept p (p.takeParameter k c got d dock) :=
    .ite (fun h => Part.judge_countsKept _ _ _ _ { h with }) fun h => { h with }
  unfold Part.gateWrite
  split
  · split <;> exact fun h => { h with }
  · split <;> exact fun h => { h with }
  · split
    · split
      · exact taken _ _
      · exact fun h => { h with }
    · exact fun h => { h with }
  · split
    · exact collected _ _ _
    · exact fun h => { h with }

theorem Part.arrive_countsKept (a : Addr) (d : Word) (dock : Bool) (p : Part) : Part.CountsKept p (p.arrive a d dock).1 :=
  have met : Part.CountsKept p (if p.collecting then p else p.endPresentation) := .ite (.refl p) fun h => { h with }
  met.trans (Part.gateWrite_countsKept _ _ _ _)

/-! ## Accesses at the port (R29 to R45) -/

theorem Part.refuseWrite_countsKept (a : Addr) (c : RefusalCause) (p : Part) : Part.CountsKept p (p.refuseWrite a c) :=
  fun h => Part.raise_countsKept rfl _ { h with refused := sat16_le _ }

theorem State.forward_countsKept {a : Addr} {d : Word} {s t : State} (h : s.forward a d = some t) :
    Part.CountsKept s.part t.part := by
  rw [State.forward_part h]
  exact Part.upstreamGrant_countsKept s.part

theorem State.acceptWord_countsKept {a : Addr} {d : Word} {n : Nat} {x : Assembly} {s t : State}
    (h : s.acceptWord a d n x = some t) : Part.CountsKept s.part t.part := by
  unfold State.acceptWord at h
  simp only at h
  split at h
  · cases h
  · rename_i u hu
    cases h
    have noted (q : Part) (y : Assembly) : Part.CountsKept q { x.noteFloor n q with asm := some y } := by
      unfold Assembly.noteFloor
      split <;> exact fun h => { h with }
    have placed := (State.forward_countsKept hu).trans (noted u.part (x.takeWord d n (s.part.stream x.stream).running).2)
    exact .ite (placed.trans (Part.commitRecord_countsKept _)) placed

theorem State.writeRecord_countsKept {a : Addr} {d : Word} {n : Nat} {s t : State} (h : s.writeRecord a d n = some t) :
    Part.CountsKept s.part t.part := by
  unfold State.writeRecord at h
  simp only at h
  split at h
  · exact State.acceptWord_countsKept h
  · split at h
    · cases h; exact Part.refuseWrite_countsKept _ _ _
    · split at h
      · cases h
      · obtain ⟨u, hu, rfl⟩ := Option.map_eq_some_iff.mp h
        exact fun hs => { State.forward_countsKept hu hs with }

theorem State.classify_countsKept {a : Addr} {d : Word} {n : Nat} {m : Option Mode} {s t : State}
    (h : s.classify a d n m = some t) : Part.CountsKept s.part t.part := by
  have refused (c : RefusalCause) := Part.refuseWrite_countsKept a c s.part
  unfold State.classify at h
  simp only at h
  split at h
  · exact State.forward_countsKept h
  · cases h; exact refused _
  · split at h
    · split at h
      · cases h; exact refused _
      · split at h
        · split at h
          · cases h; exact refused _
          · obtain ⟨u, hu, rfl⟩ := Option.map_eq_some_iff.mp h
            exact fun hs => { State.forward_countsKept hu hs with }
        · exact State.forward_countsKept h
    · split at h
      · cases h; exact refused _
      · split at h
        · cases h
        · exact State.writeRecord_countsKept h

theorem State.place_countsKept {a : Addr} {d : Word} {n : Nat} {m : Option Mode} {s t : State} {more : List Work}
    (h : s.place a d n m = some (t, more)) : Part.CountsKept s.part t.part := by
  unfold State.place at h
  simp only at h
  split at h
  · have broken := Part.voidAssembly_countsKept n true s.part
    split at h
    · rename_i u hu
      cases h
      exact broken.trans (State.classify_countsKept hu)
    · split at h
      · cases h
      · cases h; exact broken
  · obtain ⟨u, hu, he⟩ := Option.map_eq_some_iff.mp h
    cases he
    exact State.classify_countsKept hu

theorem State.modeRead_countsKept {a : Addr} {s t : State} (h : s.modeRead a = some t) : Part.CountsKept s.part t.part := by
  unfold State.modeRead at h
  simp only at h
  split at h
  · cases h; exact .refl _
  · split at h
    · cases h; exact .refl _
    · split at h
      · cases h
      · split at h
        · cases h; exact Part.upstreamGrant_countsKept s.part
        · cases h

theorem State.arriveRead_countsKept (a : Addr) (s : State) : Part.CountsKept s.part (s.arriveRead a).1.part := by
  unfold State.arriveRead
  simp only
  split
  · exact fun h => { h with }
  · split
    · split <;> exact fun h => { h with }
    · split <;> exact .refl _
    · exact .refl _

theorem State.tryWork_countsKept {w : Work} {s t : State} {more : List Work} (h : s.tryWork w = some (t, more)) :
    Part.CountsKept s.part t.part := by
  cases w with
  | write a d dock => cases h; exact Part.arrive_countsKept a d dock s.part
  | gate a d dock => cases h; exact Part.gateWrite_countsKept a d dock s.part
  | read a =>
    have := State.arriveRead_countsKept a s
    rwa [Option.some.inj h] at this
  | police a d m =>
    simp only [State.tryWork, State.police] at h
    split at h
    · cases h
    · cases h; exact .refl _
  | place a d n m => exact State.place_countsKept h
  | modeRead a =>
    obtain ⟨u, hu, he⟩ := Option.map_eq_some_iff.mp h
    cases he
    exact State.modeRead_countsKept hu

theorem State.pump_countsKept (n : Nat) : ∀ s : State, Part.CountsKept s.part (s.pump n).part := by
  induction n with
  | zero => exact fun s => .refl _
  | succ n ih =>
    intro s
    unfold State.pump
    split
    · exact .refl _
    · split
      · exact .refl _
      · rename_i t more ht
        exact (State.tryWork_countsKept ht).trans (ih (t.setWaiting (more ++ _)))

theorem State.settle_countsKept (s : State) : Part.CountsKept s.part s.settle.part := by
  have pumped := State.pump_countsKept (8 * s.port.waiting.length) s
  unfold State.settle
  simp only
  split
  · exact pumped.trans (Part.grantPort_countsKept _)
  · exact pumped

theorem State.access_countsKept (w : Work) (s : State) : Part.CountsKept s.part (s.access w).part := by
  unfold State.access
  dsimp only
  split
  · exact State.settle_countsKept (s.setWaiting (s.port.waiting ++ [w]))
  · split <;> exact .refl _

theorem State.giveCommand_countsKept (a : Addr) (c : Command) (ps : List Word) (dock : Bool) (s : State) :
    Part.CountsKept s.part (s.giveCommand a c ps dock).part := by
  have fold (ds : List Word) : ∀ t : State,
      Part.CountsKept t.part (ds.foldl (fun s d => s.access (.write a d dock)) t).part := by
    induction ds with
    | nil => exact fun t => .refl _
    | cons d ds ih => exact fun t => (State.access_countsKept _ t).trans (ih _)
  exact fun h => fold _ { s with part := s.part.setDock dock } { h with }

end Sys2Proof.Machine

/-! # Proofs: the counts and tables through the bursts, the restarts and the mount, and at every step -/

namespace Sys2Proof.Machine

/-! ## The rows of bursts -/

theorem State.sheetBurst_countsKept (s : State) : Part.CountsKept s.part s.sheetBurst.part :=
  (Part.endBurst_countsKept s.part).trans (Part.takeSheetBurst_countsKept _ _)

theorem State.fieldBurst_countsKept (dock : Bool) (s : State) : Part.CountsKept s.part (s.fieldBurst dock).part := by
  unfold State.fieldBurst
  dsimp only
  split
  · exact fun h => Part.fieldsRead_countsKept _ _ _ _ { h with }
  · exact fun h => { h with }

theorem State.writeDirect_countsKept (s : State) : Part.CountsKept s.part s.writeDirect.part := by
  have answered (e : DirectEntry) (p : Part) : Part.CountsKept p
      (if e.kind = .answer then p.modStream .delivery (fun x => { x with reserved := none }) else p) :=
    .ite (fun h => { h with }) (.refl p)
  unfold State.writeDirect
  split
  · exact .refl _
  · exact fun h => Part.grant2_countsKept _ (answered _ _ { h with })

theorem State.writeCondition_countsKept (s : State) : Part.CountsKept s.part s.writeCondition.part := by
  unfold State.writeCondition
  split
  · exact .refl _
  · exact (Part.modSeg_countsKept _ _ s.part).trans (Part.grant2_countsKept _)

theorem Part.serveHead_countsKept (p : Part) : Part.CountsKept p p.serveHead := by
  have started (t : Taken) (q : Part) : Part.CountsKept q (q.startRecordBurst t) :=
    fun h => { Part.grant2_countsKept q h with }
  have taken (q : QueueEntry) (rest : List QueueEntry) (n k : Nat) : Part.CountsKept p (p.commitHead q rest n k) :=
    fun h => started _ _ (Part.slotConsumed_countsKept _ _ _ _ _ (Part.advanceStream_countsKept _ _ _ _ { h with }))
  unfold Part.serveHead
  split
  · exact .refl p
  · split
    · exact started _ p
    · split
      · exact taken _ _ _ _
      · exact .ite (.refl p) (Part.needSegment_countsKept _ p)

theorem State.writeRecordBurst_countsKept (s : State) : Part.CountsKept s.part s.writeRecordBurst.part := by
  have left (p : Part) : Part.CountsKept p p.headWritten := by
    unfold Part.headWritten
    split
    · exact .refl p
    · rename_i rest _
      have resumed : Part.CountsKept p (Part.resumeScanner { p with queue := rest }) :=
        fun h => Part.resumeScanner_countsKept _ { h with }
      exact .ite (.ite (resumed.trans (Part.closeRoute_countsKept _)) resumed) (.refl p)
  unfold State.writeRecordBurst
  split
  · exact (Part.endBurst_countsKept s.part).trans (left _)
  · exact .refl _

theorem Part.joinOwedRecords_countsKept (p : Part) : Part.CountsKept p p.joinOwedOutage.joinOwedRestart := by
  have outage : Part.CountsKept p p.joinOwedOutage := by
    unfold Part.joinOwedOutage
    split
    · exact .ite (fun h => Part.addRecord_countsKept _ _ _ _ { h with }) (.refl p)
    · exact .refl p
  have restart (q : Part) : Part.CountsKept q q.joinOwedRestart := by
    unfold Part.joinOwedRestart
    split
    · exact .ite (fun h => Part.addRecord_countsKept _ _ _ _ { h with }) (.refl q)
    · exact .refl q
  exact outage.trans (restart _)

theorem State.markNext_countsKept (s : State) : Part.CountsKept s.part s.markNext.part := by
  have marked := Part.takeNextSeg_countsKept s.part
  unfold State.markNext
  dsimp only
  split
  · split
    · exact fun h => { marked h with }
    · exact marked
  · exact marked

theorem State.blankBurst_countsKept (s : State) : Part.CountsKept s.part s.blankBurst.part := by
  have ended := Part.endBurst_countsKept s.part
  unfold State.blankBurst
  dsimp only
  split
  · exact fun h => Part.afterLongBurst_countsKept _ _ { ended h with }
  · split
    · exact .ite (fun h => Part.afterLongBurst_countsKept _ _ { ended h with })
        ((ended.trans (Part.segBlanked_countsKept _ _)).trans (Part.afterLongBurst_countsKept _ _))
    · exact ended
  · exact ended

theorem State.formatBurst_countsKept (s : State) : Part.CountsKept s.part s.formatBurst.part := by
  have ended := Part.endBurst_countsKept s.part
  unfold State.formatBurst
  dsimp only
  split
  · exact ended
  · split
    · exact fun h => Part.afterLongBurst_countsKept _ _ { ended h with }
    · exact fun h => Part.afterLongBurst_countsKept _ _ { ended h with }
    · exact (ended.trans (Part.formatComplete_countsKept _ _)).trans (Part.afterLongBurst_countsKept _ _)

theorem State.verifyBurst_countsKept (s : State) : Part.CountsKept s.part s.verifyBurst.part := by
  have ended := Part.endBurst_countsKept s.part
  unfold State.verifyBurst
  dsimp only
  split
  · exact ended
  · exact ((ended.trans (Part.verifySlot_countsKept _ _ _)).trans (Part.afterLongBurst_countsKept _ _)).trans
      (Part.passCheck_countsKept _)

theorem State.scrubBurst_countsKept (s : State) : Part.CountsKept s.part s.scrubBurst.part := by
  have ended := Part.endBurst_countsKept s.part
  unfold State.scrubBurst
  dsimp only
  split
  · exact ended
  · exact ended.trans (Part.scrubSlot_countsKept _ _ _)

theorem Part.dockFalls_countsKept (p : Part) : Part.CountsKept p p.dockFalls := by
  have low : Part.CountsKept p (p.setDock false) := fun h => { h with }
  exact .ite (low.trans (Part.leaveService_countsKept _)) low

/-! ## The route clock, the supplies and the restarts (chapter 10) -/

theorem Part.advanceClock_countsKept (p : Part) : Part.CountsKept p p.advanceClock := by
  have context (x : Ctx) (hx : x.countsInRange) : x.second.countsInRange := by
    have ⟨h1, h2, h3, h4, h5, _, h7, h8, h9⟩ := hx
    unfold Ctx.second
    split
    · exact ⟨h1, h2, h3, h4, h5, sat16_le _, h7, h8, h9⟩
    · exact hx
  have slot (y : Slot) (hy : y.countsInRange) : y.second.countsInRange := by
    unfold Slot.second
    split
    · exact ⟨hy.1, hy.2.1, sat32_le _⟩
    · exact hy
  have scanner (x : Scanner) (hx : TableOf 24 Slot.countsInRange x.slots) :
      TableOf 24 Slot.countsInRange x.second.slots := by
    unfold Scanner.second
    split
    · exact hx
    · exact hx.mapIdx fun _ y hy => by
        split
        · exact slot y hy
        · exact hy
  exact .ite (fun h => { h with }) fun h => { h with ctxs := h.ctxs.map context, slots := scanner _ h.slots }

theorem State.stop_countsKept (cut : Cut) (power : Power) (s : State) : Part.CountsKept s.part (s.stop cut power).part :=
  fun h => { h with }

/-- The counts and tables of a cold restart (R94, R118, R139, R162). -/
theorem Part.cold_countsSound : Part.cold.CountsSound where
  fairness := Nat.zero_le _
  errors := Nat.zero_le _
  refused := Nat.zero_le _
  owed := Nat.zero_le _
  ctxs := TableOf.replicate 8 Ctx.cold_inRange
  slots := TableOf.replicate 24 ⟨Nat.zero_le _, Nat.zero_le _, Nat.zero_le _⟩
  cons := TableOf.replicate 32 entryInRange_none
  claims := rfl
  causes := rfl

theorem Part.restartOperation_countsKept (p : Part) : Part.CountsKept p p.restartOperation := by
  unfold Part.restartOperation
  split
  · exact Part.terminateNow_countsKept p
  · exact .ite (((Part.abortClaim_countsKept _ p).trans (Part.vacateVerify_countsKept _)).trans
      (Part.scrubTurn_countsKept true _)) (Part.terminateNow_countsKept p)

theorem Part.restartShared_countsKept (dock : Bool) (p : Part) : Part.CountsKept p (p.restartShared dock) := by
  have channel : Part.CountsKept p (Part.restartChannel { p with power := .on }) :=
    fun h => { h with fairness := Nat.zero_le _, errors := Nat.zero_le _ }
  have scrub (q : Part) : Part.CountsKept q q.restartScrub := by
    unfold Part.restartScrub
    split
    · exact .refl q
    · exact fun h => { h with owed := sat8_le _ }
  have window (q : Part) : Part.CountsKept q q.restartWindow := .ite (fun h => { h with }) (.refl q)
  have mode (q : Part) : Part.CountsKept q (q.restartMode dock) :=
    .ite (fun h => Part.discardCollecting_countsKept _ { h with }) fun h => { h with }
  exact (((((channel.trans (Part.voidAssembly_countsKept _ _ _)).trans (scrub _)).trans (window _)).trans (mode _)).trans
    (Part.restartScanner_countsKept _)).trans (Part.restartOperation_countsKept _)

theorem Part.warmRestart_countsKept (dock : Bool) (p : Part) : Part.CountsKept p (p.warmRestart dock) := by
  have closed (q : Part) : Part.CountsKept q q.closeIntervals :=
    CountsKept.foldl (fun r c => Part.closeAtRestart_countsKept _ _ r c) _ q
  have charged (ended : Ended) (voided : Option (Stream × Nat × Nat)) (q : Part) :
      Part.CountsKept q (q.chargeRestart ended voided) :=
    fun h => Part.raise_countsKept rfl _ { Part.chargeOutage_countsKept (q.clock.now - q.backup.supplyFail) q.chargedComps q h with }
  exact (((Part.restartShared_countsKept dock p).trans (closed _)).trans (charged _ _ _)).trans
    (Part.rescheduleScrub_countsKept _)

theorem Part.coldRestart_countsSound (checkFails : Bool) (label : Option Label) (p : Part) :
    (p.coldRestart checkFails label).CountsSound := { Part.cold_countsSound with }

/-! ## The mount (R203 to R209) -/

theorem Part.completeNewest_countsKept (hs : List Found) (m : Memory) (p : Part) :
    Part.CountsKept p (p.completeNewest hs m).1 := by
  have answered (ans : Answer) (t n s : Nat) (q : Part) : Part.CountsKept q (q.mountAnswer ans t n s) :=
    fun h => Part.modSeg_countsKept _ _ _ (Part.slotConsumed_countsKept _ _ _ _ _
      { Part.advanceStream_countsKept .delivery n
          (recordChainField (recordWords ans.kind ans.body t (q.stream .delivery).running)) q h with })
  have spot (n s : Nat) : Part.CountsKept p (p.answerSpot n s).1 := by
    unfold Part.answerSpot
    split
    · exact .refl p
    · split
      · exact .refl p
      · exact Part.openSegment_countsKept _ p
  unfold Part.completeNewest
  split
  · exact .refl p
  · rename_i n s _
    have spotted := spot n s
    dsimp only
    split
    · split <;> rename_i q _ hq <;> rw [hq] at spotted
      · exact spotted.trans (answered _ _ _ _ _)
      · exact spotted
    · exact .refl p

/-- A consignment rebuilt from its records counts openings and dwells by bytes, and drops modulo 8 (R160). -/
theorem rebuildEntry_inRange (ack : List Word) (proofs : List (List Word × List Word)) :
    (rebuildEntry ack proofs).countsInRange := by
  have byte (w : Word) : lowByte w ≤ 65535 ∧ highByte w ≤ 65535 := by
    have := w.isLt
    unfold lowByte highByte
    omega
  refine ⟨(byte _).1, (byte _).2, ?_⟩
  show _ % 8 ≤ 65535
  omega

theorem Rebuild.take_inRange (bound : Option Nat) (x : Rebuild) (r : List Word × List Word)
    (hx : ∀ e ∈ x.entries, e.2.countsInRange) : ∀ e ∈ (x.take bound r).entries, e.2.countsInRange := by
  have either {c : Prop} [Decidable c] {y z : Rebuild} (hy : ∀ e ∈ y.entries, e.2.countsInRange)
      (hz : ∀ e ∈ z.entries, e.2.countsInRange) : ∀ e ∈ (if c then y else z).entries, e.2.countsInRange := by
    split
    · exact hy
    · exact hz
  exact either hx (either hx (either hx (either
    (either (List.forall_mem_cons.mpr ⟨rebuildEntry_inRange _ _, hx⟩) hx) hx)))

theorem rebuildCons_inRange (bound : Option Nat) (records : List (List Word)) :
    ∀ e ∈ rebuildCons bound records, e.2.countsInRange := by
  have fold (l : List (List Word × List Word)) : ∀ x : Rebuild, (∀ e ∈ x.entries, e.2.countsInRange) →
      ∀ e ∈ (l.foldl (Rebuild.take bound) x).entries, e.2.countsInRange := by
    induction l with
    | nil => exact fun x hx => hx
    | cons r l ih => exact fun x hx => ih _ (x.take_inRange bound r hx)
  exact fold _ Rebuild.start (by simp [Rebuild.start])

theorem Part.putCons_countsKept {es : List (Nat × Consignment)} (he : ∀ e ∈ es, e.2.countsInRange) (p : Part) :
    Part.CountsKept p (p.putCons es) := by
  have put (l : List (Option Consignment)) (hl : TableOf 32 entryInRange l) :
      TableOf 32 entryInRange (es.foldl (fun cs e => cs.set e.1 (some e.2)) l) := by
    induction es generalizing l with
    | nil => exact hl
    | cons e es ih =>
      obtain ⟨h, hs⟩ := List.forall_mem_cons.mp he
      exact ih hs _ (hl.set fun k hk => Option.some.inj hk ▸ h)
  exact fun h => { h with cons := put _ h.cons }

theorem Part.recoverRoute_countsKept (m : Memory) (p : Part) : Part.CountsKept p (p.recoverRoute m).1 := by
  have halted (r : Route) (c : Clock) : Part.CountsKept p { p with route := r, clock := c } := fun h => { h with }
  cases h : unfinishedRoute (p.recordsOf .event m) with
  | none => simp only [Part.recoverRoute, h]; exact .refl p
  | some found =>
    simp only [Part.recoverRoute, h]
    split
    · exact (halted _ _).trans (Part.putCons_countsKept (rebuildCons_inRange _ _) _)
    · exact .refl p

theorem Part.mountEnds_countsKept (p : Part) : Part.CountsKept p p.mountEnds := fun h =>
  Part.rescheduleScrub_countsKept _ (Part.raise_countsKept rfl _ (Part.raise_countsKept rfl _ { h with }))

theorem Part.mountStore_countsKept (m : Memory) (p : Part) : Part.CountsKept p (p.mountStore m).part := by
  unfold Part.mountStore
  extract_lets hs clock x store q
  have mounted : Part.CountsKept p q := fun h => { h with }
  have completed := mounted.trans (Part.completeNewest_countsKept hs x.mem q)
  generalize q.completeNewest hs x.mem = c at completed ⊢
  obtain ⟨r, answered⟩ := c
  have cleared : Part.CountsKept r r.clearDirect := fun h => { h with }
  have recovered := (completed.trans cleared).trans
    (Part.recoverRoute_countsKept (x.mem.writeAll r.directWrites) _)
  dsimp only
  generalize r.clearDirect.recoverRoute (x.mem.writeAll r.directWrites) = c at recovered ⊢
  obtain ⟨t, found⟩ := c
  have low : Part.CountsKept t (if t.store.pool.length ≤ 4 then t.raise causeStoreLow else t) :=
    .ite (Part.raise_countsKept rfl t) (.refl t)
  exact ((recovered.trans low).trans (Part.mountEnds_countsKept _)).trans (Part.addRecord_countsKept _ _ _ _)

theorem State.mount_countsKept (s : State) : Part.CountsKept s.part s.mount.part := by
  unfold State.mount
  split
  · exact Part.mountStore_countsKept s.mem s.part
  · exact fun h => Part.mountEnds_countsKept _ { h with }

/-! ## Every row -/

theorem State.countsKept_ite {c : Prop} [Decidable c] {s t : State} (h : Part.CountsKept s.part t.part) :
    Part.CountsKept s.part (if c then t else s).part := by
  split
  · exact h
  · exact .refl _

/-- A row that acts on the part, after which what can now happen happens. -/
theorem State.countsKept_settled {c : Prop} [Decidable c] {s t : State} (h : Part.CountsKept s.part t.part) :
    Part.CountsKept s.part (if c then t.settle else s).part :=
  State.countsKept_ite (h.trans (State.settle_countsKept t))

/-- Every row keeps the counts in range and the tables sized. -/
theorem exec_countsKept {i : Instr} {s t : State} (h : exec i s = .next t) : Part.CountsKept s.part t.part := by
  cases hg : s.given i with
  | some g =>
    obtain ⟨a, c, ps, dock⟩ := g
    rw [(State.exec_given hg).1] at h
    cases h
    exact State.giveCommand_countsKept a c ps dock s
  | none =>
    cases i <;> simp only [State.given, reduceCtorEq] at hg
    case upstreamWrite a d dock =>
      cases h
      exact fun hs => State.access_countsKept _ { s with part := s.part.setDock dock } { hs with }
    case upstreamRead a => cases h; exact State.access_countsKept _ s
    case routeLoadReadBurst => cases h; exact State.countsKept_settled (State.sheetBurst_countsKept s)
    case serviceEnterReadEnd dock => cases h; exact State.countsKept_settled (State.fieldBurst_countsKept dock s)
    case directWriteComplete => cases h; exact State.countsKept_settled (State.writeDirect_countsKept s)
    case conditionRewrite => cases h; exact State.countsKept_settled (State.writeCondition_countsKept s)
    case recordWriterWriteComplete => cases h; exact State.countsKept_settled (State.writeRecordBurst_countsKept s)
    case blankingMark => cases h; exact State.countsKept_settled (State.markNext_countsKept s)
    case blankingBurst => cases h; exact State.countsKept_settled (State.blankBurst_countsKept s)
    case formatBurst => cases h; exact State.countsKept_settled (State.formatBurst_countsKept s)
    case verifyBurst => cases h; exact State.countsKept_settled (State.verifyBurst_countsKept s)
    case scrubBurst => cases h; exact State.countsKept_settled (State.scrubBurst_countsKept s)
    case recordWriterServe => cases h; exact State.countsKept_settled (Part.serveHead_countsKept s.part)
    case collectionWindowExpiry => cases h; exact State.countsKept_settled (Part.windowExpires_countsKept s.part)
    case verifyStart => cases h; exact State.countsKept_settled (Part.slotsChanged_countsKept false s.part)
    case extractRecordAdd => cases h; exact State.countsKept_settled (Part.extractStep_countsKept s.part)
    case scrubStepDue => cases h; exact State.countsKept_settled (Part.stepDue_countsKept s.part)
    case routeEndRecordJoin => cases h; exact State.countsKept_ite (Part.joinRouteEnd_countsKept s.part)
    case outageRecordJoin => cases h; exact State.countsKept_ite (Part.joinOutage_countsKept s.part)
    case restartRecordsJoin => cases h; exact State.countsKept_ite (Part.joinOwedRecords_countsKept s.part)
    case withheldSummary =>
      cases h; exact State.countsKept_ite (.ite (Part.withheldSummary_countsKept s.part) (.refl _))
    case gapTimerExpiry c => cases h; exact State.countsKept_ite (.ite (Part.expireGapTimer_countsKept c s.part) (.refl _))
    case continuousExcursionDeadline i =>
      cases h; exact State.countsKept_ite (.ite (Part.expireDeadline_countsKept i s.part) (.refl _))
    case scanVisit lines => cases h; exact State.countsKept_ite (.ite (Part.scanVisit_countsKept lines s.part) (.refl _))
    case lineWatchSample lines =>
      cases h; exact State.countsKept_ite (.ite (Part.watchLines_countsKept lines s.part) (.refl _))
    case dwell => cases h; exact State.countsKept_ite (.ite (Part.dwellStep_countsKept s.part) (.refl _))
    case dockFall =>
      cases h
      split
      · exact (Part.dockFalls_countsKept s.part).trans (State.settle_countsKept { s with part := s.part.dockFalls })
      · exact fun hs => { hs with }
    case resetAssert cut => cases h; exact State.countsKept_ite (State.stop_countsKept cut .resetHeld s)
    case supplyFail cut =>
      cases h
      split
      · exact .refl _
      · exact fun hs => { hs with }
    case reset dock =>
      cases h
      exact State.countsKept_settled (t := { s with mem := s.restartMem, part := s.part.restartShared dock })
        (Part.restartShared_countsKept dock s.part)
    case warmRestart dock =>
      cases h
      exact State.countsKept_settled (t := { s with mem := s.restartMem, part := s.part.warmRestart dock })
        (Part.warmRestart_countsKept dock s.part)
    case coldRestart checkFails =>
      cases h; exact State.countsKept_ite fun _ => Part.coldRestart_countsSound _ _ s.part
    case mountEnd =>
      cases h
      exact State.countsKept_settled (t := { s with mem := s.mem.writeAll s.mount.writes, part := s.mount.part })
        s.mount_countsKept
    case routeClockAdvance => cases h; exact State.countsKept_ite (Part.advanceClock_countsKept s.part)
    case backupDomainLoss => cases h; exact State.countsKept_ite fun _ => { Part.cold_countsSound with }

/-- Settles O6: every row keeps the invariant, each unit by the saturation of its own counts. -/
theorem everyStepKeepsCountsInRange : Obligations.EveryStepKeepsCountsInRange := by
  intro s t hs h
  rw [← Part.countsSound_iff] at hs ⊢
  obtain rfl | ⟨c, rest, -, hx⟩ := step_cases h
  · exact hs
  · exact exec_countsKept hx hs

end Sys2Proof.Machine

/-! # Proofs: one step, every command, and the part at reset (R29, R36, R49, R54, R203) -/

namespace Sys2Proof.Machine

/-- Settles O1: it is the definition of `step` at a queue that is not empty. -/
theorem stepRunsTheFrontCommand : Obligations.StepRunsTheFrontCommand := by
  intro c rest s h
  unfold step
  rw [h]

/-- A row of the machine always answers with a next state (R36, R54). -/
theorem exec_answers (c : Instr) (s : State) : ∃ t, exec c s = .next t := by
  cases c <;> exact ⟨_, rfl⟩

/-- Settles O2: each row's meaning is a next state, and every row keeps the queue (`exec_keeps`). -/
theorem everyCommandAnswersNextAndKeepsTheQueue : Obligations.EveryCommandAnswersNextAndKeepsTheQueue := by
  intro c s
  obtain ⟨t, ht⟩ := exec_answers c s
  exact ⟨t, ht, (exec_keeps ht).1⟩

/-! ## The part at reset -/

theorem State.reset_countsSound : State.reset.part.CountsSound := { Part.cold_countsSound with causes := rfl }

/-- With no store extent, the pool is empty and so are the tables (R1, R15). -/
theorem State.reset_poolSound : State.reset.part.poolSound := Part.poolSound_of_noBatch Store.absent_sound rfl

theorem State.reset_oneLongOperation : State.reset.part.oneLongOperation := by
  refine ⟨?_, ?_, ?_, ?_, rfl⟩
  · exact fun h => nomatch h
  · exact fun h => nomatch h
  · exact fun v h => nomatch h
  · exact fun i h => nomatch h

/-- Settles O8: the five invariants by their lemmas, and the values by reading them off `Part.cold`. -/
theorem resetHoldsTheInvariantsAndColdValues : Obligations.ResetHoldsTheInvariantsAndColdValues := by
  obtain ⟨counts, sized, causes⟩ := Part.countsSound_iff.mp State.reset_countsSound
  refine ⟨⟨Memory.wf_nil, fun _ _ => rfl, State.reset_oneLongOperation, counts, sized, causes, State.reset_poolSound⟩, ?_⟩
  have ctxs (x : Ctx) (hx : x ∈ State.reset.part.ctxs) : x = Ctx.cold := List.eq_of_mem_replicate hx
  have slots (x : Slot) (hx : x ∈ State.reset.part.scan.slots) : x = Slot.cold := List.eq_of_mem_replicate hx
  have claims (c : Claim) (hc : c ∈ State.reset.part.claims) : c = Claim.free := List.eq_of_mem_replicate hc
  refine ⟨rfl, rfl, rfl, rfl, rfl, rfl, rfl, rfl, rfl, rfl, rfl, ?_, rfl, rfl, rfl, ?_, ?_, ?_, rfl, rfl, rfl, rfl, rfl, rfl, rfl⟩
  · exact fun x hx => ctxs x hx ▸ ⟨rfl, rfl, rfl, rfl, rfl⟩
  · exact fun x hx => slots x hx ▸ ⟨rfl, rfl, rfl, rfl⟩
  · exact fun k hk => List.eq_of_mem_replicate hk
  · exact fun c hc => claims c hc ▸ rfl

end Sys2Proof.Machine

/-! # Proofs: the arbiter's grants, and that every step leaves none to make (R46, R47; logs 7 and 8) -/

namespace Sys2Proof.Machine

/-! ## Which grant is made -/

/-- A part within the frame of a grant differs in its arbiter, its VERIFY and its claims. -/
theorem Part.GrantOnly.eq {p q : Part} (h : Part.GrantOnly p q) :
    q = { p with arb := q.arb, verify := q.verify, claims := q.claims } := by
  cases p
  cases q
  obtain ⟨⟩ := h
  simp_all

theorem Part.grantPort_of_mayGrant_false {p : Part} (h : p.mayGrant = false) : p.grantPort = p := by
  unfold Part.grantPort
  rw [h]
  rfl

theorem Part.grantPort_of_lowGrant_none {p : Part} (h : p.lowGrant = none) : p.grantPort = p := by
  unfold Part.grantPort
  rw [h]
  exact ite_self p

theorem Part.mayGrant_of {p : Part} (hr : p.running = true) (hb : p.arb.burst = none) (h2 : p.req2Waiting = false) :
    p.mayGrant = true := by
  simp [Part.mayGrant, hr, hb, h2]

/-- A grant that is not to the long operation fixes nothing. -/
theorem Part.grantPort_gives {p : Part} {b : Burst} (hm : p.mayGrant = true) (hl : p.lowGrant = some b)
    (hb : b ≠ .longOperation) : p.grantPort = p.giveBurst b := by
  unfold Part.grantPort
  rw [if_pos hm, hl]
  cases b with
  | longOperation => exact absurd rfl hb
  | _ => rfl

theorem Part.grantPort_long {p : Part} (hm : p.mayGrant = true) (hl : p.lowGrant = some .longOperation) :
    p.grantPort = (p.giveBurst .longOperation).fixGrant := by
  unfold Part.grantPort
  rw [if_pos hm, hl]

theorem Part.fixGrant_of_notVerifying {p : Part} (h : p.verifyRunning = false) : p.fixGrant = p := by
  unfold Part.fixGrant
  rw [h]
  rfl

/-- The bursts that read the route sheet (R46, R64, R83). -/
theorem Part.readBurst_cases {p : Part} {b : Burst} (h : p.readBurst = some b) : b = .sheetRead ∨ b = .fieldRead := by
  unfold Part.readBurst at h
  split at h
  · split at h
    · exact .inl (Option.some.inj h).symm
    · exact .inr (Option.some.inj h).symm
    · cases h
  · cases h

/-- The read's turn, when no long operation has a burst or the last grant was not a read (log 8). -/
theorem Part.lowGrant_read {p : Part} {b : Burst} (h : p.readBurst = some b)
    (ht : p.longHasBurst = false ∨ p.arb.lastWasRead = false) : p.lowGrant = some b := by
  unfold Part.lowGrant
  rw [h]
  rcases ht with ht | ht <;> simp [ht]

theorem Part.lowGrant_long {p : Part} (h : p.longHasBurst = true) (ht : p.readBurst = none ∨ p.arb.lastWasRead = true) :
    p.lowGrant = some .longOperation := by
  unfold Part.lowGrant
  cases hb : p.readBurst with
  | none => simp [h]
  | some b =>
    have turn : p.arb.lastWasRead = true := by simpa [hb] using ht
    simp [h, turn]

theorem Part.lowGrant_scrub {p : Part} (hb : p.readBurst = none) (hl : p.longHasBurst = false) (hs : p.scrub.step ≠ none) :
    p.lowGrant = some .scrub := by
  unfold Part.lowGrant
  simp [hb, hl, Option.isSome_iff_ne_none.mpr hs]

/-- Settles O12: the turn that `lowGrant` names, and the frame of a grant. -/
theorem arbiterGrantChangesOnlyItsOwn : Obligations.ArbiterGrantChangesOnlyItsOwn := by
  intro b p
  refine ⟨?_, ?_, ?_, ?_, (Part.grantPort_grantOnly p).eq⟩
  · rintro (hr | hb | h2 | hl)
    · exact Part.grantPort_of_mayGrant_false (by simp [Part.mayGrant, hr])
    · exact Part.grantPort_of_burst (Option.isSome_iff_ne_none.mpr hb)
    · exact Part.grantPort_of_req2Waiting h2
    · exact Part.grantPort_of_lowGrant_none hl
  · intro hr hb h2 hread ht
    have may := Part.mayGrant_of hr hb h2
    have low := Part.lowGrant_read hread ht
    rcases Part.readBurst_cases hread with rfl | rfl
    · exact Part.grantPort_gives may low (by decide)
    · exact Part.grantPort_gives may low (by decide)
  · intro hr hb h2 hread hlong hs
    exact Part.grantPort_gives (Part.mayGrant_of hr hb h2) (Part.lowGrant_scrub hread hlong hs) (by decide)
  · intro hr hb h2 hlong ht hv
    rw [Part.grantPort_long (Part.mayGrant_of hr hb h2) (Part.lowGrant_long hlong ht)]
    exact Part.fixGrant_of_notVerifying hv

/-! ## A grant leaves none to make -/

theorem Part.atRest_of_burst {p : Part} (h : p.arb.burst.isSome = true) : p.atRest = true := by
  simp [Part.atRest, h]

theorem Part.atRest_of_lowGrant_none {p : Part} (h : p.lowGrant = none) : p.atRest = true := by
  simp [Part.atRest, h]

theorem Part.atRest_of_mayGrant_false {p : Part} (hr : p.running = true) (h : p.mayGrant = false) : p.atRest = true := by
  cases hb : p.arb.burst with
  | some b => exact Part.atRest_of_burst (by simp [hb])
  | none => exact Part.atRest_of_req2Waiting (by simpa [Part.mayGrant, hr, hb] using h)

theorem Part.GrantOnly.running {p q : Part} (h : Part.GrantOnly p q) : q.running = p.running := by
  unfold Part.running
  rw [h.power, h.backup]

theorem Part.atRest_arbitrate {p : Part} (hr : p.running = true) : p.arbitrate.atRest = true := by
  unfold Part.arbitrate
  split
  · split
    · exact Part.atRest_of_lowGrant_none ‹_›
    · exact Part.atRest_of_burst rfl
  · exact Part.atRest_of_mayGrant_false hr (Bool.eq_false_iff.mpr ‹_›)

/-- The walk of a LOCATE leaves the arbiter as it is. -/
theorem Part.fixWalk_arb (fuel : Nat) : ∀ p : Part, (Part.fixWalk fuel p).arb = p.arb := by
  have walked (v : Verify) (number : BitVec 16) (p : Part) : (p.walkTo v number).arb = p.arb := by
    unfold Part.walkTo
    split <;> rfl
  induction fuel with
  | zero => exact fun _ => rfl
  | succ fuel ih =>
    intro p
    have either {c : Prop} [Decidable c] {q r : Part} (hq : q.arb = p.arb) (hr : r.arb = p.arb) :
        (if c then q else r).arb = p.arb := by
      split
      · exact hq
      · exact hr
    unfold Part.fixWalk
    split
    · rfl
    · exact either rfl (either ((ih _).trans (walked _ _ p)) (either rfl (either ((ih _).trans (walked _ _ p)) rfl)))

/-- The grant to a VERIFY stands, or the walk ended and the arbiter grants anew (R166). -/
theorem Part.atRest_fixGrant {p : Part} (hr : p.running = true) (hb : p.arb.burst.isSome = true) :
    p.fixGrant.atRest = true := by
  have walk := Part.fixWalk_arb 600 p
  have run : (Part.fixWalk 600 p).running = true := (Part.fixWalk_grantOnly 600 p).running.trans hr
  have stands (q : Part) (h : q.arb = p.arb) : q.atRest = true := Part.atRest_of_burst (by rw [h]; exact hb)
  unfold Part.fixGrant
  split
  · dsimp only
    split
    · exact stands _ walk
    · split
      · split
        · exact stands _ walk
        · exact stands _ walk
      · exact Part.atRest_arbitrate run
      · exact stands _ walk
  · exact Part.atRest_of_burst hb

/-- After a grant of the arbiter there is none that it could make (R46). -/
theorem Part.atRest_grantPort {p : Part} (hr : p.running = true) : p.grantPort.atRest = true := by
  unfold Part.grantPort
  split
  · split
    · exact Part.atRest_of_lowGrant_none ‹_›
    · exact Part.atRest_fixGrant hr rfl
    · exact Part.atRest_of_burst rfl
  · exact Part.atRest_of_mayGrant_false hr (Bool.eq_false_iff.mpr ‹_›)

theorem State.rested_of_stopped {s : State} (h : s.part.running = false) : s.Rested :=
  fun hr => absurd hr (by simp [h])

/-- The port serves what waits and the arbiter grants, so every row that settles leaves it at rest. -/
theorem State.settle_rested (s : State) : s.settle.Rested := by
  unfold State.settle
  dsimp only
  split
  · exact fun hr _ => Part.atRest_grantPort ((Part.grantPort_grantOnly _).running.symm.trans hr)
  · rename_i waits
    exact fun _ hw => absurd hw (by simpa using waits)

theorem State.access_rested (w : Work) (s : State) : (s.access w).Rested := by
  unfold State.access
  dsimp only
  split
  · exact State.settle_rested _
  · rename_i stopped
    have stopped : s.part.running = false := Bool.eq_false_iff.mpr stopped
    split <;> exact State.rested_of_stopped stopped

theorem State.giveCommand_rested (a : Addr) (c : Command) (ps : List Word) (dock : Bool) (s : State) :
    (s.giveCommand a c ps dock).Rested := by
  have fold (ds : List Word) : ∀ t : State, t.Rested → (ds.foldl (fun s d => s.access (.write a d dock)) t).Rested := by
    induction ds with
    | nil => exact fun t ht => ht
    | cons d ds ih => exact fun t _ => ih _ (State.access_rested _ t)
  exact fold (keyWord2 :: c.code :: ps) _ (State.access_rested (.write a keyWord1 dock) { s with part := s.part.setDock dock })

/-! ## Records that join the queue leave the arbiter at rest -/

/-- The head of the queue stays what it is: records join at its end alone. -/
def Part.QueueGrows (p q : Part) : Prop := p.queue <+: q.queue

theorem Part.QueueGrows.refl (p : Part) : Part.QueueGrows p p := List.prefix_rfl

theorem Part.QueueGrows.trans {p q r : Part} (h : Part.QueueGrows p q) (k : Part.QueueGrows q r) : Part.QueueGrows p r :=
  List.IsPrefix.trans h k

theorem Part.QueueGrows.ite {p q r : Part} {c : Prop} [Decidable c] (h : Part.QueueGrows p q) (k : Part.QueueGrows p r) :
    Part.QueueGrows p (if c then q else r) := by
  split
  · exact h
  · exact k

/-- The part is left at rest where only records have joined the queue: what the record writer can serve is its head. -/
theorem Part.EvidenceOnly.atRest {p q : Part} (h : Part.EvidenceOnly p q) (hq : Part.QueueGrows p q)
    (hp : p.atRest = true) : q.atRest = true := by
  have served : p.headServable = true → q.headServable = true := by
    obtain ⟨more, hmore⟩ := hq
    have same : ({ q with queue := p.queue } : Part).headServable = p.headServable := by
      unfold Part.headServable Part.formatRunning Part.stream Part.mayTake Part.hasExtent Part.blankFor
      simp only [h.retire, h.store, h.mode, h.asm]
    rw [← same]
    unfold Part.headServable
    dsimp only
    cases hqueue : p.queue with
    | nil => exact fun h => nomatch h
    | cons e rest =>
      rw [← hmore, hqueue]
      exact id
  have waits : p.req2Waiting = true → q.req2Waiting = true := by
    have owed : q.owedRewrite = p.owedRewrite := by
      unfold Part.owedRewrite Part.recordSegs Part.seg
      rw [h.store]
    unfold Part.req2Waiting
    rw [owed, h.store]
    simp only [Bool.or_eq_true]
    exact Or.imp_right served
  have low : q.lowGrant = p.lowGrant := by
    unfold Part.lowGrant Part.readBurst Part.longHasBurst
    rw [h.chan, h.retire, h.verify, h.arb, h.scrub]
  unfold Part.atRest at hp ⊢
  rw [h.arb, low]
  simp only [Bool.or_eq_true] at hp ⊢
  exact hp.imp_left (Or.imp_right waits)

theorem Part.addRecord_grows (st : Stream) (k : Kind) (body : List Word) (p : Part) :
    Part.QueueGrows p (p.addRecord st k body) := by
  have checked (q : Part) : Part.QueueGrows q q.freezeCheck := .ite (.refl q) (.refl q)
  exact Part.QueueGrows.trans (q := { p with queue := p.queue ++ [{ stream := st, kind := k, body := body, taken := none }] })
    (List.prefix_append _ _) (checked _)

theorem Part.addExposure_grows (c : Nat) (k : Kind) (body : List Word) (p : Part) :
    Part.QueueGrows p (p.addExposure c k body) := .ite (Part.addRecord_grows _ _ _ p) (.refl p)

theorem Part.expireDeadline_grows (i : Nat) (p : Part) : Part.QueueGrows p (p.expireDeadline i) := by
  unfold Part.expireDeadline
  split
  · exact .refl p
  · exact Part.addExposure_grows _ _ _ (p.modCons i _)

theorem Part.withheldSummary_grows (p : Part) :
    Part.QueueGrows p (match p.summaryComp with | some c => p.addSummary c | none => p) := by
  split
  · exact Part.addRecord_grows _ _ _ (p.modCtx _ _)
  · exact .refl p

theorem Part.visit_grows (s : Nat) (raw rescan audit : Bool) (p : Part) :
    Part.QueueGrows p (p.visit s raw rescan audit) := by
  have accepted (k : Kind) (body : List Word) : Part.QueueGrows p ((p.modSlot s (Slot.accept p.clock.now)).addRecord .event k body) :=
    Part.addRecord_grows _ _ _ (p.modSlot s _)
  have judged : Part.QueueGrows p (p.judgeVisit s raw) :=
    .ite (.ite (.ite (accepted _ _) (accepted _ _)) (.ite (accepted _ _) (accepted _ _))) (.refl p)
  have reported (body : List Word) (q : Part) : Part.QueueGrows q (q.addStatus body) :=
    .ite (Part.addRecord_grows _ _ _ q) (.refl q)
  exact .ite (judged.trans (reported _ _)) judged

theorem Part.dwellStep_grows (p : Part) : Part.QueueGrows p p.dwellStep := by
  have reported (q : Part) (k limit : Nat) : Part.QueueGrows q (q.reportDwell k limit) :=
    Part.addRecord_grows .event .dwell _ (q.modSlot k _)
  unfold Part.dwellStep
  split
  · exact .refl p
  · split
    · exact .refl p
    · exact reported { p with scan := { p.scan with dwellTest := some _ } } _ _

/-! ## Every step -/

/-- A row that acts on the chip alone, and leaves it at rest. -/
theorem State.rested_ite_part {s : State} {q : Part} (h : s.part.atRest = true → q.atRest = true) (hs : s.Rested) :
    (if s.part.running then { s with part := q } else s).Rested := by
  split
  · exact fun _ hw => h (hs ‹_› hw)
  · exact hs

theorem State.rested_ite {c : Prop} [Decidable c] {s t : State} (ht : t.Rested) (hs : s.Rested) :
    (if c then t else s).Rested := by
  split
  · exact ht
  · exact hs

theorem Part.atRest_ite {p q : Part} {c : Prop} [Decidable c] (h : p.atRest = true → q.atRest = true) :
    p.atRest = true → (if c then q else p).atRest = true := by
  split
  · exact h
  · exact id

theorem Part.addRecord_atRest (st : Stream) (k : Kind) (body : List Word) {p : Part} (h : p.atRest = true) :
    (p.addRecord st k body).atRest = true :=
  (Part.addRecord_only st k body p).atRest (Part.addRecord_grows st k body p) h

theorem Part.joinRouteEnd_atRest {p : Part} (h : p.atRest = true) : p.joinRouteEnd.atRest = true := by
  unfold Part.joinRouteEnd
  split
  · exact h
  · exact Part.atRest_ite (Part.addRecord_atRest _ _ _ (p := { p with route := { p.route with endRecord := none } })) h

theorem Part.joinOutage_atRest {p : Part} (h : p.atRest = true) : p.joinOutage.atRest = true := by
  unfold Part.joinOutage
  split
  · exact h
  · exact Part.atRest_ite (Part.addRecord_atRest _ _ _ (p := { p with route := { p.route with outageRecord := none } })) h

theorem Part.joinOwedRecords_atRest {p : Part} (h : p.atRest = true) : p.joinOwedOutage.joinOwedRestart.atRest = true := by
  have outage : p.joinOwedOutage.atRest = true := by
    unfold Part.joinOwedOutage
    split
    · exact Part.atRest_ite (Part.addRecord_atRest _ _ _ (p := { p with backup := { p.backup with outage := none } })) h
    · exact h
  generalize p.joinOwedOutage = q at outage
  unfold Part.joinOwedRestart
  split
  · exact Part.atRest_ite (Part.addRecord_atRest _ _ _ (p := { q with backup := { q.backup with restart := none } })) outage
  · exact outage

theorem Part.scanVisit_atRest (lines : BitVec 24) {p : Part} (h : p.atRest = true) : (p.scanVisit lines).atRest = true := by
  have visited (q : Part) (s : Nat) (raw rescan audit : Bool) (hq : q.atRest = true) : (q.visit s raw rescan audit).atRest = true :=
    (Part.visit_only s raw rescan audit q).atRest (Part.visit_grows s raw rescan audit q) hq
  unfold Part.scanVisit
  dsimp only
  split <;> exact visited _ _ _ _ _ h

theorem Part.advanceClock_atRest {p : Part} (h : p.atRest = true) : p.advanceClock.atRest = true := by
  unfold Part.advanceClock
  dsimp only
  split <;> exact h

theorem Part.advanceClock_running (p : Part) : p.advanceClock.running = p.running := by
  unfold Part.advanceClock
  dsimp only
  split <;> rfl

/-- Every row leaves the arbiter at rest while no access waits (R46). -/
theorem exec_rested {i : Instr} {s t : State} (h : exec i s = .next t) (hs : s.Rested) : t.Rested := by
  cases hg : s.given i with
  | some g =>
    obtain ⟨a, c, ps, dock⟩ := g
    rw [(State.exec_given hg).1] at h
    cases h
    exact State.giveCommand_rested a c ps dock s
  | none =>
    cases i <;> simp only [State.given, reduceCtorEq] at hg
    case upstreamWrite | upstreamRead => cases h; exact State.access_rested _ _
    case routeLoadReadBurst | serviceEnterReadEnd | directWriteComplete | conditionRewrite | recordWriterServe
        | recordWriterWriteComplete | collectionWindowExpiry | blankingMark | blankingBurst | formatBurst | verifyStart
        | verifyBurst | extractRecordAdd | scrubStepDue | scrubBurst | reset | warmRestart | mountEnd =>
      cases h; exact State.rested_ite (State.settle_rested _) hs
    case routeEndRecordJoin => cases h; exact State.rested_ite_part Part.joinRouteEnd_atRest hs
    case outageRecordJoin => cases h; exact State.rested_ite_part Part.joinOutage_atRest hs
    case restartRecordsJoin => cases h; exact State.rested_ite_part Part.joinOwedRecords_atRest hs
    case withheldSummary =>
      cases h
      exact State.rested_ite_part (Part.atRest_ite
        ((Part.withheldSummary_only s.part).atRest (Part.withheldSummary_grows s.part))) hs
    case gapTimerExpiry c =>
      cases h
      exact State.rested_ite_part (Part.atRest_ite
        ((Part.expireGapTimer_only c s.part).atRest (Part.addExposure_grows _ _ _ (s.part.modCtx c _)))) hs
    case continuousExcursionDeadline i =>
      cases h
      exact State.rested_ite_part (Part.atRest_ite
        ((Part.expireDeadline_only i s.part).atRest (Part.expireDeadline_grows i s.part))) hs
    case scanVisit lines => cases h; exact State.rested_ite_part (Part.atRest_ite (Part.scanVisit_atRest lines)) hs
    case lineWatchSample lines => cases h; exact State.rested_ite_part (Part.atRest_ite fun hp => hp) hs
    case dwell =>
      cases h
      exact State.rested_ite_part (Part.atRest_ite
        ((Part.dwellStep_only s.part).atRest (Part.dwellStep_grows s.part))) hs
    case dockFall =>
      cases h
      split
      · exact State.settle_rested _
      · exact State.rested_of_stopped (Bool.eq_false_iff.mpr ‹_›)
    case resetAssert => cases h; exact State.rested_ite (State.rested_of_stopped rfl) hs
    case supplyFail =>
      cases h
      split
      · exact hs
      · exact State.rested_of_stopped rfl
    case coldRestart => cases h; exact State.rested_ite (State.rested_of_stopped rfl) hs
    case routeClockAdvance =>
      cases h
      exact State.rested_ite
        (fun hr hw => Part.advanceClock_atRest (hs ((Part.advanceClock_running s.part).symm.trans hr) hw)) hs
    case backupDomainLoss => cases h; exact State.rested_ite (State.rested_of_stopped rfl) hs

/-- Settles O4: a row that settles ends with a grant, and one that does not changes nothing the arbiter looks at but the end
of the record writer queue. -/
theorem everyStepLeavesTheArbiterAtRest : Obligations.EveryStepLeavesTheArbiterAtRest := by
  intro s t hs h
  obtain rfl | ⟨c, rest, -, hx⟩ := step_cases h
  · exact hs
  · exact exec_rested hx hs

end Sys2Proof.Machine

/-! # Proofs: a write that is placed at once, and what is forwarded to memory (R30, R31, R32; log 6) -/

namespace Sys2Proof.Machine

/-! ## The arbiter stays at rest -/

/-- A write that meets the gate changes nothing that the arbiter looks at. -/
theorem Part.met_atRest (dock : Bool) (p : Part) : (p.met dock).atRest = p.atRest := by
  refine Part.atRest_chan p _ _ ?_
  cases p.chan.running <;> rfl

/-- Nor does the grant of the port to the write: the fairness count decides no grant to requester 3 or 4 (R46, R48). -/
theorem Part.met_granted_atRest (dock : Bool) (p : Part) : (p.met dock).granted.atRest = p.atRest := p.met_atRest dock

theorem Part.met_portFree {p : Part} (hb : p.arb.burst = none) (hf : p.arb.fairness < 8 ∨ p.req2Waiting = false)
    (dock : Bool) : (p.met dock).portFree = true := Part.portFree_of (p := p) hb hf

/-- A write that breaks nothing and is placed at once makes its change, and the arbiter grants what the change lets it grant. -/
theorem State.upstreamWrite_changes {s : State} {a : Addr} {d : Word} {dock : Bool} {m : Memory} {q : Part} (hs : s.Ready)
    (hd : d ≠ 0x5AC3) (hb : (s.part.met dock).breaks a = false)
    (hu : ∀ port, State.classify a d s.part.clock.now none { s with port := port, part := s.part.met dock }
      = some { s with port := port, mem := m, part := q }) :
    exec (.upstreamWrite a d dock) s = .next { s with mem := m, part := q.grantPort } := by
  obtain ⟨hquiet, hg, -⟩ := hs
  rw [State.upstreamWrite_placed hquiet hg hd hb (hu _)]
  obtain ⟨pending, mem, ⟨waiting, readData⟩, part⟩ := s
  obtain rfl : waiting = [] := hquiet.2
  rfl

/-- With the arbiter still at rest after it, the write makes its change and no other. -/
theorem State.upstreamWrite_rests {s : State} {a : Addr} {d : Word} {dock : Bool} {m : Memory} {q : Part} (hs : s.Ready)
    (hd : d ≠ 0x5AC3) (hb : (s.part.met dock).breaks a = false) (hq : q.atRest = true)
    (hu : ∀ port, State.classify a d s.part.clock.now none { s with port := port, part := s.part.met dock }
      = some { s with port := port, mem := m, part := q }) :
    exec (.upstreamWrite a d dock) s = .next { s with mem := m, part := q } := by
  rw [State.upstreamWrite_changes hs hd hb hu, Part.grantPort_atRest hq]

/-! ## Writes in segment 0 -/

theorem State.classify_sheet {s : State} {a : Addr} (hm : s.part.mode = .guarded ∨ s.part.mode = .service)
    (hlow : 16 ≤ a.toNat) (hhigh : a.toNat < 2048) (hr : s.part.route.state = .idle) (d : Word) (t : Nat) :
    s.classify a d t none = (s.forward a d).map (fun t => { t with part := t.part.disturbLoad }) := by
  have h0 : addrSeg a.toNat = 0 := by
    unfold addrSeg
    omega
  have h16 : ¬ a.toNat < 16 := by omega
  unfold State.classify
  rcases hm with hm | hm <;>
    simp only [Option.getD_none, hm, h0, h16, hhigh, hr, ne_eq, not_true_eq_false, if_true, if_false]

/-- Settles O16: what is forwarded is placed at once, and the arbiter looks at neither the fairness count nor the route. -/
theorem forwardedWritesReachMemory : Obligations.ForwardedWritesReachMemory := by
  refine ⟨?_, ?_⟩
  · intro a d dock s hs ha hd hb hf p plain sheet
    have unbroken : (p.met dock).breaks a = false := Part.breaks_of_noAsm (p := p.met dock) ha a
    have free : (p.met dock).portFree = true := Part.met_portFree hb hf dock
    have rest : (p.met dock).granted.atRest = true := (Part.met_granted_atRest dock p).trans hs.2.2
    have forwarded (port : Port) := State.forward_eq (s := { s with port := port, part := p.met dock }) free a d
    refine ⟨fun hplain => ?_, fun ⟨hm, hlow, hhigh, hr⟩ => ?_⟩
    · refine State.upstreamWrite_rests hs hd unbroken rest fun port => ?_
      rcases hplain with hm | ⟨hm, hlow, hhigh⟩
      · exact (State.classify_unformatted (s := { s with port := port, part := p.met dock }) (released := none) hm a d _).trans
          (forwarded port)
      · exact (State.classify_segment0 (s := { s with port := port, part := p.met dock }) hm hlow hhigh d _).trans
          (forwarded port)
    · have disturbed : (p.met dock).granted.disturbLoad.atRest = true := rest
      refine State.upstreamWrite_rests hs hd unbroken disturbed fun port => ?_
      exact (State.classify_sheet (s := { s with port := port, part := p.met dock }) hm hlow hhigh hr d _).trans
        (by rw [forwarded port]; rfl)
  · intro m a b d hm
    exact ⟨Memory.wf_write hm a d, Memory.read_write_same hm a d, fun hne => Memory.read_write_ne hne d m⟩

end Sys2Proof.Machine

/-! # Proofs: what the policer decides for a write into a record segment (R33, R34, R36) -/

namespace Sys2Proof.Machine

/-! ## Word 0 -/

theorem marked_iff (w : Word) : marked w = true ↔ w.toNat / 256 = 0xC5 := by
  unfold marked
  rw [beq_iff_eq, ← BitVec.toNat_inj, BitVec.toNat_ushiftRight, Nat.shiftRight_eq_div_pow]
  exact Iff.rfl

theorem Kind.headerWord_of_ofHeader {d : Word} {k : Kind} (h : Kind.ofHeader d = some k) : d = k.headerWord := by
  have found := List.find?_some h
  exact (beq_iff_eq.mp found).symm

theorem Kind.marked_headerWord (k : Kind) : marked k.headerWord = true := by
  cases k <;> decide

/-- The kinds that a processor appends to the DELIVERY stream are its three requests (R6, R34). -/
theorem Kind.processorStream_delivery (k : Kind) :
    k.processorStream = some .delivery ↔ k ∈ [Kind.load, .delivery, .unload] := by
  cases k <;> decide

theorem Kind.processorStream_sample (k : Kind) : k.processorStream = some .sample ↔ k = .sample := by
  cases k <;> decide

theorem Part.checkWord0_unmarked {d : Word} (h : marked d = false) (st : Stream) (s : Nat) (p : Part) :
    p.checkWord0 st s d = .error .badHeader := by
  unfold Part.checkWord0
  rw [h]
  rfl

/-- A marked word 0 whose kind the stream's processor does not write. -/
theorem Part.checkWord0_wrongStream {d : Word} {st : Stream} (hm : marked d = true)
    (h : ∀ k : Kind, k.processorStream = some st → d ≠ k.headerWord) (s : Nat) (p : Part) :
    p.checkWord0 st s d = .error .wrongStream := by
  unfold Part.checkWord0
  rw [if_neg (by simp [hm])]
  cases hk : Kind.ofHeader d with
  | none => rfl
  | some k =>
    have other : k.processorStream ≠ some st := fun hp => h k hp (Kind.headerWord_of_ofHeader hk)
    exact if_pos (by simpa using other)

/-- A word 0 of a kind that the stream's processor writes: what is left is the room for an answer (R35). -/
theorem Part.checkWord0_headerWord {k : Kind} {st : Stream} (h : k.processorStream = some st) (s : Nat) (p : Part) :
    p.checkWord0 st s k.headerWord
      = if st == .delivery && !p.roomForAnswer s then .error .noRoomForAnswer else .ok k := by
  unfold Part.checkWord0
  rw [if_neg (by simp [Kind.marked_headerWord]), Kind.ofHeader_headerWord]
  exact if_neg (by simp [h])

theorem Part.roomForAnswer_below {s : Nat} (h : s < 1023) (p : Part) : p.roomForAnswer s = true := by
  have : s ≤ 1022 := by omega
  simp [Part.roomForAnswer, this]

theorem Part.roomForAnswer_last (p : Part) : p.roomForAnswer 1023 = p.mayTake .delivery := by
  simp [Part.roomForAnswer]

/-! ## The tests of R33, in order -/

/-- The stream's append slot is slot `k` of segment `n`. -/
def Part.appendsAt (p : Part) (n k : Nat) (st : Stream) : Bool :=
  (p.stream st).openSeg == some n && (p.stream st).append == some k

theorem Part.appendsAt_iff {p : Part} {n k : Nat} {st : Stream} :
    p.appendsAt n k st = true ↔ (p.store.streams.get st).openSeg = some n ∧ (p.store.streams.get st).append = some k := by
  unfold Part.appendsAt Part.stream
  rw [Bool.and_eq_true, beq_iff_eq, beq_iff_eq]

theorem Part.appendStream_sample {p : Part} {n k : Nat} (h : p.appendsAt n k .sample = true) :
    p.appendStream n k = some .sample := List.find?_cons_of_pos h

theorem Part.appendStream_delivery {p : Part} {n k : Nat} (hs : p.appendsAt n k .sample = false)
    (hd : p.appendsAt n k .delivery = true) : p.appendStream n k = some .delivery :=
  (List.find?_cons_of_neg (by simp [← Part.appendsAt.eq_def, hs])).trans (List.find?_cons_of_pos hd)

theorem Part.appendStream_none {p : Part} {n k : Nat} (hs : p.appendsAt n k .sample = false)
    (hd : p.appendsAt n k .delivery = false) : p.appendStream n k = none :=
  (List.find?_cons_of_neg (by simp [← Part.appendsAt.eq_def, hs])).trans
    (List.find?_cons_of_neg (by simp [← Part.appendsAt.eq_def, hd]))

theorem Part.placeWrite_shut {p : Part} {a : Addr} (h : p.shut (addrSeg a.toNat) = true) (d : Word) :
    p.placeWrite a d = .error .retiring := if_pos h

theorem Part.placeWrite_committed {p : Part} {a : Addr} {e : SegEntry} (h : p.shut (addrSeg a.toNat) = false)
    (he : p.seg (addrSeg a.toNat) = some e) (hc : e.committed (addrSlot a.toNat) = true) (d : Word) :
    p.placeWrite a d = .error .committed := by
  unfold Part.placeWrite
  simp only [h, he, hc, Bool.false_eq_true, if_false, if_true]

/-- The slot is not committed: the write is one for an append slot, or for none (tests 4 to 6). -/
structure Part.OpenTo (p : Part) (a : Addr) : Prop where
  shut : p.shut (addrSeg a.toNat) = false
  seg : ∃ e, p.seg (addrSeg a.toNat) = some e ∧ e.committed (addrSlot a.toNat) = false

theorem Part.OpenTo.noSlot {p : Part} {a : Addr} (h : p.OpenTo a)
    (hn : (if addrWord a.toNat == 0 then p.appendStream (addrSeg a.toNat) (addrSlot a.toNat) else none) = none) (d : Word) :
    p.placeWrite a d = if addrWord a.toNat == 0 && p.stalledKind d then .error .storeFull else .error .notAppendSlot := by
  obtain ⟨hs, e, he, hc⟩ := h
  unfold Part.placeWrite
  simp only [hs, he, hc, hn, Bool.false_eq_true, if_false]

theorem Part.OpenTo.slot {p : Part} {a : Addr} {st : Stream} (h : p.OpenTo a) (h0 : addrWord a.toNat = 0)
    (hst : p.appendStream (addrSeg a.toNat) (addrSlot a.toNat) = some st) (d : Word) :
    p.placeWrite a d = (p.checkWord0 st (addrSlot a.toNat) d).map
      (fun k => Assembly.begin (addrSeg a.toNat) (addrSlot a.toNat) st k d) := by
  obtain ⟨hs, e, he, hc⟩ := h
  unfold Part.placeWrite
  simp only [hs, he, hc, h0, hst, Bool.false_eq_true, if_false, beq_self_eq_true, if_true]
  cases p.checkWord0 st (addrSlot a.toNat) d with
  | error c => rfl
  | ok k => rfl

theorem Part.OpenTo.refuses {p : Part} {a : Addr} {st : Stream} {d : Word} {c : RefusalCause} (h : p.OpenTo a)
    (h0 : addrWord a.toNat = 0) (hst : p.appendStream (addrSeg a.toNat) (addrSlot a.toNat) = some st)
    (hc : p.checkWord0 st (addrSlot a.toNat) d = .error c) : p.placeWrite a d = .error c := by
  rw [h.slot h0 hst, hc]
  rfl

theorem Part.OpenTo.begins {p : Part} {a : Addr} {st : Stream} {d : Word} {k : Kind} (h : p.OpenTo a)
    (h0 : addrWord a.toNat = 0) (hst : p.appendStream (addrSeg a.toNat) (addrSlot a.toNat) = some st)
    (hc : p.checkWord0 st (addrSlot a.toNat) d = .ok k) :
    p.placeWrite a d = .ok (Assembly.begin (addrSeg a.toNat) (addrSlot a.toNat) st k d) := by
  rw [h.slot h0 hst, hc]
  rfl

theorem SegEntry.committed_iff (e : SegEntry) (k : Nat) :
    e.committed k = true ↔ (e.state = .opened ∨ e.state = .closed ∨ e.state = .faulted) ∧ k ≤ e.count.getD 0 := by
  unfold SegEntry.committed
  simp only [Bool.and_eq_true, Bool.or_eq_true, beq_iff_eq, decide_eq_true_eq, or_assoc]

theorem Part.seg_pos {p : Part} {n : Nat} (h : 1 ≤ n) : p.seg n = p.store.segs[n - 1]? := if_neg (by omega)

theorem Part.shut_iff {p : Part} {n : Nat} {e : SegEntry} (h : p.seg n = some e) :
    p.shut n = true ↔ p.retire.state = .formatRunning ∨ e.state = .retiring := by
  unfold Part.shut
  rw [h, Bool.or_eq_true, Part.formatRunning_iff, beq_iff_eq]

theorem Part.openTo_of {p : Part} {a : Addr} {e : SegEntry} (he : p.seg (addrSeg a.toNat) = some e)
    (hs : ¬(p.retire.state = .formatRunning ∨ e.state = .retiring))
    (hc : ¬((e.state = .opened ∨ e.state = .closed ∨ e.state = .faulted) ∧ addrSlot a.toNat ≤ e.count.getD 0)) :
    p.OpenTo a :=
  ⟨Bool.eq_false_iff.mpr (mt (Part.shut_iff he).mp hs),
    e, he, Bool.eq_false_iff.mpr (mt (SegEntry.committed_iff e _).mp hc)⟩

end Sys2Proof.Machine

/-! # Proofs: refused writes are logged with their cause (R31 to R34, R36) -/

namespace Sys2Proof.Machine

/-! ## A write that is refused -/

theorem Part.refuseWrite_atRest (a : Addr) (c : RefusalCause) (p : Part) : (p.refuseWrite a c).atRest = p.atRest := rfl

/-- A write that is refused where it is placed, with no record under assembly: the refusal is logged (R36). -/
theorem State.upstreamWrite_refused {s : State} {a : Addr} {d : Word} {dock : Bool} {c : RefusalCause} (hs : s.Ready)
    (ha : s.part.asm = none) (hd : d ≠ 0x5AC3)
    (hu : ∀ v : State, v.part = s.part.met dock →
      v.classify a d s.part.clock.now none = some { v with part := v.part.refuseWrite a c }) :
    exec (.upstreamWrite a d dock) s = .next { s with part := { s.part.met dock with
      attention := s.part.attention ||| causeWriteRefused
      refusals := { first := some (match s.part.refusals.first with | some f => f | none => (a, c)),
                    count := min 65535 (s.part.refusals.count + 1) } } } := by
  have rest : ((s.part.met dock).refuseWrite a c).atRest = true :=
    (Part.refuseWrite_atRest a c _).trans ((Part.met_atRest dock s.part).trans hs.2.2)
  have refused := State.upstreamWrite_rests (m := s.mem) hs hd (Part.breaks_of_noAsm (p := s.part.met dock) ha a)
    rest fun port => hu { s with port := port, part := s.part.met dock } rfl
  rw [refused, Part.refuseWrite_eq]
  rfl

theorem State.classify_foreign {s : State} (hm : s.part.mode = .foreign) (a : Addr) (d : Word) (t : Nat) :
    s.classify a d t none = some { s with part := s.part.refuseWrite a .foreignStore } := by
  unfold State.classify
  simp only [Option.getD_none, hm]

theorem State.classify_locked {s : State} {a : Addr} (hm : s.part.mode = .guarded ∨ s.part.mode = .service)
    (hlow : 16 ≤ a.toNat) (hhigh : a.toNat < 2048) (hr : s.part.route.state ≠ .idle) (d : Word) (t : Nat) :
    s.classify a d t none = some { s with part := s.part.refuseWrite a .routeLocked } := by
  have h0 : addrSeg a.toNat = 0 := by
    unfold addrSeg
    omega
  have h16 : ¬ a.toNat < 16 := by omega
  unfold State.classify
  rcases hm with hm | hm <;> simp only [Option.getD_none, hm, h0, h16, hhigh, hr, ne_eq, not_false_eq_true, if_true, if_false]

theorem State.classify_outOfStore {s : State} {a : Addr} (hm : s.part.mode = .guarded ∨ s.part.mode = .service)
    (h1 : 1 ≤ addrSeg a.toNat) (hn : s.part.store.nSeg ≤ addrSeg a.toNat) (d : Word) (t : Nat) :
    s.classify a d t none = some { s with part := s.part.refuseWrite a .outOfStore } := by
  have h0 : addrSeg a.toNat ≠ 0 := by omega
  unfold State.classify
  rcases hm with hm | hm <;> simp only [Option.getD_none, hm, if_neg h0, if_pos hn]

/-! ## The conditions as the statement writes them -/

/-- The kind of a word 0 and whether its stream is stalled (test 5 of R33). -/
theorem Part.stalledKind_eq (p : Part) (d : Word) :
    p.stalledKind d = (match Kind.ofHeader d with
      | some .sample => p.store.streams.sample.stalled
      | some .load => p.store.streams.delivery.stalled
      | some .delivery => p.store.streams.delivery.stalled
      | some .unload => p.store.streams.delivery.stalled
      | _ => false) := by
  unfold Part.stalledKind
  cases Kind.ofHeader d with
  | none => rfl
  | some k => cases k <;> rfl

/-- With no BLANK segment no stream may take one. -/
theorem Part.mayTake_of_noPool {p : Part} (h : p.store.pool = []) (st : Stream) : p.mayTake st = false :=
  Bool.eq_false_iff.mpr fun ht => Part.mayTake_pool ht h

/-- Tests 3 to 6 of R33 and the checks of R34, by the cause they give for a write into an uncommitted slot: `app st` says that
the write is word 0 of the append slot of stream `st`. -/
theorem Part.OpenTo.cause {p : Part} {a : Addr} {d : Word} {k : Kind} {c : RefusalCause} (h : p.OpenTo a)
    (app : Stream → Bool)
    (happ : ∀ st, app st = (addrWord a.toNat == 0 && p.appendsAt (addrSeg a.toNat) (addrSlot a.toNat) st))
    (hc : (c = .storeFull ∧ app .sample = false ∧ app .delivery = false ∧ addrWord a.toNat = 0 ∧ p.stalledKind d = true)
      ∨ (c = .notAppendSlot ∧ app .sample = false ∧ app .delivery = false
          ∧ (addrWord a.toNat ≠ 0 ∨ p.stalledKind d = false))
      ∨ (c = .badHeader ∧ (app .sample = true ∨ app .delivery = true) ∧ marked d = false)
      ∨ (c = .wrongStream ∧ marked d = true ∧ ((app .sample = true ∧ d ≠ 0xC501)
          ∨ (app .sample = false ∧ app .delivery = true ∧ d ∉ [0xC502, 0xC503, 0xC504])))
      ∨ (c = .noRoomForAnswer ∧ app .sample = false ∧ app .delivery = true ∧ k ∈ [Kind.load, .delivery, .unload]
          ∧ d = k.headerWord ∧ addrSlot a.toNat = 1023 ∧ p.store.pool = [])) :
    p.placeWrite a d = .error c := by
  have word0 {st : Stream} (hst : app st = true) :
      addrWord a.toNat = 0 ∧ p.appendsAt (addrSeg a.toNat) (addrSlot a.toNat) st = true := by
    simpa using (happ st).symm.trans hst
  have other {st : Stream} (h0 : addrWord a.toNat = 0) (hst : app st = false) :
      p.appendsAt (addrSeg a.toNat) (addrSlot a.toNat) st = false := by
    simpa [h0] using (happ st).symm.trans hst
  have noSlot (hs : app .sample = false) (hd : app .delivery = false) :
      (if addrWord a.toNat == 0 then p.appendStream (addrSeg a.toNat) (addrSlot a.toNat) else none) = none := by
    split
    · rename_i h0
      have h0 := beq_iff_eq.mp h0
      exact Part.appendStream_none (other h0 hs) (other h0 hd)
    · rfl
  have sample (hs : app .sample = true) : addrWord a.toNat = 0
      ∧ p.appendStream (addrSeg a.toNat) (addrSlot a.toNat) = some .sample :=
    ⟨(word0 hs).1, Part.appendStream_sample (word0 hs).2⟩
  have delivery (hs : app .sample = false) (hd : app .delivery = true) : addrWord a.toNat = 0
      ∧ p.appendStream (addrSeg a.toNat) (addrSlot a.toNat) = some .delivery :=
    ⟨(word0 hd).1, Part.appendStream_delivery (other (word0 hd).1 hs) (word0 hd).2⟩
  rcases hc with ⟨rfl, hs, hd, h0, hst⟩ | ⟨rfl, hs, hd, hst⟩ | ⟨rfl, hsd, hm⟩ | ⟨rfl, hm, hsd⟩ | ⟨rfl, hs, hd, hk, rfl, hl, hp⟩
  · rw [h.noSlot (noSlot hs hd), if_pos (by simp [h0, hst])]
  · rw [h.noSlot (noSlot hs hd)]
    refine if_neg ?_
    rcases hst with hst | hst <;> simp [hst]
  · cases hs : app .sample with
    | true => exact h.refuses (sample hs).1 (sample hs).2 (Part.checkWord0_unmarked hm _ _ p)
    | false =>
      have slot := delivery hs (hsd.resolve_left (by simp [hs]))
      exact h.refuses slot.1 slot.2 (Part.checkWord0_unmarked hm _ _ p)
  · rcases hsd with ⟨hs, hne⟩ | ⟨hs, hd, hne⟩
    · refine h.refuses (sample hs).1 (sample hs).2 (Part.checkWord0_wrongStream hm (fun k hk => ?_) _ p)
      obtain rfl := (Kind.processorStream_sample k).mp hk
      exact hne
    · refine h.refuses (delivery hs hd).1 (delivery hs hd).2 (Part.checkWord0_wrongStream hm (fun k hk hdk => hne ?_) _ p)
      have kinds : k.headerWord ∈ [Kind.load, .delivery, .unload].map Kind.headerWord :=
        List.mem_map_of_mem ((Kind.processorStream_delivery k).mp hk)
      exact hdk ▸ kinds
  · refine h.refuses (delivery hs hd).1 (delivery hs hd).2 ?_
    rw [Part.checkWord0_headerWord ((Kind.processorStream_delivery k).mpr hk), hl, Part.roomForAnswer_last,
      Part.mayTake_of_noPool hp]
    rfl

/-- Settles O15: a cause of segment 0 or of the mode is found at the placement, a cause of a record segment by the tests of R33
in their order. -/
theorem refusedWritesAreLoggedWithTheirCause : Obligations.RefusedWritesAreLoggedWithTheirCause := by
  intro a d dock e k cause s hs ha hd p n slot first inStore closedTo taken appendsTo stalled why hwhy
  refine State.upstreamWrite_refused hs ha hd fun v hv => ?_
  obtain ⟨pending, mem, port, part⟩ := v
  subst hv
  let v : State := { pending := pending, mem := mem, port := port, part := p.met dock }
  have segment (hin : inStore) : (p.met dock).seg (addrSeg a.toNat) = some e := (Part.seg_pos hin.2.1).trans hin.2.2.2.1
  have record {c : RefusalCause} (hin : inStore) (hp : (p.met dock).placeWrite a d = .error c) :
      v.classify a d p.clock.now none = some { v with part := v.part.refuseWrite a c } := by
    obtain ⟨hm, h1, hn, -, hh⟩ := hin
    exact (State.classify_record (s := v) hm h1 hn (Part.headerPending_false (p := p) hh) d _).trans
      (State.writeRecord_refused (s := v) ha hp _)
  have isOpen (hin : inStore) (hs : ¬closedTo) (ht : ¬taken) : (p.met dock).OpenTo a :=
    Part.openTo_of (segment hin) hs ht
  have app (st : Stream) : appendsTo st
      = (addrWord a.toNat == 0 && (p.met dock).appendsAt (addrSeg a.toNat) (addrSlot a.toNat) st) := Bool.and_assoc _ _ _
  have stalls : (p.met dock).stalledKind d = stalled := Part.stalledKind_eq p d
  have unmarked (h : d.toNat / 256 ≠ 0xC5) : marked d = false := Bool.eq_false_iff.mpr (mt (marked_iff d).mp h)
  rcases hwhy with ⟨rfl, hm⟩ | ⟨rfl, hm, h16⟩ | ⟨rfl, hm, hlow, hhigh, hr⟩ | ⟨rfl, hm, h1, hn⟩ | ⟨rfl, hin, hc⟩
    | ⟨rfl, hin, hc, ht⟩ | ⟨rfl, hin, hc, ht, hsa, hde, hf, hst⟩ | ⟨rfl, hin, hc, ht, hsa, hde, hst⟩
    | ⟨rfl, hin, hc, ht, hap, hm⟩ | ⟨rfl, hin, hc, ht, hm, hap⟩ | ⟨rfl, hin, hc, ht, hsa, hde, hk, hd, hl, hp⟩
  · exact State.classify_foreign (s := v) hm a d _
  · exact State.classify_label (s := v) hm h16 d _
  · exact State.classify_locked (s := v) hm hlow hhigh hr d _
  · exact State.classify_outOfStore (s := v) hm h1 hn d _
  · exact record hin (Part.placeWrite_shut ((Part.shut_iff (segment hin)).mpr hc) d)
  · exact record hin (Part.placeWrite_committed (Bool.eq_false_iff.mpr (mt (Part.shut_iff (segment hin)).mp hc))
      (segment hin) ((SegEntry.committed_iff e slot).mpr ht) d)
  · exact record hin ((isOpen hin hc ht).cause (k := k) appendsTo app
      (.inl ⟨rfl, hsa, hde, beq_iff_eq.mp hf, stalls.trans hst⟩))
  · exact record hin ((isOpen hin hc ht).cause (k := k) appendsTo app
      (.inr (.inl ⟨rfl, hsa, hde, hst.imp beq_eq_false_iff_ne.mp stalls.trans⟩)))
  · exact record hin ((isOpen hin hc ht).cause (k := k) appendsTo app (.inr (.inr (.inl ⟨rfl, hap, unmarked hm⟩))))
  · exact record hin ((isOpen hin hc ht).cause (k := k) appendsTo app
      (.inr (.inr (.inr (.inl ⟨rfl, (marked_iff d).mpr hm, hap⟩)))))
  · exact record hin ((isOpen hin hc ht).cause (k := k) appendsTo app
      (.inr (.inr (.inr (.inr ⟨rfl, hsa, hde, hk, hd, hl, hp⟩)))))

end Sys2Proof.Machine

/-! # Proofs: a record is taken word by word (R34, R35, R37 to R39) -/

namespace Sys2Proof.Machine

/-! ## Word 0 -/

theorem addrSlot_slot {n s k : Nat} (hs : s < 1024) (hk : k < 16) : addrSlot (slotAddr n s + k) = s := by
  unfold addrSlot slotAddr
  omega

theorem addrWord_slot {n s k : Nat} (hk : k < 16) : addrWord (slotAddr n s + k) = k := by
  unfold addrWord slotAddr
  omega

/-- The parts of the address of a slot's word 0. -/
theorem addr_of_slot {n s a : Nat} (hs : s < 1024) (ha : a = slotAddr n s) :
    addrSeg a = n ∧ addrSlot a = s ∧ addrWord a = 0 := by
  obtain rfl : a = slotAddr n s + 0 := by omega
  exact ⟨addrSeg_slot (k := 0) hs (by decide), addrSlot_slot (k := 0) hs (by decide), addrWord_slot (k := 0) (by decide)⟩

theorem Kind.headerWord_ne_keyWord1 (k : Kind) : k.headerWord ≠ 0x5AC3 := by
  cases k <;> decide

/-- Word 0 of the append slot of a stream, in a kind that the stream's processor writes and with room for its answer. -/
theorem Part.OpenTo.begins_kind {p : Part} {a : Addr} {st : Stream} {k : Kind} {n slot : Nat} (h : p.OpenTo a)
    (hslot : slot < 1024) (ha : a.toNat = slotAddr n slot) (hst : p.appendStream n slot = some st)
    (hk : k.processorStream = some st) (hr : st = .delivery → p.roomForAnswer slot = true) :
    p.placeWrite a k.headerWord = .ok (Assembly.begin n slot st k k.headerWord) := by
  obtain ⟨inSeg, inSlot, first⟩ := addr_of_slot hslot ha
  have room : p.checkWord0 st slot k.headerWord = .ok k := by
    rw [Part.checkWord0_headerWord hk]
    refine if_neg ?_
    simpa using hr
  have begins := h.begins first (st := st) (d := k.headerWord) (k := k) (by rw [inSeg, inSlot]; exact hst)
    (by rw [inSlot]; exact room)
  rwa [inSeg, inSlot] at begins

/-! ## The words after it -/

/-- Words 1 to 11 go to memory as written and are kept. -/
theorem State.acceptWord_early {s : State} {x : Assembly} (hf : s.part.portFree = true) (hn : x.next < 12) (a : Addr)
    (d : Word) (t : Nat) : s.acceptWord a d t x = some { s with
      mem := s.mem.write a.toNat d
      part := { s.part.granted with asm := some { x with words := x.words ++ [d], next := x.next + 1 } } } := by
  have h12 : x.next ≠ 12 := by omega
  have h15 : x.next ≠ 15 := by omega
  unfold State.acceptWord Assembly.takeWord Assembly.noteFloor
  simp only [hn, h12, h15, if_false, if_true, State.forward_eq hf]
  rfl

/-- Words 13 and 14 are the part's own: a word of the receipt time or of the chain value. -/
theorem State.acceptWord_late {s : State} {x : Assembly} (hf : s.part.portFree = true) (hlow : 12 < x.next)
    (hhigh : x.next < 15) (a : Addr) (d : Word) (t : Nat) : s.acceptWord a d t x = some { s with
      mem := s.mem.write a.toNat (wordAt (words32 (x.receipt.getD 0) ++ dwords (x.chain.getD 0)) (x.next - 12))
      part := { s.part.granted with asm := some { x with next := x.next + 1 } } } := by
  have early : ¬ x.next < 12 := by omega
  have h12 : x.next ≠ 12 := by omega
  have h15 : x.next ≠ 15 := by omega
  unfold State.acceptWord Assembly.takeWord Assembly.noteFloor
  simp only [early, h12, h15, if_false, State.forward_eq hf]
  rfl

/-- Of a record under assembly the arbiter looks at nothing but the answer promise (R35). -/
theorem Part.atRest_asm {p : Part} {x y : Assembly} (hx : p.asm = some x) (hy : y.promise = x.promise) :
    ({ p with asm := some y } : Part).atRest = p.atRest := by
  have blank (st : Stream) : ({ p with asm := some y } : Part).blankFor st = p.blankFor st := by
    unfold Part.blankFor
    simp only [hx, hy]
  have take (st : Stream) : ({ p with asm := some y } : Part).mayTake st = p.mayTake st := by
    unfold Part.mayTake
    simp only [blank]
    rfl
  have waits : ({ p with asm := some y } : Part).req2Waiting = p.req2Waiting := by
    unfold Part.req2Waiting Part.headServable
    simp only [take]
    rfl
  unfold Part.atRest
  rw [waits]
  rfl

/-- The expected next word of a record, before word 15: its change is made, and the arbiter stays at rest. -/
theorem State.upstreamWrite_expected {s : State} {a : Addr} {d : Word} {dock : Bool} {x : Assembly} {m : Memory} {q : Part}
    (hs : s.Ready) (ha : s.part.asm = some x) (hm : s.part.mode = .guarded ∨ s.part.mode = .service) (hd : d ≠ 0x5AC3)
    (h1 : 1 ≤ x.seg) (hseg : x.seg < s.part.store.nSeg) (hslot : x.slot < 1024) (hn : x.next < 16)
    (haddr : a.toNat = slotAddr x.seg x.slot + x.next)
    (hh : s.part.store.direct.all (fun y => y.kind != .header || y.seg != x.seg) = true) (hq : q.atRest = true)
    (hacc : ∀ v : State, v.part = s.part.met dock → v.mem = s.mem →
      v.acceptWord a d s.part.clock.now x = some { v with mem := m, part := q }) :
    exec (.upstreamWrite a d dock) s = .next { s with mem := m, part := q } := by
  have expected : (s.part.met dock).expects a = true := (Part.expects_iff (p := s.part.met dock) ha a).mpr haddr
  have inSeg : addrSeg a.toNat = x.seg := haddr ▸ addrSeg_slot hslot hn
  have pending : (s.part.met dock).headerPending (addrSeg a.toNat) = false := by
    rw [inSeg]
    exact Part.headerPending_false hh
  refine State.upstreamWrite_rests hs hd (Part.breaks_of_expects expected) hq fun port => ?_
  let v : State := { s with port := port, part := s.part.met dock }
  exact (State.classify_record (s := v) hm (by omega) (by rw [inSeg]; exact hseg) pending d _).trans
    ((State.writeRecord_expected (s := v) ha expected d _).trans (hacc v rfl rfl))

/-- Settles O17: word 0 is placed by the append slot, the words after it by the record under assembly. -/
theorem aRecordIsTakenWordByWord : Obligations.ARecordIsTakenWordByWord := by
  refine ⟨?_, ?_⟩
  · intro a dock st k e n slot s hs ha hm hfmt hb hf hd p hkind h1 hn hslot haddr he hopen hcount hseg happ
    obtain ⟨inSeg, inSlot, -⟩ := addr_of_slot hslot haddr
    have segment : (p.met dock).seg (addrSeg a.toNat) = some e := by
      rw [inSeg]
      exact (Part.seg_pos h1).trans he
    have isOpen : (p.met dock).OpenTo a := by
      refine Part.openTo_of segment (fun h => h.elim hfmt (by simp [hopen])) fun h => ?_
      have := h.2
      omega
    have appends : (p.met dock).appendsAt n slot st = true := Part.appendsAt_iff.mpr ⟨hseg, happ⟩
    have placed : (p.met dock).placeWrite a k.headerWord = .ok (Assembly.begin n slot st k k.headerWord) := by
      rcases hkind with ⟨rfl, rfl⟩ | ⟨rfl, hk, hroom, hsample⟩
      · exact isOpen.begins_kind hslot haddr (Part.appendStream_sample appends) rfl (fun h => nomatch h)
      · have other : (p.met dock).appendsAt n slot .sample = false := Bool.eq_false_iff.mpr (mt Part.appendsAt_iff.mp hsample)
        refine isOpen.begins_kind hslot haddr (Part.appendStream_delivery other appends)
          ((Kind.processorStream_delivery k).mpr hk) fun _ => ?_
        rcases Nat.lt_or_ge slot 1023 with hlt | hge
        · exact Part.roomForAnswer_below hlt _
        · obtain rfl : slot = 1023 := by omega
          exact (Part.roomForAnswer_last _).trans (hroom.resolve_left (by omega))
    have directs := List.all_eq_true.mp hd
    have clear : (p.met dock).voidPending = false := Part.voidPending_false (p := p)
      (List.all_eq_true.mpr fun y hy => (Bool.and_eq_true_iff.mp (directs y hy)).1)
    have pending : (p.met dock).headerPending (addrSeg a.toNat) = false := by
      rw [inSeg]
      exact Part.headerPending_false (p := p) (List.all_eq_true.mpr fun y hy => (Bool.and_eq_true_iff.mp (directs y hy)).2)
    refine State.upstreamWrite_changes hs k.headerWord_ne_keyWord1 (Part.breaks_of_noAsm (p := p.met dock) ha a) fun port => ?_
    let v : State := { s with port := port, part := p.met dock }
    exact (State.classify_record (s := v) hm (by omega) (by rw [inSeg]; exact hn) pending _ _).trans
      (State.writeRecord_begins (s := v) ha placed clear (Part.met_portFree hb hf dock) _)
  · intro a d dock x s hs ha hm hd hb hf h1 hseg hslot hnext haddr hh p now taken
    have rest (y : Assembly) (hy : y.promise = x.promise) :
        ({ (p.met dock).granted with asm := some y } : Part).atRest = true :=
      (Part.atRest_asm (p := (p.met dock).granted) ha hy).trans ((Part.met_granted_atRest dock p).trans hs.2.2)
    have free {v : State} (hv : v.part = p.met dock) : v.part.portFree = true := hv ▸ Part.met_portFree hb hf dock
    have late (h12 : 12 < x.next) (h15 : x.next < 15) : exec (.upstreamWrite a d dock) s = .next
        (taken (wordAt (words32 (x.receipt.getD 0) ++ dwords (x.chain.getD 0)) (x.next - 12)) { x with next := x.next + 1 }) := by
      refine State.upstreamWrite_expected hs ha hm hd h1 hseg hslot (by omega) haddr hh (rest _ rfl) fun v hv hmem => ?_
      rw [State.acceptWord_late (free hv) h12 h15, hv, hmem]
    refine ⟨fun hn => ?_, fun hn => ?_, fun hn => ?_, fun hn => ?_⟩
    · refine State.upstreamWrite_expected hs ha hm hd h1 hseg hslot (by omega) haddr hh (rest _ rfl) fun v hv hmem => ?_
      rw [State.acceptWord_early (free hv) hn, hv, hmem]
    · refine State.upstreamWrite_expected hs ha hm hd h1 hseg hslot (by omega) haddr hh ?_ fun v hv hmem => ?_
      rotate_left
      · rw [State.acceptWord_receipt (free hv) hn, hv, hmem]
        rfl
      · exact rest { x with next := 13, receipt := some now, chain := _ } rfl
    · have h := late (by omega) (by omega)
      rw [hn] at h
      exact h
    · have h := late (by omega) (by omega)
      rw [hn] at h
      exact h

end Sys2Proof.Machine

/-! # Proofs: a write that breaks a record voids it, and is then refused (R32, R36, R42) -/

namespace Sys2Proof.Machine

/-- A write that breaks the record under assembly while no VOID record is pending, and that is placed at once (R42). -/
theorem State.upstreamWrite_breaks {s : State} {a : Addr} {d : Word} {dock : Bool} {q : Part} (hs : s.Ready) (hd : d ≠ 0x5AC3)
    (hv : (s.part.met dock).voidPending = false) (hq : q.grantPort = q)
    (hp : ∀ port, State.place a d s.part.clock.now none { s with port := port, part := s.part.met dock }
      = some ({ s with port := port, part := q }, [])) :
    exec (.upstreamWrite a d dock) s = .next { s with part := q } := by
  obtain ⟨hquiet, hg, -⟩ := hs
  let v (w : Work) : State := State.setWaiting [w] { s with part := s.part.met dock }
  have policed : (v (.police a d none)).tryWork (.police a d none)
      = some (v (.police a d none), [.place a d s.part.clock.now none]) := by
    show State.police a d none (v (.police a d none)) = _
    unfold State.police
    exact if_neg (by simp [v, State.setWaiting, hv])
  have placed : (v (.place a d s.part.clock.now none)).tryWork (.place a d s.part.clock.now none)
      = some ({ v (.place a d s.part.clock.now none) with part := q }, []) := hp _
  rw [State.upstreamWrite_policed hquiet hg hd]
  refine congrArg Host.Outcome.next ((State.drain_serves rfl policed 6).trans
    ((State.drain_serves rfl placed 5).trans ((State.drain_nil rfl 5).trans ?_)))
  obtain ⟨pending, mem, ⟨waiting, readData⟩, part⟩ := s
  obtain rfl : waiting = [] := hquiet.2
  exact congrArg (fun r : Part => ({ pending := pending, mem := mem, port := ⟨[], readData⟩, part := r } : State)) hq

/-- Settles O19: the break voids the record (`voidAssembly_eq`), and its VOID record on the direct write list keeps the arbiter at
rest. -/
theorem aBreakingWriteVoidsTheRecord : Obligations.ABreakingWriteVoidsTheRecord := by
  intro a d dock x s hs hx hm hd h16 h1 hv ho hw hrun p e now head chain voided
  have clear : (p.met dock).voidPending = false := Part.voidPending_false (p := p) hv
  have unexpected : a.toNat ≠ slotAddr x.seg x.slot + x.next := by
    unfold slotAddr
    omega
  have broken : (p.met dock).breaks a = true := Part.breaks_true (p := p.met dock) hm hx unexpected
  have running : (p.met dock).chan.running = none := by simp [p, Part.met, hrun]
  have void : (p.met dock).voidAssembly now true = voided.raise causeRecordBroken :=
    Part.voidAssembly_eq (p := p.met dock) hx h1 hw running now
  have refusals : voided.refusals = p.refusals := (Part.slotConsumed_storeOnly _ _ _ _ _).refusals
  have pending : voided.store.direct ≠ [] := (Part.slotConsumed_listStands _ _ _ _ _).nonempty (by simp)
  have rests : ((voided.raise causeRecordBroken).refuseWrite a .label).grantPort
      = (voided.raise causeRecordBroken).refuseWrite a .label :=
    Part.grantPort_of_direct (p := (voided.raise causeRecordBroken).refuseWrite a .label) pending
  rw [State.upstreamWrite_breaks hs hd clear rests fun port => ?_, Part.refuseWrite_eq, ← refusals]
  · rfl
  · rw [← void]
    exact State.place_label (s := { s with port := port, part := p.met dock }) broken hm h16 d now

end Sys2Proof.Machine

/-! # Proofs: reads return memory, the blank pattern or the status (R31, R45, R56) -/

namespace Sys2Proof.Machine

/-! ## A read at an idle gate -/

/-- A read of the presentation address is answered at the gate (R56). -/
theorem State.upstreamRead_presented {s : State} {a : Addr} {c : CurrentCommand} (hs : s.Ready)
    (hc : s.part.presentedAt a = some c) :
    exec (.upstreamRead a) s = .next { s with
      port := { s.port with readData := some c.readWord }
      part := { s.part with chan := { s.part.chan with current := some c.afterRead } } } := by
  obtain ⟨⟨hr, hw⟩, -, hrest⟩ := hs
  let v : State := s.setWaiting [.read a]
  let u : State := { v.answerRead c.readWord with
    part := { s.part with chan := { s.part.chan with current := some c.afterRead } } }
  have answers : v.tryWork (.read a) = some (u, []) := by
    have presented : v.part.presentedAt a = some c := hc
    show some (State.arriveRead a v) = _
    unfold State.arriveRead
    simp only [presented]
    rfl
  have rest : u.part.atRest = true := (Part.atRest_chan s.part s.part.pins _ rfl).trans hrest
  show execUpstreamRead a s = _
  unfold execUpstreamRead State.access
  rw [hw]
  dsimp only
  rw [if_pos hr, State.settle_eq_drain]
  refine congrArg Host.Outcome.next ((State.drain_serves rfl answers 7).trans ((State.drain_nil rfl 7).trans ?_))
  dsimp only [State.setWaiting]
  rw [Part.grantPort_atRest rest]
  obtain ⟨pending, mem, ⟨waiting, readData⟩, part⟩ := s
  obtain rfl : waiting = [] := hw
  rfl

/-- A read elsewhere is answered under the device mode, and with the arbiter still at rest changes nothing more (R45). -/
theorem State.upstreamRead_answered {s : State} {a : Addr} {w : Word} {q : Part} (hs : s.Ready)
    (hu : s.part.presentedAt a = none) (hq : q.atRest = true)
    (hw : ∀ v : State, v.part = s.part → v.mem = s.mem → v.modeRead a = some { v.answerRead w with part := q }) :
    exec (.upstreamRead a) s = .next { s with port := { s.port with readData := some w }, part := q } := by
  obtain ⟨⟨hr, hwait⟩, hg, -⟩ := hs
  let v (w : Work) : State := s.setWaiting [w]
  have arrives : (v (.read a)).tryWork (.read a) = some (v (.read a), [.modeRead a]) := by
    have presented : (v (.read a)).part.presentedAt a = none := hu
    have gate : (v (.read a)).part.chan.gate = .idle := hg
    show some (State.arriveRead a (v (.read a))) = _
    unfold State.arriveRead
    simp only [presented, gate]
  have answers : (v (.modeRead a)).tryWork (.modeRead a)
      = some ({ (v (.modeRead a)).answerRead w with part := q }, []) := by
    show (State.modeRead a (v (.modeRead a))).map (fun t => (t, [])) = _
    rw [hw (v (.modeRead a)) rfl rfl]
    rfl
  show execUpstreamRead a s = _
  unfold execUpstreamRead State.access
  rw [hwait]
  dsimp only
  rw [if_pos hr, State.settle_eq_drain]
  refine congrArg Host.Outcome.next ((State.drain_serves rfl arrives 7).trans
    ((State.drain_serves rfl answers 6).trans ((State.drain_nil rfl 6).trans ?_)))
  dsimp only [State.setWaiting]
  rw [Part.grantPort_atRest hq]
  obtain ⟨pending, mem, ⟨waiting, readData⟩, part⟩ := s
  obtain rfl : waiting = [] := hwait
  rfl

/-- A read out of the store, or in a segment that reads as blank, has no downstream cycle (R45, R194). -/
theorem State.modeRead_blank {s : State} {a : Addr} (hm : s.part.mode = .guarded ∨ s.part.mode = .service)
    (h : s.part.store.nSeg ≤ addrSeg a.toNat ∨ (1 ≤ addrSeg a.toNat ∧ s.part.shut (addrSeg a.toNat) = true)) :
    s.modeRead a = some (s.answerRead blank) := by
  have policed := s.part.policed_iff.mpr hm
  unfold State.modeRead
  dsimp only
  by_cases hn : s.part.store.nSeg ≤ addrSeg a.toNat
  · exact if_pos (by simp [policed, hn])
  · obtain ⟨h1, hs⟩ := h.resolve_left hn
    have h0 : addrSeg a.toNat ≠ 0 := by omega
    rw [if_neg (by simp [hn])]
    exact if_pos (by simp [policed, h0, hs])

/-- A read of segment 0 waits for no header and no FORMAT (R31, R45). -/
theorem State.modeRead_segment0 {s : State} {a : Addr} (h0 : addrSeg a.toNat = 0) (hn : 1 ≤ s.part.store.nSeg)
    (hd : s.part.store.direct.all (fun x => x.seg != 0) = true) (hf : s.part.portFree = true) :
    s.modeRead a = some { s.answerRead (s.mem.read a.toNat) with part := s.part.granted } := by
  have inside : ¬ s.part.store.nSeg ≤ 0 := by omega
  have clear : s.part.headerPending 0 = false := Part.headerPending_false
    (List.all_eq_true.mpr fun x hx => Bool.or_eq_true_iff.mpr (.inr (List.all_eq_true.mp hd x hx)))
  unfold State.modeRead
  simp only [h0, inside, clear, hf, decide_false, bne_self_eq_false, Bool.and_false, Bool.false_and, Bool.false_eq_true,
    if_false, if_true]
  rfl

theorem Part.policed_false {p : Part} (h : ¬(p.mode = .guarded ∨ p.mode = .service)) : p.policed = false :=
  Bool.eq_false_iff.mpr (mt p.policed_iff.mp h)

/-! ## The status word and the result words (R56) -/

/-- The status word, its toggle in bit 10. -/
theorem CurrentCommand.statusWord_eq (c : CurrentCommand) :
    c.statusWord = (c.echo &&& 0x00FF) ||| (c.state.code <<< 8) ||| (if c.toggle then 0x0400 else 0)
      ||| (c.outcome.code <<< 11) := by
  unfold CurrentCommand.statusWord
  cases c.toggle <;> rfl

theorem CurrentCommand.read_running {c : CurrentCommand} (h : c.state = .running) :
    c.readWord = c.statusWord ∧ c.afterRead = { c with toggle := !c.toggle } :=
  ⟨if_pos (.inl h), if_pos h⟩

theorem CurrentCommand.read_first {c : CurrentCommand} (h : c.state ≠ .running) (h0 : c.readPos = 0) :
    c.readWord = c.statusWord ∧ c.afterRead = { c with readPos := if c.results = [] then 0 else 1 } := by
  refine ⟨if_pos (.inr h0), (if_neg h).trans ?_⟩
  cases hr : c.results with
  | nil => simp [h0]
  | cons w ws => simp [h0]

theorem CurrentCommand.read_result {c : CurrentCommand} {k : Nat} {w : Word} (h : c.state ≠ .running)
    (hk : c.readPos = k + 1) (hw : c.results[k]? = some w) :
    c.readWord = w ∧ c.afterRead = { c with readPos := if k + 1 < c.results.length then k + 2 else 0 } := by
  refine ⟨(if_neg (by simp [h, hk])).trans ?_, (if_neg h).trans (by rw [hk])⟩
  unfold wordAt
  rw [hk, Nat.add_sub_cancel, List.getD_eq_getElem?_getD, hw]
  rfl

/-- Settles O21: off the presentation address a read goes by the device mode, at it by the current command. -/
theorem readsReturnMemoryBlankOrStatus : Obligations.ReadsReturnMemoryBlankOrStatus := by
  refine ⟨?_, ?_⟩
  · intro a e s hs hcur p n inStore shut free
    have unshown : p.presentedAt a = none := Part.presentedAt_none fun c hc => by simpa [p, hc] using hcur
    have closed (h1 : 1 ≤ n) (he : p.store.segs[n - 1]? = some e) : p.shut n = true ↔ shut :=
      Part.shut_iff ((Part.seg_pos h1).trans he)
    refine ⟨fun ⟨hm, hn⟩ => ?_, fun hn ⟨hb, hf⟩ hd => ?_⟩
    · refine State.upstreamRead_answered hs unshown hs.2.2 fun v hv _ => ?_
      obtain ⟨pending, mem, port, part⟩ := v
      subst hv
      exact State.modeRead_blank hm (hn.imp_right fun ⟨h1, he, hs⟩ => ⟨h1, (closed h1 he).mpr hs⟩)
    · refine State.upstreamRead_answered hs unshown (q := p.granted) hs.2.2 fun v hv hmem => ?_
      obtain ⟨pending, mem, port, part⟩ := v
      subst hv hmem
      have portFree : p.portFree = true := Part.portFree_of hb hf
      rcases hn with hm | ⟨h0, h1⟩ | ⟨h1, hn, he, hs, hh⟩
      · exact State.modeRead_memory portFree (.inl (Part.policed_false hm))
      · exact State.modeRead_segment0 h0 h1 (hd h0) portFree
      · exact State.modeRead_memory portFree
          (.inr ⟨hn, Bool.eq_false_iff.mpr (mt (closed h1 he).mp hs), Part.headerPending_false hh⟩)
  · intro a c k w s hs hc ha status answer
    have shown : s.part.presentedAt a = some c := by
      unfold Part.presentedAt
      rw [hc]
      exact if_pos ha
    have read {w : Word} {after : CurrentCommand} (h : c.readWord = w ∧ c.afterRead = after) :
        exec (.upstreamRead a) s = .next (answer w after) := by
      obtain ⟨rfl, rfl⟩ := h
      exact State.upstreamRead_presented hs shown
    have statusWord : c.statusWord = status := c.statusWord_eq
    refine ⟨fun hr => ?_, fun hr h0 => ?_, fun hr hk hw => ?_⟩
    · exact read (statusWord ▸ CurrentCommand.read_running hr)
    · exact read (statusWord ▸ CurrentCommand.read_first hr h0)
    · exact read (CurrentCommand.read_result hr hk hw)

end Sys2Proof.Machine

/-! # Proofs: one long operation at a time (R73), through the slots, the store and the claim verifier

The invariant is told of a part and of what its verify slot would hold, so that the steps of a VERIFY that carry its slot in
hand keep it before they put the slot back. -/

namespace Sys2Proof.Machine

/-! ## The invariant -/

/-- `oneLongOperation` of the part with `o` in its verify slot. -/
structure Part.SoundFor (p : Part) (o : Option Verify) : Prop where
  blanking : p.retire.state = .blanking → o.all Verify.suspended = true
  formatting : p.retire.state = .formatRunning → o.isNone = true
  claimed : ∀ i, o.map Verify.claim = some i → ∃ c, p.claims[i]? = some c ∧ c.inUse = true
  queued : ∀ i ∈ p.claimQueue, i < 8
  sized : p.claims.length = 8

def Part.LongSound (p : Part) : Prop := p.SoundFor p.verify

theorem Part.verifyRunning_false_iff (p : Part) : p.verifyRunning = false ↔ p.verify.all Verify.suspended = true := by
  unfold Part.verifyRunning
  cases p.verify <;> simp

/-- A claim in use is an entry of the table. -/
theorem Part.claim_inUse_iff (p : Part) (i : Nat) :
    (i < p.claims.length ∧ (p.claim i).inUse = true) ↔ ∃ c, p.claims[i]? = some c ∧ c.inUse = true := by
  unfold Part.claim
  by_cases hi : i < p.claims.length
  · simp [hi]
  · simp [hi]

theorem Part.longSound_iff {p : Part} : p.oneLongOperation ↔ p.LongSound := by
  constructor
  · rintro ⟨hb, hf, hc, hq, hs⟩
    refine ⟨fun h => (p.verifyRunning_false_iff).mp (hb h), fun h => by rw [hf h]; rfl, fun i hi => ?_,
      fun i hi => hs ▸ hq i hi, hs⟩
    obtain ⟨v, hv, rfl⟩ := Option.map_eq_some_iff.mp hi
    exact (p.claim_inUse_iff _).mp (hc v hv)
  · intro h
    refine ⟨fun hb => (p.verifyRunning_false_iff).mpr (h.blanking hb), fun hf => Option.isNone_iff_eq_none.mp (h.formatting hf),
      fun v hv => (p.claim_inUse_iff _).mpr (h.claimed v.claim (by rw [hv]; rfl)), fun i hi => ?_, h.sized⟩
    exact h.sized ▸ h.queued i hi

/-- The invariant goes over from `p` to `q`. -/
def Part.LongKept (p q : Part) : Prop := p.LongSound → q.LongSound

theorem Part.LongKept.refl (p : Part) : Part.LongKept p p := id

theorem Part.LongKept.trans {p q r : Part} (h : Part.LongKept p q) (k : Part.LongKept q r) : Part.LongKept p r := k ∘ h

theorem Part.LongKept.ite {p q r : Part} {c : Prop} [Decidable c] (h : Part.LongKept p q) (k : Part.LongKept p r) :
    Part.LongKept p (if c then q else r) := by
  split
  · exact h
  · exact k

/-- The invariant goes over whatever the verify slot holds. -/
def Part.SlotsKept (p q : Part) : Prop := ∀ o, p.SoundFor o → q.SoundFor o

theorem Part.SlotsKept.refl (p : Part) : Part.SlotsKept p p := fun _ => id

theorem Part.SlotsKept.trans {p q r : Part} (h : Part.SlotsKept p q) (k : Part.SlotsKept q r) : Part.SlotsKept p r :=
  fun o => k o ∘ h o

theorem Part.SlotsKept.ite {p q r : Part} {c : Prop} [Decidable c] (h : Part.SlotsKept p q) (k : Part.SlotsKept p r) :
    Part.SlotsKept p (if c then q else r) := by
  split
  · exact h
  · exact k

theorem Part.SlotsKept.of_eq {p q : Part} (hr : q.retire = p.retire) (hc : q.claims = p.claims)
    (hq : q.claimQueue = p.claimQueue) : Part.SlotsKept p q := fun _ h =>
  { blanking := hr ▸ h.blanking, formatting := hr ▸ h.formatting, claimed := hc ▸ h.claimed, queued := hq ▸ h.queued,
    sized := hc ▸ h.sized }

theorem Part.SlotsKept.long {p q : Part} (h : Part.SlotsKept p q) (hv : q.verify = p.verify) : Part.LongKept p q :=
  fun hp => show q.SoundFor q.verify from hv ▸ h _ hp

theorem Part.EvidenceOnly.slotsKept {p q : Part} (h : Part.EvidenceOnly p q) : Part.SlotsKept p q :=
  .of_eq h.retire h.claims h.claimQueue

theorem Part.EvidenceOnly.longKept {p q : Part} (h : Part.EvidenceOnly p q) : Part.LongKept p q := h.slotsKept.long h.verify

theorem Part.StoreOnly.slotsKept {p q : Part} (h : Part.StoreOnly p q) : Part.SlotsKept p q :=
  .of_eq h.retire h.claims h.claimQueue

theorem Part.StoreOnly.longKept {p q : Part} (h : Part.StoreOnly p q) : Part.LongKept p q := h.slotsKept.long h.verify

/-- An EMPTY verify slot is sound beside any other. -/
theorem Part.SoundFor.vacated {p : Part} {o : Option Verify} (h : p.SoundFor o) : p.SoundFor none :=
  { h with blanking := fun _ => rfl, formatting := fun _ => rfl, claimed := fun _ hi => nomatch hi }

/-- Claims that stay in use wherever they were. -/
theorem Part.SlotsKept.of_claims {p q : Part} (hr : q.retire = p.retire) (hq : q.claimQueue = p.claimQueue)
    (hl : q.claims.length = p.claims.length)
    (hc : ∀ (i : Nat) (c : Claim), p.claims[i]? = some c → c.inUse = true → ∃ d, q.claims[i]? = some d ∧ d.inUse = true) :
    Part.SlotsKept p q := fun _ h =>
  { blanking := hr ▸ h.blanking, formatting := hr ▸ h.formatting, queued := hq ▸ h.queued, sized := hl.trans h.sized
    claimed := fun i hi => by
      obtain ⟨c, hget, hu⟩ := h.claimed i hi
      exact hc i c hget hu }

/-- A change of a claim that leaves it in use, or as much in use as it was. -/
theorem Part.modClaim_slotsKept (i : Nat) (f : Claim → Claim) (p : Part)
    (hf : ∀ c, c.inUse = true → (f c).inUse = true := by exact fun _ hu => hu) : Part.SlotsKept p (p.modClaim i f) := by
  refine .of_claims rfl rfl (List.length_modify f _ _) fun j c hget hu => ⟨if i = j then f c else c, ?_, ?_⟩
  · simp [List.getElem?_modify, hget]
  · split
    · exact hf c hu
    · exact hu

/-- With no claim in use the verify slot is EMPTY. -/
theorem Part.LongSound.verify_none {p : Part} (h : p.LongSound) (hc : p.claims.any Claim.inUse = false) : p.verify = none := by
  cases hv : p.verify with
  | none => rfl
  | some v =>
    obtain ⟨c, hget, hu⟩ := h.claimed v.claim (by rw [hv]; rfl)
    simp [List.any_eq_false.mp hc c (List.mem_of_getElem? hget)] at hu

/-! ## A slot has changed (R73, R164, R189) -/

theorem Part.beginWaiting_longKept (p : Part) : Part.LongKept p p.beginWaiting := by
  unfold Part.beginWaiting
  split
  · rename_i hw
    have still : p.verify.all Verify.suspended = true := (p.verifyRunning_false_iff).mp (by simpa using hw.2)
    exact fun h => { h with blanking := fun _ => still, formatting := (nomatch ·) }
  · exact .refl p

theorem Part.startVerify_longKept (p : Part) : Part.LongKept p p.startVerify := by
  unfold Part.startVerify
  split
  · rename_i i rest _ hqueue
    split
    · rename_i hpermits
      intro h
      have hi : i < 8 := h.queued i (hqueue ▸ List.mem_cons_self)
      have idle : p.retire.state ≠ .blanking ∧ p.retire.state ≠ .formatRunning := by
        cases hs : p.retire.state <;> simp [Part.slotPermits, hs] at hpermits ⊢
      refine { blanking := fun hb => absurd hb idle.1, formatting := fun hf => absurd hf idle.2,
               queued := fun j hj => h.queued j (hqueue ▸ List.mem_cons_of_mem _ hj),
               sized := (List.length_modify _ _ _).trans h.sized, claimed := ?_ }
      rintro j hj
      cases hj
      have hget : p.claims[i]? = some (p.claims[i]'(h.sized ▸ hi)) := List.getElem?_eq_getElem _
      exact ⟨_, by simp only [Part.modClaim, Verify.start, List.getElem?_modify, if_true, hget]; rfl, rfl⟩
    · exact .refl p
  · exact .refl p

theorem Part.scrubTurn_longKept (ended : Bool) (p : Part) : Part.LongKept p (p.scrubTurn ended) := by
  rw [Part.scrubTurn_eq]
  exact fun h => { h with }

theorem Part.slotsChanged_longKept (ended : Bool) (p : Part) : Part.LongKept p (p.slotsChanged ended) :=
  ((Part.beginWaiting_longKept p).trans (Part.startVerify_longKept _)).trans (Part.scrubTurn_longKept ended _)

theorem Part.discardCollecting_longKept (p : Part) : Part.LongKept p p.discardCollecting :=
  .ite (fun h => { h with blanking := (nomatch ·), formatting := (nomatch ·) }) (.refl p)

theorem Part.leaveService_longKept (p : Part) : Part.LongKept p p.leaveService :=
  fun h => Part.slotsChanged_longKept false _ (Part.discardCollecting_longKept _ { h with })

/-! ## The command channel and the record assembler (R20, R40, R42, R66) -/

theorem Part.conclude_longKept (st : CmdState) (o : CmdOutcome) (rs : List Word) (p : Part) :
    Part.LongKept p (p.conclude st o rs) := fun h => { h with }

theorem Part.endRunning_longKept (st : CmdState) (o : CmdOutcome) (rs : List Word) (p : Part) :
    Part.LongKept p (p.endRunning st o rs) := by
  unfold Part.endRunning
  split
  · exact .refl p
  · exact .ite (fun h => { h with }) (fun h => { h with })

theorem Part.decideWhere_longKept {finish : CmdState → CmdOutcome → List Word → Part → Part}
    (hf : ∀ st o rs p, Part.LongKept p (finish st o rs p)) (st : Stream) (p : Part) :
    Part.LongKept p (p.decideWhere st finish) := by
  have needed : Part.LongKept p (if (p.stream st).openSeg.isSome then p else p.needSegment st) :=
    .ite (.refl p) (Part.needSegment_storeOnly st p).longKept
  exact .ite (hf _ _ _ p) (.ite (needed.trans (hf _ _ _ _)) (needed.trans (hf _ _ _ _)))

theorem Part.afterAssembly_longKept (st : Stream) (p : Part) : Part.LongKept p (p.afterAssembly st) := by
  have closed : Part.LongKept p (p.finishClose st) := by
    unfold Part.finishClose
    split
    · dsimp only
      split
      · exact fun h => { (Part.closeSegment_storeOnly st _ p).longKept h with }
      · exact fun h => { h with }
    · exact .refl p
  exact closed.trans (.ite (Part.decideWhere_longKept Part.endRunning_longKept st _) (.refl _))

theorem Part.voidAssembly_longKept (t : Nat) (direct : Bool) (p : Part) : Part.LongKept p (p.voidAssembly t direct) := by
  unfold Part.voidAssembly
  split
  · exact .refl p
  · rename_i a _
    have taken : Part.LongKept p { p with asm := none } := fun h => { h with }
    have advanced (chain : DWord) (q : Part) : Part.StoreOnly q (Part.advanceStream a.stream a.seg chain (Part.noteReceipt t q)) :=
      (Part.noteReceipt_storeOnly t q).trans (Part.advanceStream_storeOnly _ _ _ _)
    have listed (e : DirectEntry) (q : Part) : Part.StoreOnly q (if direct then q.pushDirect e else q) :=
      .ite (Part.pushDirect_storeOnly e q) (.refl q)
    exact (taken.trans ((((advanced _ _).trans (listed _ _)).trans (Part.slotConsumed_storeOnly _ _ _ _ _)).trans
      (Part.raise_storeOnly _ _)).longKept).trans (Part.afterAssembly_longKept _ _)

theorem Part.commitRecord_longKept (p : Part) : Part.LongKept p p.commitRecord := by
  unfold Part.commitRecord
  split
  · exact .refl p
  · rename_i a _
    have taken : Part.LongKept p { p with asm := none } := fun h => { h with }
    have advanced (q : Part) (chain : DWord) := (Part.advanceStream_storeOnly a.stream a.seg chain q).longKept
    have consumed (q : Part) (needs : Bool) := (Part.slotConsumed_storeOnly a.stream a.seg a.slot needs q).longKept
    have ended (q : Part) := Part.afterAssembly_longKept a.stream q
    dsimp only
    split
    · exact (((taken.trans (advanced _ _)).trans (consumed _ _)).trans (Part.consumeSample_only _ _ _).longKept).trans (ended _)
    · have asked := taken.trans (Part.answerRequest_only a.kind a.words (a.receipt.getD p.clock.now) _).longKept
      have stays (q : Part) : Part.LongKept q (if a.slot < 1023 ∧ (q.stream a.stream).openSeg ≠ some a.seg
          then q.slotConsumed a.stream a.seg a.slot false else q) := .ite (consumed q false) (.refl q)
      exact (((asked.trans (advanced _ _)).trans (stays _)).trans (Part.commitAnswer_storeOnly _ _ _ _ _).longKept).trans
        (ended _)

/-! ## The ends of a VERIFY (R175) -/

theorem Part.emptyVerify_sound {p : Part} {o : Option Verify} (h : p.SoundFor o) : p.emptyVerify.LongSound :=
  Part.slotsChanged_longKept _ _ (show p.vacateVerify.LongSound from { h.vacated with })

theorem Part.completeVerify_sound {p : Part} {o : Option Verify} (i : Nat) (h : p.SoundFor o) :
    (p.completeVerify i).LongSound :=
  Part.emptyVerify_sound (o := o) { Part.modClaim_slotsKept i (fun c => { c with state := .ready }) p (fun _ _ => rfl) o h with }

/-- A claim is freed that is not the one in the verify slot. -/
theorem Part.freeClaim_soundFor {p : Part} {o : Option Verify} {i : Nat} (h : p.SoundFor o)
    (hi : o.map Verify.claim ≠ some i) : (p.freeClaim i).SoundFor o := by
  have released (l : List Nat) : ∀ q : Part, Part.StoreOnly q
      (l.foldl (fun p n => p.modSeg n (fun e => { e with holds := e.holds - 1 })) q) := by
    induction l with
    | nil => exact .refl
    | cons n l ih => exact fun q => (Part.modSeg_storeOnly n _ q).trans (ih _)
  have kept := (released (p.claim i).held p).slotsKept o h
  refine { kept with sized := (List.length_modify _ _ _).trans kept.sized, claimed := fun j hj => ?_ }
  obtain ⟨c, hget, hu⟩ := kept.claimed j hj
  have hne : i ≠ j := fun he => hi (he ▸ hj)
  refine ⟨c, ?_, hu⟩
  simp only [Part.freeClaim, Part.modClaim, List.getElem?_modify, hne, if_false, Option.map_eq_map, Option.map_id_fun', id_eq]
  exact hget

theorem Part.closeVerify_sound {p : Part} {o : Option Verify} (i : Nat) (h : p.SoundFor o) : (p.closeVerify i).LongSound :=
  Part.emptyVerify_sound (Part.freeClaim_soundFor h.vacated (by simp))

theorem Part.abortClaim_slotsKept (v : Verify) (p : Part) : Part.SlotsKept p (p.abortClaim v) :=
  (Part.modClaim_slotsKept v.claim _ p (by exact fun _ _ => rfl)).trans (Part.raise_only _ _).slotsKept

theorem Part.abortVerify_longKept (p : Part) : Part.LongKept p p.abortVerify := by
  unfold Part.abortVerify
  split
  · exact .refl p
  · exact fun h => Part.emptyVerify_sound (Part.abortClaim_slotsKept _ p _ h)

/-! ## The phases of a VERIFY (R165 to R174) -/

theorem Part.checkFault_slotsKept (n s : Nat) (seq : Option DWord) (cause claim : Word) (p : Part) :
    Part.SlotsKept p (p.checkFault n s seq cause claim) := by
  have later (q : Part) : Part.SlotsKept q (q.laterFault n) := by
    refine .of_claims rfl rfl List.length_mapIdx fun i c hget hu =>
      ⟨if c.held.contains n && q.findingsFixed i c then { c with laterFault := true } else c, ?_, ?_⟩
    · simp [Part.laterFault, hget]
    · split <;> exact hu
  unfold Part.checkFault
  split
  · exact .refl p
  · exact .ite ((((((Part.faultSegment_storeOnly n p).slotsKept).trans (Part.addFault_only _ _).slotsKept).trans
      (Part.raise_only _ _).slotsKept).trans (Part.evidenceFault_only n _).slotsKept).trans (later _)) (.refl p)

section
variable {p : Part} {v : Verify}

theorem Part.beginWrite_sound (h : p.SoundFor (some v)) (proofs : List ProofFinding) : (p.beginWrite v proofs).LongSound :=
  { h with }

theorem Part.fixFindings_sound (h : p.SoundFor (some v)) : (p.fixFindings v).LongSound :=
  Part.beginWrite_sound (Part.modClaim_slotsKept _ _ p (by exact fun _ hu => hu) _ h) _

theorem Part.collectNext_sound (h : p.SoundFor (some v)) : (p.collectNext v).LongSound := by
  unfold Part.collectNext
  split
  · exact Part.fixFindings_sound h
  · exact { h with }

theorem Part.beginCollect_sound (h : p.SoundFor (some v)) : (p.beginCollect v).LongSound :=
  Part.collectNext_sound { h with }

theorem Part.collectSlot_sound (h : p.SoundFor (some v)) (ws : List Word) : (p.collectSlot v ws).LongSound := by
  unfold Part.collectSlot
  split
  · exact Part.fixFindings_sound h
  · exact Part.collectNext_sound { h with }

theorem Part.checkEnded_sound (h : p.SoundFor (some v)) (last : Nat) : (p.checkEnded v last).LongSound := by
  unfold Part.checkEnded Part.checkNext
  split
  · exact Part.beginCollect_sound { h with }
  · exact { h with }

theorem Part.checkSlot_sound (h : p.SoundFor (some v)) (ws : List Word) : (p.checkSlot v ws).LongSound := by
  unfold Part.checkSlot
  split
  · exact Part.checkEnded_sound h 0
  · split
    · exact { h with }
    · exact Part.checkEnded_sound h _
    · exact Part.checkEnded_sound (((Part.modClaim_slotsKept _ _ p (by intro c hu; split <;> exact hu)).trans
        (Part.checkFault_slotsKept _ _ _ _ _ _)) _ h) _

theorem Part.considerHold_slotsKept (i lo hi : Nat) (p : Part) (n : Nat) : Part.SlotsKept p (p.considerHold i lo hi n) := by
  have unbatched (q : Part) : Part.SlotsKept q (q.unbatch n) := by
    unfold Part.unbatch
    split
    · exact .ite (fun _ h => { h with blanking := (nomatch ·), formatting := (nomatch ·) })
        (fun _ h => { h with })
    · exact .refl q
  unfold Part.considerHold
  split
  · exact .refl p
  · have held := (((Part.modSeg_storeOnly n (fun e => { e with holds := e.holds + 1 }) p).slotsKept).trans
      (unbatched _)).trans (Part.modClaim_slotsKept i (fun c => { c with held := c.held ++ [n] }) _)
    exact .ite (.refl p) (.ite (Part.modClaim_slotsKept i _ p) (.ite (.refl p)
      (.ite (Part.modClaim_slotsKept i _ p) (.ite (Part.modClaim_slotsKept i _ p) held))))

theorem Part.holdPhase_sound (h : p.SoundFor (some v)) : (p.holdPhase v).LongSound := by
  have held (lo hi : Nat) (l : List Nat) : ∀ q : Part, Part.SlotsKept q (l.foldl (Part.considerHold v.claim lo hi) q) := by
    induction l with
    | nil => exact .refl
    | cons n l ih => exact fun q => (Part.considerHold_slotsKept _ lo hi q n).trans (ih _)
  have covered (c : Prop) [Decidable c] (q : Part) :
      Part.SlotsKept q (if c then q else q.modClaim v.claim (fun c => { c with retiredRange := true })) :=
    .ite (.refl q) (Part.modClaim_slotsKept _ _ q)
  exact { ((held _ _ _ p).trans (covered _ _)) _ h with }

theorem Part.notFound_sound (h : p.SoundFor (some v)) (number : BitVec 16) : (p.notFound v number).LongSound :=
  Part.beginWrite_sound (Part.modClaim_slotsKept _ _ p (by exact fun _ hu => hu) _ h) _

theorem Part.walkTo_sound (h : p.SoundFor (some v)) (number : BitVec 16) : (p.walkTo v number).LongSound := by
  unfold Part.walkTo
  split
  · exact { h with }
  · exact Part.notFound_sound h number

theorem Part.locateSlot_sound (h : p.SoundFor (some v)) (ws : List Word) : (p.locateSlot v ws).LongSound := by
  unfold Part.locateSlot
  dsimp only
  split
  · have settled : p.SoundFor (some { v with locate := v.locate.settle ws }) := { h with }
    exact Part.holdPhase_sound (Part.modClaim_slotsKept _ _ p (by exact fun _ hu => hu) _ settled)
  · split
    · exact { h with }
    · refine Part.walkTo_sound ?_ _
      exact { h with }

theorem Part.verifySlot_longKept (hv : p.verify = some v) (ws : List Word) : Part.LongKept p (p.verifySlot v ws) := by
  intro h
  have sound : p.SoundFor (some v) := hv ▸ h
  unfold Part.verifySlot
  split
  · exact Part.locateSlot_sound sound ws
  · exact Part.checkSlot_sound sound ws
  · exact Part.collectSlot_sound sound ws
  · exact h
  · exact h

end

theorem Part.passCheck_longKept (p : Part) : Part.LongKept p p.passCheck := by
  unfold Part.passCheck
  split
  · exact .refl p
  · rename_i v hv
    exact .ite (fun h => Part.beginCollect_sound (hv ▸ h : p.SoundFor (some v))) (.refl p)

theorem Part.retestWalk_longKept (p : Part) : Part.LongKept p p.retestWalk := by
  unfold Part.retestWalk
  split
  · exact .refl p
  · rename_i v hv
    exact .ite (fun h => Part.notFound_sound (hv ▸ h : p.SoundFor (some v)) _) (.refl p)

theorem Part.extractStep_longKept (p : Part) : Part.LongKept p p.extractStep := by
  unfold Part.extractStep
  split
  · exact .refl p
  · rename_i v hv
    refine .ite (fun h => ?_) (.refl p)
    have sound : p.SoundFor (some v) := hv ▸ h
    unfold Part.addExtract
    split
    · exact Part.completeVerify_sound _ h
    · rename_i k body rest _
      have added := (Part.addRecord_only .claim k body
        { p with verify := some { v with extracts := rest, count := v.count + 1 } }).longKept { sound with }
      exact Part.LongKept.ite (fun h => Part.completeVerify_sound _ h) (.refl _) added

/-! ## The arbiter's grant (R46, R166) -/

theorem Part.fixWalk_longKept (fuel : Nat) : ∀ p : Part, Part.LongKept p (Part.fixWalk fuel p) := by
  induction fuel with
  | zero => exact .refl
  | succ fuel ih =>
    intro p
    unfold Part.fixWalk
    split
    · exact .refl p
    · rename_i v hv
      have walked (n : BitVec 16) : Part.LongKept p (p.walkTo v n) :=
        fun h => Part.walkTo_sound (hv ▸ h : p.SoundFor (some v)) n
      exact .ite (.refl p) (.ite ((walked _).trans (ih _)) (.ite (.refl p) (.ite ((walked _).trans (ih _))
        fun h => { (hv ▸ h : p.SoundFor (some v)) with })))

theorem Part.grantPort_longKept (p : Part) : Part.LongKept p p.grantPort := by
  have given (b : Burst) (q : Part) : Part.LongKept q (q.giveBurst b) := fun h => { h with }
  have arbitrated (q : Part) : Part.LongKept q q.arbitrate := by
    unfold Part.arbitrate
    split
    · split
      · exact .refl q
      · exact given _ q
    · exact .refl q
  have fixed (q : Part) : Part.LongKept q q.fixGrant := by
    have walked := Part.fixWalk_longKept 600 q
    refine .ite ?_ (.refl q)
    dsimp only
    split
    · exact walked
    · rename_i v hv
      split
      · split
        · exact fun h => { (hv ▸ walked h : (Part.fixWalk 600 q).SoundFor (some v)) with }
        · exact walked
      · exact fun h => arbitrated _ { walked h with }
      · exact walked
  unfold Part.grantPort
  split
  · split
    · exact .refl p
    · exact (given _ p).trans (fixed _)
    · exact given _ p
  · exact .refl p

end Sys2Proof.Machine


/-! # Proofs: one long operation at a time (R73), through the retire slot, the commands and the upstream port -/

namespace Sys2Proof.Machine

/-! ## The retire batch and FORMAT (R181 to R185, R193 to R196) -/

theorem Part.windowExpires_longKept (p : Part) : Part.LongKept p p.windowExpires := by
  unfold Part.windowExpires
  split
  · rename_i b _ _
    have moved : Part.LongKept p { p with retire := { p.retire with
        state := if p.verifyRunning then .waiting else .blanking, batch := some { b with window := false } } } := by
      intro h
      cases hv : p.verifyRunning with
      | true => exact { h with blanking := (nomatch ·), formatting := (nomatch ·) }
      | false =>
        exact { h with blanking := fun _ => (p.verifyRunning_false_iff).mp hv, formatting := (nomatch ·) }
    exact .ite (moved.trans (Part.slotsChanged_longKept _ _)) (.refl p)
  · exact .refl p

theorem Part.takeNextSeg_longKept (p : Part) : Part.LongKept p p.takeNextSeg := by
  have marked (n : Nat) (q : Part) : Part.LongKept q (q.markRetiring n) := by
    have retiring := (Part.modSeg_storeOnly n (fun e => { e with state := .retiring, owed := .none }) q).longKept
    unfold Part.markRetiring
    dsimp only
    split
    · exact .ite (retiring.trans (Part.voidAssembly_longKept _ _ _)) retiring
    · exact retiring
  unfold Part.takeNextSeg
  split
  · split
    · exact .ite (.refl p) fun h => marked _ _ { h with }
    · exact .refl p
  · exact .refl p

/-- The batch is over: the retire slot is EMPTY, and the slots move on (R183, R185). -/
theorem Part.LongKept.batchEnds {p q : Part} (h : Part.LongKept p q) : Part.LongKept p
    (Part.slotsChanged true (Part.raise causeOpDone { q with retire := { q.retire with state := .empty, batch := none } })) :=
  fun hp => Part.slotsChanged_longKept true _
    (show Part.LongSound _ from { h hp with blanking := (nomatch ·), formatting := (nomatch ·) })

theorem Part.segBlanked_longKept (n : Nat) (p : Part) : Part.LongKept p (p.segBlanked n) := by
  have joined := (Part.joinPool_storeOnly n p).longKept
  unfold Part.segBlanked
  dsimp only
  split
  · exact joined
  · exact .ite (fun h => { joined h with }) joined.batchEnds

theorem Part.endBlanking_longKept (p : Part) : Part.LongKept p p.endBlanking := by
  refine Part.LongKept.batchEnds ?_
  split
  · split
    · exact (Part.modSeg_storeOnly _ _ p).longKept
    · exact .refl p
  · exact .refl p

/-- A FORMAT starts only with no claim in use, hence with no VERIFY (R71, R193). -/
theorem Part.startFormat_longKept {p : Part} (hc : p.claims.any Claim.inUse = false) (code : Nat) :
    Part.LongKept p (p.startFormat code) := by
  intro h
  have idle : p.verify.isNone = true := by rw [h.verify_none hc]; rfl
  exact (Part.resumeScanner_only _).longKept { h with blanking := (nomatch ·), formatting := fun _ => idle }

theorem Part.dropLoad_longKept (p : Part) : Part.LongKept p p.dropLoad :=
  .ite (fun h => Part.endRunning_longKept _ _ _ _ { h with }) fun h => { h with }

theorem Part.dropLoad_verify (p : Part) : p.dropLoad.verify = p.verify := by
  unfold Part.dropLoad Part.endRunning
  dsimp only
  split
  · split
    · rfl
    · split <;> rfl
  · rfl

theorem Part.dropRoute_verify (p : Part) : p.dropRoute.verify = p.verify := by
  unfold Part.dropRoute
  split <;> rfl

/-- No VERIFY runs beside a FORMAT, so the claims can be freed (R196). -/
theorem Part.formatTerminated_longKept {p : Part} (hf : p.retire.state = .formatRunning) :
    Part.LongKept p p.formatTerminated := by
  intro h
  have idle : p.dropLoad.dropRoute.verify = none := by
    rw [Part.dropRoute_verify, Part.dropLoad_verify, Option.isNone_iff_eq_none.mp (h.formatting hf)]
  exact Part.slotsChanged_longKept true _
    { blanking := (nomatch ·), formatting := (nomatch ·), sized := List.length_replicate, queued := fun _ hi => nomatch hi
      claimed := fun i hi => by
        have hnone : Option.map Verify.claim p.dropLoad.dropRoute.verify = some i := hi
        rw [idle] at hnone
        cases hnone }

theorem Part.formatComplete_longKept (code : Nat) (p : Part) : Part.LongKept p (p.formatComplete code) := by
  have scheduled (q : Part) : Part.LongKept q q.rescheduleScrub := fun h => { h with }
  have moved (q : Part) := ((((Part.dropLoad_longKept q).trans (scheduled _)).trans (Part.resumeScanner_only _).longKept).trans
    (Part.raise_only causeOpDone _).longKept).trans (Part.slotsChanged_longKept true _)
  exact fun h => moved _ { h with blanking := (nomatch ·), formatting := (nomatch ·) }

/-! ## SUSPEND, TERMINATE and CLAIM CLOSE (R74, R76, R177) -/

theorem Part.suspendNow_longKept (p : Part) : Part.LongKept p p.suspendNow := by
  refine .ite (fun h => Part.slotsChanged_longKept true _
    (show Part.LongSound _ from { h with blanking := (nomatch ·), formatting := (nomatch ·) })) ?_
  split
  · rename_i v hv
    refine .ite (.refl p) fun h => Part.slotsChanged_longKept true _ ?_
    exact { (hv ▸ h : p.SoundFor (some v)) with blanking := fun _ => rfl }
  · exact .refl p

theorem Part.terminateNow_longKept (p : Part) : Part.LongKept p p.terminateNow := by
  refine .ite (Part.endBlanking_longKept p) ?_
  split
  · exact Part.formatTerminated_longKept (by assumption)
  · exact .ite (Part.abortVerify_longKept p) (.refl p)

/-- A claim whose VERIFY is not in the slot is freed. -/
theorem Part.freeClaim_longKept {p : Part} {i : Nat} (h : p.verifies i = false) : Part.LongKept p (p.freeClaim i) := by
  have other : p.verify.map Verify.claim ≠ some i := by
    unfold Part.verifies at h
    cases hv : p.verify <;> simp_all
  have slot : (p.freeClaim i).verify = p.verify := by
    have released (l : List Nat) : ∀ q : Part,
        (l.foldl (fun p n => p.modSeg n (fun e => { e with holds := e.holds - 1 })) q).verify = q.verify := by
      induction l with
      | nil => exact fun _ => rfl
      | cons n l ih => exact fun q => (ih _).trans (Part.modSeg_storeOnly n _ q).verify
    exact released _ p
  exact fun hp => show (p.freeClaim i).SoundFor _ from slot ▸ Part.freeClaim_soundFor hp other

theorem Part.deferredWork_longKept (w : RunningWork) (ended : Bool) (p : Part) : Part.LongKept p (p.deferredWork w ended) := by
  unfold Part.deferredWork
  split
  · exact .ite (.refl p) (Part.suspendNow_longKept p)
  · exact .ite (.refl p) (Part.terminateNow_longKept p)
  · split
    · exact Part.closeVerify_sound _
    · exact Part.freeClaim_longKept (by simp_all)
  · exact .refl p

theorem Part.afterLongBurst_longKept (ended : Bool) (p : Part) : Part.LongKept p (p.afterLongBurst ended) := by
  have done (w : RunningWork) := (Part.deferredWork_longKept w ended p).trans (Part.endRunning_longKept .done .ok [] _)
  unfold Part.afterLongBurst
  split
  · exact .refl p
  · split
    · exact done _
    · exact done _
    · exact done _
    · exact .refl p

/-! ## Scrub steps and the route controller -/

theorem Part.beginStep_longKept (owed : Nat) (p : Part) : Part.LongKept p (p.beginStep owed) := by
  unfold Part.beginStep
  split <;> exact fun h => { h with }

theorem Part.stepDue_longKept (p : Part) : Part.LongKept p p.stepDue := by
  have scheduled : Part.LongKept p p.rescheduleScrub := fun h => { h with }
  exact .ite (fun h => { scheduled h with }) (scheduled.trans (Part.beginStep_longKept _ _))

theorem Part.endStep_longKept (n : Nat) (p : Part) : Part.LongKept p (p.endStep n) :=
  fun h => Part.scrubTurn_longKept true _ { h with }

theorem Part.checkFault_longKept (n s : Nat) (seq : Option DWord) (cause claim : Word) (p : Part) :
    Part.LongKept p (p.checkFault n s seq cause claim) := by
  refine (Part.checkFault_slotsKept n s seq cause claim p).long ?_
  unfold Part.checkFault
  split
  · rfl
  · split
    · exact (((Part.addFault_only _ _).trans (Part.raise_only _ _)).trans (Part.evidenceFault_only n _)).verify.trans
        (Part.faultSegment_storeOnly n p).verify
    · rfl

theorem Part.scrubSlot_longKept (st : ScrubStep) (ws : List Word) (p : Part) : Part.LongKept p (p.scrubSlot st ws) := by
  refine .ite (fun h => Part.scrubTurn_longKept true _ { h with }) ?_
  dsimp only
  split
  · exact Part.endStep_longKept _ p
  · split
    · exact fun h => { h with }
    · exact Part.endStep_longKept _ p
    · exact (Part.checkFault_longKept _ _ _ _ _ p).trans (Part.endStep_longKept _ _)

theorem Part.holdFields_longKept (h : Held) (p : Part) : Part.LongKept p (p.holdFields h) :=
  .ite (fun h => { h with }) fun h => { h with }

theorem Part.takeSheetBurst_longKept (ws : List Word) (p : Part) : Part.LongKept p (p.takeSheetBurst ws) := by
  have installed (s : Sheet) (check : DWord) (q : Part) : Part.LongKept q (q.installSheet s check) := by
    have loaded (r : Part) : Part.LongKept r (Part.initContexts { r with route := { r.route with state := .loaded } }) :=
      fun h => { h with }
    exact fun h => (((Part.holdFields_longKept s.held _).trans (Part.addRecord_only .event .routeStart _ _).longKept).trans
      (loaded _)).trans (Part.startScanning_only _).longKept { h with }
  have unloaded : Part.LongKept p { p with route := { p.route with load := none } } := fun h => { h with }
  have checked (l : LoadRead) : Part.LongKept p (p.checkSheet l) := by
    unfold Part.checkSheet
    dsimp only
    split
    · exact unloaded.trans (Part.endRunning_longKept _ _ _ _)
    · exact .ite (unloaded.trans (Part.endRunning_longKept _ _ _ _))
        ((unloaded.trans (installed _ _ _)).trans (Part.endRunning_longKept _ _ _ _))
  unfold Part.takeSheetBurst
  split
  · exact .refl p
  · exact .ite (checked _) fun h => { h with }

theorem Part.joinRouteEnd_longKept (p : Part) : Part.LongKept p p.joinRouteEnd := by
  unfold Part.joinRouteEnd
  split
  · exact .refl p
  · exact .ite (fun h => (Part.addRecord_only _ _ _ _).longKept { h with }) (.refl p)

theorem Part.joinOutage_longKept (p : Part) : Part.LongKept p p.joinOutage := by
  unfold Part.joinOutage
  split
  · exact .refl p
  · exact .ite (fun h => (Part.addRecord_only _ _ _ _).longKept { h with }) (.refl p)

theorem Part.closeRoute_longKept (p : Part) : Part.LongKept p p.closeRoute := by
  have closed (q : Part) (st : Stream) : Part.LongKept q (q.closeStream st) := by
    unfold Part.closeStream
    split
    · exact .refl q
    · exact .ite (fun h => { h with }) (Part.closeSegment_storeOnly _ _ q).longKept
  exact .ite (fun h => { ((closed p .sample).trans ((closed _ .event).trans (closed _ .delivery))) h with }) (.refl p)

theorem Part.resumeRoute_longKept (v : Nat) (p : Part) : Part.LongKept p (p.resumeRoute v) := by
  have loaded : Part.LongKept p (Part.initContexts { p with route := { p.route with state := .loaded } }) :=
    fun h => { h with }
  have charged (secs : Nat) (cs : List Nat) :=
    (loaded.trans (Part.chargeOutage_only secs cs _).longKept).trans (Part.startScanning_only _).longKept
  have recorded (q : Part) (r : Route) (c : Clock) : Part.LongKept q { q with route := r, clock := c } := fun h => { h with }
  exact (charged (v - p.clock.mark.getD v)
    (Part.initContexts { p with route := { p.route with state := .loaded } }).chargedComps).trans (recorded _ _ _)

theorem Part.fieldsRead_longKept (value : Word) (dock : Bool) (h : Held) (p : Part) :
    Part.LongKept p (p.fieldsRead value dock h) := by
  have held (q : Part) : Part.LongKept q (if h.inRange then q.holdFields h else q) :=
    .ite (Part.holdFields_longKept h q) (.refl q)
  exact .ite (Part.endRunning_longKept _ _ _ p)
    (.ite (fun hp => Part.endRunning_longKept _ _ _ _ { hp with })
      fun hp => Part.endRunning_longKept _ _ _ _ (held _ { hp with }))

/-! ## The twenty commands (R54, R57) -/

section
variable (p : Part)

theorem Part.done_longKept (rs : List Word) : Part.LongKept p (p.done rs) := fun h => { h with }

theorem Part.refuseCommand_longKept (o : CmdOutcome) : Part.LongKept p (p.refuseCommand o) := fun h => { h with }

theorem Part.startRunning_longKept (w : RunningWork) : Part.LongKept p (p.startRunning w) := fun h => { h with }

theorem Part.cmdWhere_longKept (code : Word) : Part.LongKept p (p.cmdWhere code) := by
  refine .ite (Part.refuseCommand_longKept p _) ?_
  split
  · exact Part.refuseCommand_longKept p _
  · exact .ite (Part.startRunning_longKept p _) (Part.decideWhere_longKept Part.conclude_longKept _ p)

theorem Part.cmdClockSet_longKept (v : Nat) : Part.LongKept p (p.cmdClockSet v) := by
  have set : Part.LongKept p (p.setClock v) := fun h => { h with }
  exact .ite (Part.refuseCommand_longKept p _) (.ite (Part.refuseCommand_longKept p _)
    ((LongKept.ite (set.trans (Part.resumeRoute_longKept v _)) set).trans (Part.done_longKept _ _)))

theorem Part.cmdClaimOpen_longKept (id : DWord) : Part.LongKept p (p.cmdClaimOpen id) := by
  refine .ite (Part.refuseCommand_longKept p _) (.ite (Part.refuseCommand_longKept p _) ?_)
  split
  · exact Part.refuseCommand_longKept p _
  · rename_i i hi
    have entry : i < 8 := List.mem_range.mp (List.mem_of_find?_eq_some hi)
    have queued (h : p.LongSound) : Part.SoundFor { p with claimQueue := p.claimQueue ++ [i] } p.verify :=
      { h with queued := fun j hj => (List.mem_append.mp hj).elim (h.queued j) fun he => List.mem_singleton.mp he ▸ entry }
    have opened : Part.LongKept p (Part.modClaim i (fun _ => { Claim.free with state := .queued, id := some id })
        { p with claimQueue := p.claimQueue ++ [i] }) :=
      fun h => Part.modClaim_slotsKept i _ _ (by exact fun _ _ => rfl) _ (queued h)
    exact (opened.trans (Part.slotsChanged_longKept false _)).trans (Part.done_longKept _ _)

theorem Part.cmdClaimClose_longKept (index : Word) : Part.LongKept p (p.cmdClaimClose index) := by
  unfold Part.cmdClaimClose
  split
  · exact Part.refuseCommand_longKept p _
  · rename_i i _
    split
    · exact .ite (Part.startRunning_longKept p _) fun h => Part.done_longKept _ _ (Part.closeVerify_sound i h)
    · rename_i hv
      have dequeued : Part.LongKept p { p with claimQueue := p.claimQueue.filter (· != i) } :=
        fun h => { h with queued := fun j hj => h.queued j (List.mem_of_mem_filter hj) }
      have other : p.verifies i = false := by simpa using hv
      exact (dequeued.trans (Part.freeClaim_longKept other)).trans (Part.done_longKept _ _)

/-- A suspended blanking goes on only while no VERIFY runs, and a suspended VERIFY only while no other operation does (R75). -/
theorem Part.cmdResume_longKept : Part.LongKept p p.cmdResume := by
  have moved (q : Part) := (Part.slotsChanged_longKept false q).trans (Part.done_longKept _ [])
  unfold Part.cmdResume
  split
  · split
    · exact Part.refuseCommand_longKept p _
    · rename_i hv
      exact fun h => moved _ (show Part.LongSound _ from { h with
        blanking := fun _ => (p.verifyRunning_false_iff).mp (by simpa using hv), formatting := (nomatch ·) })
  · split
    · exact Part.refuseCommand_longKept p _
    · rename_i v hv
      split
      · exact Part.refuseCommand_longKept p _
      · split
        · exact Part.refuseCommand_longKept p _
        · rename_i hl
          intro h
          have sound : p.SoundFor (some v) := hv ▸ h
          have resumed : Part.LongSound { p with verify := some { v with suspended := false } } :=
            { sound with blanking := fun hb => absurd hb (by simp_all [Part.longRunning]) }
          exact moved _ (Part.passCheck_longKept _ (Part.retestWalk_longKept _ resumed))

theorem Part.cmdServiceEnter_longKept (value : Word) (dock : Bool) : Part.LongKept p (p.cmdServiceEnter value dock) := by
  have refused (o : CmdOutcome) := Part.refuseCommand_longKept p o
  refine .ite (refused _) (.ite (refused _) (.ite (refused _) ?_))
  split
  · exact Part.startRunning_longKept p _
  · exact .ite (fun h => { h with }) fun h => { h with }

theorem Part.cmdRetire_longKept (segment : Word) : Part.LongKept p (p.cmdRetire segment) := by
  have refused (o : CmdOutcome) := Part.refuseCommand_longKept p o
  unfold Part.cmdRetire
  dsimp only
  split
  · exact refused _
  · exact .ite (refused _) (.ite (refused _) (.ite (refused _) (.ite (refused _) (.ite (refused _)
      fun h => { h with blanking := (nomatch ·), formatting := (nomatch ·) }))))

theorem Part.cmdFormat_longKept (code : Word) (dock : Bool) : Part.LongKept p (p.cmdFormat code dock) := by
  have refused (o : CmdOutcome) := Part.refuseCommand_longKept p o
  refine .ite (refused _) (.ite (refused _) (.ite (refused _) ?_))
  split
  · exact refused _
  · rename_i hc
    exact .ite (refused _) ((Part.startFormat_longKept (by simpa using hc) _).trans (Part.done_longKept _ _))

theorem Part.carryOut_longKept (c : Command) (ps : List Word) (dock : Bool) : Part.LongKept p (p.carryOut c ps dock) := by
  have refused (o : CmdOutcome) := Part.refuseCommand_longKept p o
  cases c with
  | report => exact Part.done_longKept p _
  | acknowledge => exact .ite (refused _) fun h => { h with }
  | identity => exact Part.done_longKept p _
  | whereIs => exact Part.cmdWhere_longKept p _
  | clockSet => exact Part.cmdClockSet_longKept p _
  | routeLoad => exact .ite (refused _) (.ite (refused _) (.ite (refused _) fun h => { h with }))
  | routeEnd =>
    exact .ite (refused _) (.ite (refused _) fun h => Part.done_longKept _ _ (Part.joinRouteEnd_longKept _ { h with }))
  | rescan => exact .ite (refused _) (.ite (refused _) (.ite (refused _) fun h => { h with }))
  | audit => exact .ite (refused _) (.ite (refused _) fun h => { h with })
  | claimOpen => exact Part.cmdClaimOpen_longKept p _
  | claimRead =>
    show Part.LongKept p (p.cmdClaimRead _)
    unfold Part.cmdClaimRead
    split
    · exact refused _
    · exact Part.done_longKept p _
  | claimClose => exact Part.cmdClaimClose_longKept p _
  | progress => exact Part.done_longKept p _
  | suspend =>
    exact .ite (refused _) (.ite (refused _) (.ite (Part.startRunning_longKept p _)
      ((Part.suspendNow_longKept p).trans (Part.done_longKept _ _))))
  | resume => exact Part.cmdResume_longKept p
  | terminate =>
    exact .ite (refused _) (.ite (Part.startRunning_longKept p _)
      ((Part.terminateNow_longKept p).trans (Part.done_longKept _ _)))
  | serviceEnter => exact Part.cmdServiceEnter_longKept p _ dock
  | serviceLeave => exact .ite ((Part.leaveService_longKept p).trans (Part.done_longKept _ _)) (refused _)
  | retire => exact Part.cmdRetire_longKept p _
  | format => exact Part.cmdFormat_longKept p _ dock

theorem Part.judge_longKept (c : Command) (ps : List Word) (dock : Bool) : Part.LongKept p (p.judge c ps dock) :=
  .ite (Part.refuseCommand_longKept p _) (.ite (Part.refuseCommand_longKept p _)
    (.ite (fun h => { h with }) (Part.carryOut_longKept p c ps dock)))

end

/-! ## The gate (R51 to R53) -/

theorem Part.gateWrite_longKept (a : Addr) (d : Word) (dock : Bool) (p : Part) :
    Part.LongKept p (p.gateWrite a d dock).1 := by
  have taken (k : Addr) (c : Command) : Part.LongKept p (p.takeCommand k c dock) :=
    .ite (fun h => Part.judge_longKept _ _ _ _ { h with }) fun h => { h with }
  have collected (k : Addr) (c : Command) (got : List Word) : Part.LongKept p (p.takeParameter k c got d dock) :=
    .ite (fun h => Part.judge_longKept _ _ _ _ { h with }) fun h => { h with }
  unfold Part.gateWrite
  split
  · split <;> exact fun h => { h with }
  · split <;> exact fun h => { h with }
  · split
    · split
      · exact taken _ _
      · exact fun h => { h with }
    · exact fun h => { h with }
  · split
    · exact collected _ _ _
    · exact fun h => { h with }

theorem Part.arrive_longKept (a : Addr) (d : Word) (dock : Bool) (p : Part) : Part.LongKept p (p.arrive a d dock).1 :=
  have met : Part.LongKept p (if p.collecting then p else p.endPresentation) := .ite (.refl p) fun h => { h with }
  met.trans (Part.gateWrite_longKept _ _ _ _)

/-! ## Accesses at the port (R29 to R45) -/

theorem Part.refuseWrite_longKept (a : Addr) (c : RefusalCause) (p : Part) : Part.LongKept p (p.refuseWrite a c) :=
  fun h => { h with }

theorem State.forward_longKept {a : Addr} {d : Word} {s t : State} (h : s.forward a d = some t) :
    Part.LongKept s.part t.part := by
  rw [State.forward_part h]
  exact fun hs => { hs with }

theorem State.acceptWord_longKept {a : Addr} {d : Word} {n : Nat} {x : Assembly} {s t : State}
    (h : s.acceptWord a d n x = some t) : Part.LongKept s.part t.part := by
  unfold State.acceptWord at h
  simp only at h
  split at h
  · cases h
  · rename_i u hu
    cases h
    have noted (q : Part) (y : Assembly) : Part.LongKept q { x.noteFloor n q with asm := some y } := by
      unfold Assembly.noteFloor
      split <;> exact fun h => { h with }
    have placed := (State.forward_longKept hu).trans (noted u.part (x.takeWord d n (s.part.stream x.stream).running).2)
    exact .ite (placed.trans (Part.commitRecord_longKept _)) placed

theorem State.writeRecord_longKept {a : Addr} {d : Word} {n : Nat} {s t : State} (h : s.writeRecord a d n = some t) :
    Part.LongKept s.part t.part := by
  unfold State.writeRecord at h
  simp only at h
  split at h
  · exact State.acceptWord_longKept h
  · split at h
    · cases h; exact Part.refuseWrite_longKept _ _ _
    · split at h
      · cases h
      · obtain ⟨u, hu, rfl⟩ := Option.map_eq_some_iff.mp h
        exact fun hs => { State.forward_longKept hu hs with }

theorem State.classify_longKept {a : Addr} {d : Word} {n : Nat} {m : Option Mode} {s t : State}
    (h : s.classify a d n m = some t) : Part.LongKept s.part t.part := by
  have refused (c : RefusalCause) := Part.refuseWrite_longKept a c s.part
  unfold State.classify at h
  simp only at h
  split at h
  · exact State.forward_longKept h
  · cases h; exact refused _
  · split at h
    · split at h
      · cases h; exact refused _
      · split at h
        · split at h
          · cases h; exact refused _
          · obtain ⟨u, hu, rfl⟩ := Option.map_eq_some_iff.mp h
            exact fun hs => { State.forward_longKept hu hs with }
        · exact State.forward_longKept h
    · split at h
      · cases h; exact refused _
      · split at h
        · cases h
        · exact State.writeRecord_longKept h

theorem State.place_longKept {a : Addr} {d : Word} {n : Nat} {m : Option Mode} {s t : State} {more : List Work}
    (h : s.place a d n m = some (t, more)) : Part.LongKept s.part t.part := by
  unfold State.place at h
  simp only at h
  split at h
  · have broken := Part.voidAssembly_longKept n true s.part
    split at h
    · rename_i u hu
      cases h
      exact broken.trans (State.classify_longKept hu)
    · split at h
      · cases h
      · cases h; exact broken
  · obtain ⟨u, hu, he⟩ := Option.map_eq_some_iff.mp h
    cases he
    exact State.classify_longKept hu

theorem State.modeRead_longKept {a : Addr} {s t : State} (h : s.modeRead a = some t) : Part.LongKept s.part t.part := by
  unfold State.modeRead at h
  simp only at h
  split at h
  · cases h; exact .refl _
  · split at h
    · cases h; exact .refl _
    · split at h
      · cases h
      · split at h
        · cases h; exact fun hs => { hs with }
        · cases h

theorem State.arriveRead_longKept (a : Addr) (s : State) : Part.LongKept s.part (s.arriveRead a).1.part := by
  unfold State.arriveRead
  simp only
  split
  · exact fun h => { h with }
  · split
    · split <;> exact fun h => { h with }
    · split <;> exact .refl _
    · exact .refl _

theorem State.tryWork_longKept {w : Work} {s t : State} {more : List Work} (h : s.tryWork w = some (t, more)) :
    Part.LongKept s.part t.part := by
  cases w with
  | write a d dock => cases h; exact Part.arrive_longKept a d dock s.part
  | gate a d dock => cases h; exact Part.gateWrite_longKept a d dock s.part
  | read a =>
    have := State.arriveRead_longKept a s
    rwa [Option.some.inj h] at this
  | police a d m =>
    simp only [State.tryWork, State.police] at h
    split at h
    · cases h
    · cases h; exact .refl _
  | place a d n m => exact State.place_longKept h
  | modeRead a =>
    obtain ⟨u, hu, he⟩ := Option.map_eq_some_iff.mp h
    cases he
    exact State.modeRead_longKept hu

theorem State.pump_longKept (n : Nat) : ∀ s : State, Part.LongKept s.part (s.pump n).part := by
  induction n with
  | zero => exact fun s => .refl _
  | succ n ih =>
    intro s
    unfold State.pump
    split
    · exact .refl _
    · split
      · exact .refl _
      · rename_i t more ht
        exact (State.tryWork_longKept ht).trans (ih (t.setWaiting (more ++ _)))

theorem State.settle_longKept (s : State) : Part.LongKept s.part s.settle.part := by
  have pumped := State.pump_longKept (8 * s.port.waiting.length) s
  unfold State.settle
  simp only
  split
  · exact pumped.trans (Part.grantPort_longKept _)
  · exact pumped

theorem State.access_longKept (w : Work) (s : State) : Part.LongKept s.part (s.access w).part := by
  unfold State.access
  dsimp only
  split
  · exact State.settle_longKept (s.setWaiting (s.port.waiting ++ [w]))
  · split <;> exact .refl _

theorem State.giveCommand_longKept (a : Addr) (c : Command) (ps : List Word) (dock : Bool) (s : State) :
    Part.LongKept s.part (s.giveCommand a c ps dock).part := by
  have fold (ds : List Word) : ∀ t : State,
      Part.LongKept t.part (ds.foldl (fun s d => s.access (.write a d dock)) t).part := by
    induction ds with
    | nil => exact fun t => .refl _
    | cons d ds ih => exact fun t => (State.access_longKept _ t).trans (ih _)
  exact fun h => fold _ { s with part := s.part.setDock dock } { h with }

end Sys2Proof.Machine


/-! # Proofs: every row keeps one long operation at a time (R73) -/

namespace Sys2Proof.Machine

/-! ## The rows of bursts -/

theorem Part.endBurst_longKept (p : Part) : Part.LongKept p p.endBurst := fun h => { h with }

theorem State.fieldBurst_longKept (dock : Bool) (s : State) : Part.LongKept s.part (s.fieldBurst dock).part := by
  unfold State.fieldBurst
  dsimp only
  split
  · exact fun h => Part.fieldsRead_longKept _ _ _ _ { h with }
  · exact fun h => { h with }

theorem State.writeDirect_longKept (s : State) : Part.LongKept s.part s.writeDirect.part := by
  have answered (e : DirectEntry) (p : Part) : Part.LongKept p
      (if e.kind = .answer then p.modStream .delivery (fun x => { x with reserved := none }) else p) :=
    .ite (fun h => { h with }) (.refl p)
  have granted (q : Part) : Part.LongKept q q.grant2 := fun h => { h with }
  unfold State.writeDirect
  split
  · exact .refl _
  · exact fun h => granted _ (answered _ _ { h with })

theorem State.writeCondition_longKept (s : State) : Part.LongKept s.part s.writeCondition.part := by
  unfold State.writeCondition
  split
  · exact .refl _
  · exact fun h => { (Part.modSeg_storeOnly _ _ s.part).longKept h with }

theorem Part.serveHead_longKept (p : Part) : Part.LongKept p p.serveHead := by
  have started (t : Taken) (q : Part) : Part.LongKept q (q.startRecordBurst t) := fun h => { h with }
  have taken (q : QueueEntry) (rest : List QueueEntry) (n k : Nat) : Part.LongKept p (p.commitHead q rest n k) :=
    fun h => started _ _ ((Part.slotConsumed_storeOnly _ _ _ _ _).longKept
      ((Part.advanceStream_storeOnly _ _ _ _).longKept { h with }))
  unfold Part.serveHead
  split
  · exact .refl p
  · split
    · exact started _ p
    · split
      · exact taken _ _ _ _
      · exact .ite (.refl p) (Part.needSegment_storeOnly _ p).longKept

theorem State.writeRecordBurst_longKept (s : State) : Part.LongKept s.part s.writeRecordBurst.part := by
  have left (p : Part) : Part.LongKept p p.headWritten := by
    unfold Part.headWritten
    split
    · exact .refl p
    · rename_i rest _
      have resumed : Part.LongKept p (Part.resumeScanner { p with queue := rest }) :=
        fun h => (Part.resumeScanner_only _).longKept { h with }
      exact .ite (.ite (resumed.trans (Part.closeRoute_longKept _)) resumed) (.refl p)
  unfold State.writeRecordBurst
  split
  · exact (Part.endBurst_longKept s.part).trans (left _)
  · exact .refl _

theorem Part.joinOwedRecords_longKept (p : Part) : Part.LongKept p p.joinOwedOutage.joinOwedRestart := by
  have outage : Part.LongKept p p.joinOwedOutage := by
    unfold Part.joinOwedOutage
    split
    · exact .ite (fun h => (Part.addRecord_only _ _ _ _).longKept { h with }) (.refl p)
    · exact .refl p
  have restart (q : Part) : Part.LongKept q q.joinOwedRestart := by
    unfold Part.joinOwedRestart
    split
    · exact .ite (fun h => (Part.addRecord_only _ _ _ _).longKept { h with }) (.refl q)
    · exact .refl q
  exact outage.trans (restart _)

theorem State.markNext_longKept (s : State) : Part.LongKept s.part s.markNext.part := by
  have marked := Part.takeNextSeg_longKept s.part
  unfold State.markNext
  dsimp only
  split
  · split
    · exact fun h => { marked h with }
    · exact marked
  · exact marked

theorem State.blankBurst_longKept (s : State) : Part.LongKept s.part s.blankBurst.part := by
  have ended := Part.endBurst_longKept s.part
  unfold State.blankBurst
  dsimp only
  split
  · exact fun h => Part.afterLongBurst_longKept _ _ { ended h with }
  · split
    · exact .ite (fun h => Part.afterLongBurst_longKept _ _ { ended h with })
        ((ended.trans (Part.segBlanked_longKept _ _)).trans (Part.afterLongBurst_longKept _ _))
    · exact ended
  · exact ended

theorem State.formatBurst_longKept (s : State) : Part.LongKept s.part s.formatBurst.part := by
  have ended := Part.endBurst_longKept s.part
  unfold State.formatBurst
  dsimp only
  split
  · exact ended
  · split
    · exact fun h => Part.afterLongBurst_longKept _ _ { ended h with }
    · exact fun h => Part.afterLongBurst_longKept _ _ { ended h with }
    · exact (ended.trans (Part.formatComplete_longKept _ _)).trans (Part.afterLongBurst_longKept _ _)

theorem State.verifyBurst_longKept (s : State) : Part.LongKept s.part s.verifyBurst.part := by
  have ended := Part.endBurst_longKept s.part
  unfold State.verifyBurst
  dsimp only
  split
  · exact ended
  · rename_i v hv
    exact ((ended.trans (Part.verifySlot_longKept hv _)).trans (Part.afterLongBurst_longKept _ _)).trans
      (Part.passCheck_longKept _)

theorem State.scrubBurst_longKept (s : State) : Part.LongKept s.part s.scrubBurst.part := by
  have ended := Part.endBurst_longKept s.part
  unfold State.scrubBurst
  dsimp only
  split
  · exact ended
  · exact ended.trans (Part.scrubSlot_longKept _ _ _)

theorem Part.dockFalls_longKept (p : Part) : Part.LongKept p p.dockFalls := by
  have low : Part.LongKept p (p.setDock false) := fun h => { h with }
  exact .ite (low.trans (Part.leaveService_longKept _)) low

/-! ## The route clock, the restarts and the mount (chapter 10) -/

theorem Part.advanceClock_longKept (p : Part) : Part.LongKept p p.advanceClock :=
  .ite (fun h => { h with }) fun h => { h with }

/-- After a cold restart no operation runs and no claim is in use (R60, R164, R203). -/
theorem Part.longSound_cold {p : Part} (hr : p.retire = Part.cold.retire) (hv : p.verify = none)
    (hc : p.claims = Part.cold.claims) (hq : p.claimQueue = []) : p.LongSound where
  blanking := fun h => by rw [hr] at h; cases h
  formatting := fun h => by rw [hr] at h; cases h
  claimed := fun i hi => by rw [hv] at hi; cases hi
  queued := fun i hi => by rw [hq] at hi; cases hi
  sized := by rw [hc]; rfl

theorem Part.restartOperation_longKept (p : Part) : Part.LongKept p p.restartOperation := by
  unfold Part.restartOperation
  split
  · exact Part.terminateNow_longKept p
  · rename_i v hv
    exact .ite (fun h => Part.scrubTurn_longKept true _
      (show Part.LongSound _ from { (Part.abortClaim_slotsKept v p _ h).vacated with })) (Part.terminateNow_longKept p)

theorem Part.restartShared_longKept (dock : Bool) (p : Part) : Part.LongKept p (p.restartShared dock) := by
  have channel : Part.LongKept p (Part.restartChannel { p with power := .on }) := fun h => { h with }
  have scrub (q : Part) : Part.LongKept q q.restartScrub := by
    unfold Part.restartScrub
    split
    · exact .refl q
    · exact fun h => { h with }
  have window (q : Part) : Part.LongKept q q.restartWindow := .ite (fun h => { h with }) (.refl q)
  have mode (q : Part) : Part.LongKept q (q.restartMode dock) :=
    .ite (fun h => Part.discardCollecting_longKept _ { h with }) fun h => { h with }
  exact (((((channel.trans (Part.voidAssembly_longKept _ _ _)).trans (scrub _)).trans (window _)).trans (mode _)).trans
    (Part.restartScanner_only _).longKept).trans (Part.restartOperation_longKept _)

theorem Part.warmRestart_longKept (dock : Bool) (p : Part) : Part.LongKept p (p.warmRestart dock) := by
  have charged (ended : Ended) (voided : Option (Stream × Nat × Nat)) (q : Part) :
      Part.LongKept q (q.chargeRestart ended voided) :=
    fun h => { (Part.chargeOutage_only (q.clock.now - q.backup.supplyFail) q.chargedComps q).longKept h with }
  have scheduled (q : Part) : Part.LongKept q q.rescheduleScrub := fun h => { h with }
  exact (((Part.restartShared_longKept dock p).trans (Part.closeIntervals_only _).longKept).trans (charged _ _ _)).trans
    (scheduled _)

theorem Part.completeNewest_storeOnly (hs : List Found) (m : Memory) (p : Part) :
    Part.StoreOnly p (p.completeNewest hs m).1 := by
  have answered (ans : Answer) (t n s : Nat) (q : Part) : Part.StoreOnly q (q.mountAnswer ans t n s) :=
    (((Part.advanceStream_storeOnly .delivery n _ q).trans (Part.pushDirect_storeOnly _ _)).trans
      (Part.slotConsumed_storeOnly _ _ _ _ _)).trans (Part.modSeg_storeOnly _ _ _)
  have spot (n s : Nat) : Part.StoreOnly p (p.answerSpot n s).1 := by
    unfold Part.answerSpot
    split
    · exact .refl p
    · split
      · exact .refl p
      · exact Part.openSegment_storeOnly _ p
  unfold Part.completeNewest
  split
  · exact .refl p
  · rename_i n s _
    have spotted := spot n s
    dsimp only
    split
    · split <;> rename_i q _ hq <;> rw [hq] at spotted
      · exact spotted.trans (answered _ _ _ _ _)
      · exact spotted
    · exact .refl p

theorem Part.recoverRoute_longKept (m : Memory) (p : Part) : Part.LongKept p (p.recoverRoute m).1 := by
  cases h : unfinishedRoute (p.recordsOf .event m) with
  | none => simp only [Part.recoverRoute, h]; exact .refl p
  | some found =>
    simp only [Part.recoverRoute, h]
    split
    · exact fun hp => { hp with }
    · exact .refl p

theorem Part.mountStore_longKept (m : Memory) (p : Part) : Part.LongKept p (p.mountStore m).part := by
  unfold Part.mountStore
  extract_lets hs clock x store q
  have mounted : Part.LongKept p q := fun h => { h with }
  have completed := mounted.trans (Part.completeNewest_storeOnly hs x.mem q).longKept
  generalize q.completeNewest hs x.mem = c at completed ⊢
  obtain ⟨r, answered⟩ := c
  have cleared : Part.LongKept r r.clearDirect := fun h => { h with }
  have recovered := (completed.trans cleared).trans (Part.recoverRoute_longKept (x.mem.writeAll r.directWrites) _)
  dsimp only
  generalize r.clearDirect.recoverRoute (x.mem.writeAll r.directWrites) = c at recovered ⊢
  obtain ⟨t, found⟩ := c
  have low : Part.LongKept t (if t.store.pool.length ≤ 4 then t.raise causeStoreLow else t) :=
    .ite (Part.raise_only _ t).longKept (.refl t)
  have ended (u : Part) : Part.LongKept u u.mountEnds := fun h => { h with }
  exact ((recovered.trans low).trans (ended _)).trans (Part.addRecord_only _ _ _ _).longKept

theorem State.mount_longKept (s : State) : Part.LongKept s.part s.mount.part := by
  unfold State.mount
  split
  · exact Part.mountStore_longKept s.mem s.part
  · exact fun h => { h with }

/-! ## Every row -/

theorem State.longKept_ite {c : Prop} [Decidable c] {s t : State} (h : Part.LongKept s.part t.part) :
    Part.LongKept s.part (if c then t else s).part := by
  split
  · exact h
  · exact .refl _

/-- A row that acts on the part, after which what can now happen happens. -/
theorem State.longKept_settled {c : Prop} [Decidable c] {s t : State} (h : Part.LongKept s.part t.part) :
    Part.LongKept s.part (if c then t.settle else s).part :=
  State.longKept_ite (h.trans (State.settle_longKept t))

/-- A row that acts on the evidence tables alone. -/
theorem State.longKept_evidence {c d : Prop} [Decidable c] [Decidable d] {s : State} {q : Part} (h : Part.EvidenceOnly s.part q) :
    Part.LongKept s.part (if c then { s with part := if d then q else s.part } else s).part :=
  State.longKept_ite (t := { s with part := if d then q else s.part }) (.ite h.longKept (.refl _))

/-- Every row keeps one long operation at a time. -/
theorem exec_longKept {i : Instr} {s t : State} (h : exec i s = .next t) : Part.LongKept s.part t.part := by
  cases hg : s.given i with
  | some g =>
    obtain ⟨a, c, ps, dock⟩ := g
    rw [(State.exec_given hg).1] at h
    cases h
    exact State.giveCommand_longKept a c ps dock s
  | none =>
    cases i <;> simp only [State.given, reduceCtorEq] at hg
    case upstreamWrite a d dock =>
      cases h
      exact fun hs => State.access_longKept _ { s with part := s.part.setDock dock } { hs with }
    case upstreamRead a => cases h; exact State.access_longKept _ s
    case routeLoadReadBurst =>
      cases h
      exact State.longKept_settled ((Part.endBurst_longKept s.part).trans (Part.takeSheetBurst_longKept _ _))
    case serviceEnterReadEnd dock => cases h; exact State.longKept_settled (State.fieldBurst_longKept dock s)
    case directWriteComplete => cases h; exact State.longKept_settled (State.writeDirect_longKept s)
    case conditionRewrite => cases h; exact State.longKept_settled (State.writeCondition_longKept s)
    case recordWriterWriteComplete => cases h; exact State.longKept_settled (State.writeRecordBurst_longKept s)
    case blankingMark => cases h; exact State.longKept_settled (State.markNext_longKept s)
    case blankingBurst => cases h; exact State.longKept_settled (State.blankBurst_longKept s)
    case formatBurst => cases h; exact State.longKept_settled (State.formatBurst_longKept s)
    case verifyBurst => cases h; exact State.longKept_settled (State.verifyBurst_longKept s)
    case scrubBurst => cases h; exact State.longKept_settled (State.scrubBurst_longKept s)
    case recordWriterServe => cases h; exact State.longKept_settled (Part.serveHead_longKept s.part)
    case collectionWindowExpiry => cases h; exact State.longKept_settled (Part.windowExpires_longKept s.part)
    case verifyStart => cases h; exact State.longKept_settled (Part.slotsChanged_longKept false s.part)
    case extractRecordAdd => cases h; exact State.longKept_settled (Part.extractStep_longKept s.part)
    case scrubStepDue => cases h; exact State.longKept_settled (Part.stepDue_longKept s.part)
    case routeEndRecordJoin => cases h; exact State.longKept_ite (Part.joinRouteEnd_longKept s.part)
    case outageRecordJoin => cases h; exact State.longKept_ite (Part.joinOutage_longKept s.part)
    case restartRecordsJoin => cases h; exact State.longKept_ite (Part.joinOwedRecords_longKept s.part)
    case withheldSummary => cases h; exact State.longKept_evidence (Part.withheldSummary_only s.part)
    case gapTimerExpiry c => cases h; exact State.longKept_evidence (Part.expireGapTimer_only c s.part)
    case continuousExcursionDeadline i => cases h; exact State.longKept_evidence (Part.expireDeadline_only i s.part)
    case scanVisit lines =>
      have visited : Part.LongKept s.part (s.part.scanVisit lines) := by
        unfold Part.scanVisit
        dsimp only
        split <;> exact fun hs => (Part.visit_only _ _ _ _ _).longKept { hs with }
      cases h; exact State.longKept_ite (.ite visited (.refl _))
    case lineWatchSample lines => cases h; exact State.longKept_ite (.ite (fun hs => { hs with }) (.refl _))
    case dwell => cases h; exact State.longKept_evidence (Part.dwellStep_only s.part)
    case dockFall =>
      cases h
      split
      · exact (Part.dockFalls_longKept s.part).trans (State.settle_longKept { s with part := s.part.dockFalls })
      · exact fun hs => { hs with }
    case resetAssert cut => cases h; exact State.longKept_ite fun hs => { hs with }
    case supplyFail cut =>
      cases h
      split
      · exact .refl _
      · exact fun hs => { hs with }
    case reset dock =>
      cases h
      exact State.longKept_settled (t := { s with mem := s.restartMem, part := s.part.restartShared dock })
        (Part.restartShared_longKept dock s.part)
    case warmRestart dock =>
      cases h
      exact State.longKept_settled (t := { s with mem := s.restartMem, part := s.part.warmRestart dock })
        (Part.warmRestart_longKept dock s.part)
    case coldRestart checkFails =>
      cases h; exact State.longKept_ite fun _ => Part.longSound_cold rfl rfl rfl rfl
    case mountEnd =>
      cases h
      exact State.longKept_settled (t := { s with mem := s.mem.writeAll s.mount.writes, part := s.mount.part })
        s.mount_longKept
    case routeClockAdvance => cases h; exact State.longKept_ite (Part.advanceClock_longKept s.part)
    case backupDomainLoss => cases h; exact State.longKept_ite fun _ => Part.longSound_cold rfl rfl rfl rfl

/-- Settles O5: every row keeps the invariant, each unit by what it can do to the two slots and to the claims. -/
theorem everyStepKeepsOneLongOperation : Obligations.EveryStepKeepsOneLongOperation := by
  intro s t hs h
  rw [Part.longSound_iff] at hs ⊢
  obtain rfl | ⟨c, rest, -, hx⟩ := step_cases h
  · exact hs
  · exact exec_longKept hx hs

end Sys2Proof.Machine

/-! # Proofs: what starts when a slot has changed (R73, R164, R189) -/

namespace Sys2Proof.Machine

/-! ## The three parts of a change -/

theorem Part.beginWaiting_eq (p : Part) : p.beginWaiting = { p with retire := p.beginWaiting.retire } := by
  unfold Part.beginWaiting
  split <;> rfl

theorem Part.beginWaiting_begins {p : Part} (h : p.retire.state = .waiting) (hv : p.verifyRunning = false) :
    p.beginWaiting = { p with retire := { p.retire with state := .blanking } } :=
  if_pos ⟨h, by simp [hv]⟩

theorem Part.beginWaiting_stays {p : Part} (h : p.retire.state ≠ .waiting ∨ p.verifyRunning = true) :
    p.beginWaiting = p :=
  if_neg fun ⟨hw, hv⟩ => h.elim (absurd hw) fun hr => by simp [hr] at hv

/-- A batch that begins to blank permits a VERIFY no more than one that waited. -/
theorem Part.beginWaiting_slotPermits (p : Part) : p.beginWaiting.slotPermits = p.slotPermits := by
  unfold Part.beginWaiting
  split
  case isTrue h => rw [Part.slotPermits, Part.slotPermits, h.1]; rfl
  case isFalse => rfl

theorem Part.slotPermits_iff (p : Part) :
    p.slotPermits = true ↔ p.retire.state = .empty ∨ p.retire.state = .collecting ∨ p.retire.state = .suspended := by
  simp [Part.slotPermits, or_assoc]

theorem Part.startVerify_eq (p : Part) : p.startVerify =
    { p with verify := p.startVerify.verify, claimQueue := p.startVerify.claimQueue, claims := p.startVerify.claims } := by
  unfold Part.startVerify Part.modClaim
  repeat' split
  all_goals rfl

theorem Part.startVerify_starts {p : Part} {i : Nat} {rest : List Nat} (hv : p.verify = none) (hq : p.claimQueue = i :: rest)
    (h : p.slotPermits = true) : p.startVerify = { p with
      claimQueue := rest
      verify := some (Verify.start i)
      claims := p.claims.modify i (fun c => { c with state := .verifying }) } := by
  unfold Part.startVerify
  rw [hv, hq]
  exact if_pos h

theorem Part.startVerify_stays {p : Part} (h : p.verify ≠ none ∨ p.claimQueue = [] ∨ p.slotPermits = false) :
    p.startVerify = p := by
  unfold Part.startVerify
  split
  next hv hq => exact if_neg (by simpa [hv, hq] using h)
  next => rfl

theorem Part.scrubTurn_abandons {p : Part} (h : p.longRunning = true) (ended : Bool) : p.scrubTurn ended = p.abandonStep :=
  if_pos h

theorem Part.scrubTurn_begins {p : Part} (h : p.longRunning = false) (hs : p.scrub.step = none) (ho : 0 < p.scrub.owed) :
    p.scrubTurn true = p.beginStep (p.scrub.owed - 1) := by
  unfold Part.scrubTurn
  rw [if_neg (by simp [h]), if_pos ⟨rfl, by simp [hs], ho⟩]

theorem Part.scrubTurn_stays {p : Part} {ended : Bool} (h : p.longRunning = false)
    (hs : ended = false ∨ p.scrub.step ≠ none ∨ p.scrub.owed = 0) : p.scrubTurn ended = p := by
  unfold Part.scrubTurn
  rw [if_neg (by simp [h]), if_neg]
  rintro ⟨he, hstep, howed⟩
  obtain h | h | h := hs
  · simp [h] at he
  · simp [h] at hstep
  · omega

theorem Part.abandonStep_none {p : Part} (h : p.scrub.step = none) : p.abandonStep = p := by
  simp [Part.abandonStep, h]

theorem Part.abandonStep_between {p : Part} (h : p.scrub.step ≠ none) (hb : p.arb.burst ≠ some .scrub) :
    p.abandonStep = { p with scrub := { p.scrub with step := none, owed := sat8 (p.scrub.owed + 1) } } := by
  obtain ⟨st, hst⟩ := Option.ne_none_iff_exists'.mp h
  simp [Part.abandonStep, hst, hb]

/-- What starts in the slots lies in the fields of the slots and the claims. -/
theorem Part.starts_eq (p : Part) : p.beginWaiting.startVerify = { p with
    retire := p.beginWaiting.retire
    verify := p.beginWaiting.startVerify.verify
    claimQueue := p.beginWaiting.startVerify.claimQueue
    claims := p.beginWaiting.startVerify.claims } := by
  unfold Part.startVerify Part.beginWaiting Part.modClaim
  repeat' split
  all_goals rfl

/-! ## The segment a step begins with -/

theorem Part.segIsClosed_succ (p : Part) (k : Nat) :
    p.segIsClosed (k + 1) = p.store.segs[k]?.any (fun g => g.state == .closed) := by
  unfold Part.segIsClosed
  rw [Part.seg_pos (by omega)]
  cases h : p.store.segs[k]? <;> simp [h]

/-- The first CLOSED segment at or above the scrub pointer is the one chosen. -/
theorem Part.scrubChoice_ahead {p : Part} {n : Nat} {e : SegEntry} (hn : p.store.segs[n]? = some e) (hc : e.state = .closed)
    (hp : p.scrub.pointer ≤ n + 1)
    (hbelow : ((p.store.segs.take n).drop (p.scrub.pointer - 1)).all (fun g => g.state != .closed) = true) :
    p.scrubChoice = some (n + 1) := by
  obtain ⟨hlt, -⟩ := List.getElem?_eq_some_iff.mp hn
  have open_ (k : Nat) (hk : k < n) (hpk : p.scrub.pointer ≤ k + 1) : p.segIsClosed (k + 1) = false := by
    rw [List.all_eq_true] at hbelow
    have mem : p.store.segs[k] ∈ (p.store.segs.take n).drop (p.scrub.pointer - 1) :=
      List.mem_drop_iff_getElem.mpr ⟨k - (p.scrub.pointer - 1), by simp; omega, by simp; congr 1; omega⟩
    have := hbelow _ mem
    rw [Part.segIsClosed_succ, List.getElem?_eq_getElem (by omega)]
    simpa using this
  have ahead : (p.recordSegs.filter (fun m => p.scrub.pointer ≤ m)).find? p.segIsClosed = some (n + 1) := by
    rw [List.find?_filter, Part.recordSegs, List.find?_map, Option.map_eq_some_iff]
    refine ⟨n, List.find?_range_eq_some.mpr ⟨?_, List.mem_range.mpr hlt, fun k hk => ?_⟩, rfl⟩
    · simp [Part.segIsClosed_succ, hn, hc, hp]
    · by_cases hpk : p.scrub.pointer ≤ k + 1
      · simp [open_ k hk hpk]
      · simp [hpk]
  unfold Part.scrubChoice
  rw [List.find?_append, ahead]
  rfl

/-- Settles O13: the batch that waits, the claim that waits and the scrub step, in that order. -/
theorem slotChangesStartWhatWaits : Obligations.SlotChangesStartWhatWaits := by
  intro i n rest e ended p permits q
  have hpermits : p.beginWaiting.slotPermits = true ↔ permits := by
    rw [Part.beginWaiting_slotPermits, Part.slotPermits_iff]
  have hwait := Part.beginWaiting_eq p
  have waitingVerify : p.beginWaiting.verify = p.verify := by rw [hwait]
  have waitingQueue : p.beginWaiting.claimQueue = p.claimQueue := by rw [hwait]
  have waitingClaims : p.beginWaiting.claims = p.claims := by rw [hwait]
  have starts := Part.starts_eq p
  have turn : q = p.beginWaiting.startVerify.scrubTurn ended := rfl
  have hscrub : p.beginWaiting.startVerify.scrub = p.scrub := by rw [starts]
  have hstore : p.beginWaiting.startVerify.store = p.store := by rw [starts]
  have harb : p.beginWaiting.startVerify.arb = p.arb := by rw [starts]
  have hretire : q.retire = p.beginWaiting.retire := by rw [turn, Part.scrubTurn_eq, starts]
  have hlong : q.longRunning = p.beginWaiting.startVerify.longRunning := by rw [turn, Part.scrubTurn_eq]; rfl
  have hverify : q.verify = p.beginWaiting.startVerify.verify := by rw [turn, Part.scrubTurn_eq]
  have hqueue : q.claimQueue = p.beginWaiting.startVerify.claimQueue := by rw [turn, Part.scrubTurn_eq]
  have hclaims : q.claims = p.beginWaiting.startVerify.claims := by rw [turn, Part.scrubTurn_eq]
  refine ⟨fun h hv => ?_, fun h => ?_, fun hv hq hp => ?_, fun h => ?_, fun hl hs hb => ?_, fun hl hs => ?_,
    fun hl he hs ho hn hc hp hbelow => ?_, fun hl h => ?_, ?_⟩
  · have notPermits : p.beginWaiting.slotPermits = false := by
      rw [Part.beginWaiting_slotPermits, Part.slotPermits, h]; rfl
    rw [hretire, hverify, Part.startVerify_stays (.inr (.inr notPermits)), Part.beginWaiting_begins h hv]
    exact ⟨rfl, rfl⟩
  · rw [hretire, Part.beginWaiting_stays h]
  · have started := Part.startVerify_starts (waitingVerify.trans hv) (waitingQueue.trans hq) (hpermits.mpr hp)
    rw [hverify, hqueue, hclaims, started, ← waitingClaims]
    exact ⟨rfl, rfl, rfl⟩
  · have stays : p.beginWaiting.startVerify = p.beginWaiting := Part.startVerify_stays
      (h.imp (waitingVerify ▸ ·) (.imp (waitingQueue ▸ ·) fun hn => Bool.eq_false_iff.mpr (mt hpermits.mp hn)))
    rw [hverify, hqueue, hclaims, stays]
    exact ⟨waitingVerify, waitingQueue, waitingClaims⟩
  · rw [turn, Part.scrubTurn_abandons (hlong ▸ hl), Part.abandonStep_between (hscrub ▸ hs) (harb ▸ hb)]
    simp only [hscrub, sat8, satAt, Nat.min_comm]
  · rw [turn, Part.scrubTurn_abandons (hlong ▸ hl), Part.abandonStep_none (hscrub ▸ hs), hscrub]
  · have chosen : p.beginWaiting.startVerify.scrubChoice = some (n + 1) :=
      Part.scrubChoice_ahead (hstore ▸ hn) hc (hscrub ▸ hp) (hstore ▸ hscrub ▸ hbelow)
    rw [turn, he, Part.scrubTurn_begins (hlong ▸ hl) (hscrub ▸ hs) (hscrub ▸ ho), Part.beginStep, chosen]
    simp only [hscrub]
    rfl
  · rw [turn, Part.scrubTurn_stays (hlong ▸ hl) (hscrub ▸ h), hscrub]
  · rw [hretire, hverify, hqueue, hclaims]
    exact (turn.trans (Part.scrubTurn_eq _ _)).trans (congrArg (fun v : Part => { v with scrub := q.scrub }) starts)

end Sys2Proof.Machine

/-! # Proofs: a command that has passed the first three checks of R54 -/

namespace Sys2Proof.Machine

/-- The channel of a presented command, at any DOCK level, leaves an arbiter at rest. -/
theorem Part.atRest_docked {p : Part} (dock : Bool) (a : Addr) (c : Command) (ps : List Word) (st : CmdState)
    (o : CmdOutcome) (rs : List Word) (hr : p.atRest = true) :
    ({ p.setDock dock with chan := p.presents a c ps st o rs } : Part).atRest = true := by
  have same := Part.atRest_chan p { p.pins with dock := dock } _ (Part.presents_work p a c ps st o rs)
  exact same.trans hr

/-- A command whose judgement changes the channel alone. -/
theorem State.command_judged {i : Instr} {s : State} {a : Addr} {c : Command} {ps : List Word} {dock : Bool} {q : Part}
    (hs : s.Ready) (h : s.given i = some (a, c, ps, dock)) (hq : Part.judge c ps dock (s.part.taken a c ps dock) = q)
    (hr : q.atRest = true) : exec i s = .next { s with part := q } := by
  rw [State.exec_ready hs h, hq, Part.grantPort_atRest hr]

theorem Part.judge_busy {p : Part} {c : Command} (hr : p.chan.running.isSome = true) (hc : c.passesBusy = false)
    (ps : List Word) (dock : Bool) : Part.judge c ps dock p = p.refuseCommand .busy :=
  if_pos (by simp [hr, hc])

theorem Part.judge_unbusy {p : Part} {c : Command} (hr : c.passesBusy = true ∨ p.chan.running = none) (ps : List Word)
    (dock : Bool) : Part.judge c ps dock p =
      if !p.mode.admits c then p.refuseCommand .refusedMode
      else if !c.wellProtected ps then p.protectError.refuseCommand .protectMismatch
      else p.carryOut c ps dock :=
  if_neg (by rcases hr with hr | hr <;> simp [hr])

theorem Part.judge_mode {p : Part} {c : Command} (hr : c.passesBusy = true ∨ p.chan.running = none)
    (hm : p.mode.admits c = false) (ps : List Word) (dock : Bool) : Part.judge c ps dock p = p.refuseCommand .refusedMode := by
  rw [Part.judge_unbusy hr, if_pos (by simp [hm])]

theorem Part.judge_protected {p : Part} {c : Command} {ps : List Word} (hr : c.passesBusy = true ∨ p.chan.running = none)
    (hm : p.mode.admits c = true) (hp : c.wellProtected ps = false) (dock : Bool) :
    Part.judge c ps dock p = p.protectError.refuseCommand .protectMismatch := by
  rw [Part.judge_unbusy hr, if_neg (by simp [hm]), if_pos (by simp [hp])]

theorem Part.judge_carries {p : Part} {c : Command} {ps : List Word} (hr : c.passesBusy = true ∨ p.chan.running = none)
    (hm : p.mode.admits c = true) (hp : c.wellProtected ps = true) (dock : Bool) :
    Part.judge c ps dock p = p.carryOut c ps dock := by
  rw [Part.judge_unbusy hr, if_neg (by simp [hm]), if_neg (by simp [hp])]

theorem Part.taken_running_none {p : Part} (h : p.chan.running = none) (a : Addr) (c : Command) (ps : List Word)
    (dock : Bool) : (p.taken a c ps dock).chan.running = none := by
  simp [Part.taken, Part.presents, h]

/-- GUARDED and SERVICE admit every command but three. -/
theorem Mode.admits_of_extent {m : Mode} (hm : m = .guarded ∨ m = .service) {c : Command}
    (hc : c ∉ [.routeLoad, .retire, .format]) : m.admits c = true := by
  rcases hm with rfl | rfl <;> cases c <;> simp_all [Mode.admits]

/-- A command that a free part in GUARDED or SERVICE mode admits is carried out, and the arbiter grants what it asks for. -/
theorem State.store_carries {i : Instr} {s : State} {a : Addr} {c : Command} {ps : List Word} {dock : Bool} {q : Part}
    (h : s.FreeInStore) (hg : s.given i = some (a, c, ps, dock)) (hc : c ∉ [.routeLoad, .retire, .format])
    (hp : c.wellProtected ps = true) (hq : Part.carryOut c ps dock (s.part.taken a c ps dock) = q) :
    exec i s = .next { s with part := q.grantPort } := by
  obtain ⟨⟨hready, hrun⟩, hmode⟩ := h
  rw [State.exec_ready hready hg, Part.judge_carries (.inr (Part.taken_running_none hrun _ _ _ _))
    (Mode.admits_of_extent hmode hc) hp, hq]

/-- Such a command that leaves the arbiter at rest. -/
theorem State.store_completes {i : Instr} {s : State} {a : Addr} {c : Command} {ps : List Word} {dock : Bool} {q : Part}
    (h : s.FreeInStore) (hg : s.given i = some (a, c, ps, dock)) (hc : c ∉ [.routeLoad, .retire, .format])
    (hp : c.wellProtected ps = true) (hq : Part.carryOut c ps dock (s.part.taken a c ps dock) = q) (hr : q.atRest = true) :
    exec i s = .next { s with part := q } := by
  rw [State.store_carries h hg hc hp hq, Part.grantPort_atRest hr]

end Sys2Proof.Machine

/-! # Proofs: checks 1 to 3 of R54 (R58, R59) -/

namespace Sys2Proof.Machine

theorem Mode.admits_iff (m : Mode) (c : Command) :
    m.admits c = true ↔
      (c = .report ∨ c = .acknowledge ∨ c = .identity)
        ∨ (c = .clockSet ∧ m ≠ .foreign)
        ∨ (c = .format ∧ (m = .unformatted ∨ m = .service))
        ∨ (c = .retire ∧ m = .service)
        ∨ (c = .routeLoad ∧ m = .guarded)
        ∨ (c ∉ [.clockSet, .format, .retire, .routeLoad] ∧ (m = .guarded ∨ m = .service)) := by
  cases c <;> simp [Mode.admits]

theorem protected16_iff (a b c : Word) : protected16 [a, b, c] = true ↔ b = ~~~a ∧ c = a := by simp [protected16]

theorem protected32_iff (a b c d e f : Word) :
    protected32 [a, b, c, d, e, f] = true ↔ c = ~~~a ∧ d = ~~~b ∧ e = a ∧ f = b := by
  simp [protected32, and_assoc]

theorem Command.passesBusy_iff (c : Command) : c.passesBusy = true ↔ c ∈ [.report, .acknowledge, .identity, .progress] := by
  cases c <;> simp [Command.passesBusy]

/-- Settles O23: the mode table, the two protected forms, and the three refusals in their order. -/
theorem theFirstThreeChecksOfACommand : Obligations.TheFirstThreeChecksOfACommand := by
  refine ⟨⟨Mode.admits_iff, fun a b c => ⟨protected16_iff a b c, protected16_iff a b c, protected16_iff a b c⟩,
    protected32_iff⟩, ?_⟩
  intro i s a c ps dock hs hg p
  have hrest : s.part.atRest = true := hs.2.2
  have refused (o : CmdOutcome) : (p.refusedWith a c ps o).atRest = true := Part.atRest_docked dock _ _ _ _ _ _ hrest
  have passes (h : s.part.chan.running = none ∨ c ∈ [.report, .acknowledge, .identity, .progress]) :
      c.passesBusy = true ∨ (s.part.taken a c ps dock).chan.running = none :=
    h.symm.imp (Command.passesBusy_iff c).mpr (Part.taken_running_none · _ _ _ _)
  refine ⟨fun hr hc => ?_, fun hr hm => ?_, fun hr hm hp => ?_⟩
  · have running : (s.part.taken a c ps dock).chan.running.isSome = true := by simpa [Part.taken, Part.presents] using hr
    have gated : c.passesBusy = false := Bool.eq_false_iff.mpr (mt (Command.passesBusy_iff c).mp hc)
    exact State.command_judged hs hg (Part.judge_busy running gated _ _) (refused _)
  · exact State.command_judged hs hg (Part.judge_mode (passes hr) hm _ _) (refused _)
  · rw [Nat.min_comm 255]
    refine State.command_judged hs hg (Part.judge_protected (passes hr) hm hp _) ?_
    exact Part.atRest_chan s.part { s.part.pins with dock := dock } _ (Part.presents_work s.part a c ps .refused .protectMismatch [])
      |>.trans hrest

end Sys2Proof.Machine

/-! # Proofs: the commands that report (R63, R65, R67, R77) -/

namespace Sys2Proof.Machine

/-- REPORT, ACKNOWLEDGE and IDENTITY are carried out in every mode and past every RUNNING command. -/
theorem State.report_completes {i : Instr} {s : State} {a : Addr} {c : Command} {ps : List Word} {q : Part}
    (hs : s.Ready) (hg : s.given i = some (a, c, ps, s.part.pins.dock)) (hc : c ∈ [.report, .acknowledge, .identity])
    (hq : Part.carryOut c ps s.part.pins.dock (s.part.taken a c ps s.part.pins.dock) = q) (hr : q.atRest = true) :
    exec i s = .next { s with part := q } := by
  have passes : c.passesBusy = true := (Command.passesBusy_iff c).mpr (List.mem_append_left [Command.progress] hc)
  have admitted : s.part.mode.admits c = true :=
    (Mode.admits_iff _ _).mpr (.inl (by simpa using hc))
  have plain : c.wellProtected ps = true := by
    simp only [List.mem_cons, List.not_mem_nil, or_false] at hc
    rcases hc with rfl | rfl | rfl <;> rfl
  exact State.command_completes hs hg (.inl passes) admitted plain hq hr

/-! ## REPORT -/

/-- Settles O24: the twelve words are those of `reportWords`. -/
theorem reportReturnsItsTwelveWords : Obligations.ReportReturnsItsTwelveWords := by
  intro a s hs p results
  have words : (p.taken a .report [] p.pins.dock).reportWords = results := by
    have extent : p.hasExtent = true ↔ p.mode = .guarded ∨ p.mode = .service := by simp [Part.hasExtent]
    have pool : wordOf (if p.hasExtent then p.store.pool.length else 0)
        = if p.mode = .guarded ∨ p.mode = .service then BitVec.ofNat 16 p.store.pool.length else 0 := by
      by_cases h : p.mode = .guarded ∨ p.mode = .service
      · rw [if_pos h, if_pos (extent.mpr h)]; rfl
      · rw [if_neg h, if_neg (mt extent.mp h)]; rfl
    show p.reportWords = results
    unfold Part.reportWords
    simp only [results, ← pool]
    cases p.refusals.first with
    | none => rfl
    | some f => rfl
  rw [← words]
  exact State.report_completes hs rfl (by simp) rfl (Part.atRest_presents _ _ _ _ _ _ hs.2.2)

/-! ## ACKNOWLEDGE -/

theorem and_twoPow_ne_zero (w : Word) (k : Nat) (hk : k < 16) : (w &&& BitVec.twoPow 16 k) ≠ 0 ↔ w.getLsbD k = true := by
  rw [BitVec.and_twoPow]
  cases h : w.getLsbD k with
  | false => simp
  | true =>
    simp only [if_true, ne_eq, iff_true]
    intro hz
    have := congrArg (fun x => x.getLsbD k) hz
    simp [hk] at this

/-- Settles O25: bit 15 refuses, bit 0 also clears the refusal log. -/
theorem acknowledgeRemovesTheNamedCauses : Obligations.AcknowledgeRemovesTheNamedCauses := by
  intro a w s hs
  have unused : (w &&& causeUnused != 0) = true ↔ w.getLsbD 15 = true := by
    rw [bne_iff_ne]; exact and_twoPow_ne_zero w 15 (by omega)
  have writeRefused : (w &&& causeWriteRefused != 0) = true ↔ w.getLsbD 0 = true := by
    rw [bne_iff_ne]; exact and_twoPow_ne_zero w 0 (by omega)
  refine ⟨fun hu => ?_, fun hu => ?_⟩
  · refine State.report_completes hs rfl (by simp) ?_ (Part.atRest_presents _ _ _ _ _ _ hs.2.2)
    exact if_pos (unused.mpr hu)
  · refine State.report_completes hs rfl (by simp) ?_
      (Part.atRest_presents (p := s.part) a .acknowledge [w] .done .ok [s.part.attention &&& ~~~w] hs.2.2)
    refine (if_neg (mt unused.mp (Bool.eq_false_iff.mp hu))).trans ?_
    simp only [← writeRefused]
    rfl

/-! ## IDENTITY and PROGRESS -/

theorem uniqueWords_eq : uniqueWords = [Config.uniqueNumber.extractLsb' 0 16, Config.uniqueNumber.extractLsb' 16 16,
    Config.uniqueNumber.extractLsb' 32 16, Config.uniqueNumber.extractLsb' 48 16] := rfl

theorem words32?_eq (o : Option Nat) : words32? o = match o with | some t => words32 t | none => [blank, blank] := by
  cases o <;> rfl

/-- Settles O26: IDENTITY and PROGRESS answer with the words the tables name. -/
theorem identityAndProgressReturnTheirWords : Obligations.IdentityAndProgressReturnTheirWords := by
  refine ⟨?_, ?_⟩
  · intro a s hs results
    have words : [Config.familyCode, Config.revision] ++ uniqueWords ++ s.part.labelResults ++ [s.part.mode.code] = results := by
      simp only [results, Part.labelResults, uniqueWords_eq, words32?_eq]
      rfl
    rw [← words]
    exact State.report_completes hs rfl (by simp) rfl (Part.atRest_presents _ _ _ _ _ _ hs.2.2)
  · intro a s hs hmode p results
    have words : [p.retire.state.code] ++ p.progressRetire ++ p.progressVerify = results := by
      simp only [results]
      unfold Part.progressRetire Part.progressVerify
      congr 2
      cases p.retire.batch with
      | some b => cases h : b.current <;> simp [h, wordOf]
      | none => cases p.retire.fmt with
        | none => rfl
        | some f => cases f.stage <;> rfl
    rw [← words]
    refine State.command_completes hs rfl (.inl rfl) ?_ rfl rfl (Part.atRest_presents _ _ _ _ _ _ hs.2.2)
    exact Mode.admits_of_extent hmode (by simp)

end Sys2Proof.Machine

/-! # Proofs: RESCAN and AUDIT (R69) -/

namespace Sys2Proof.Machine

/-- Settles O33: the branches of `cmdRescan` and `cmdAudit`. -/
theorem rescanAndAuditAskForVisits : Obligations.RescanAndAuditAskForVisits := by
  intro a w s hs p limit
  have hrest : s.part.atRest = true := hs.1.1.2.2
  have rescans {q : Part} (hq : (p.taken a .rescan [w] p.pins.dock).cmdRescan w = q) (hr : q.atRest = true) :
      exec (.rescan a w) s = .next { s with part := q } := State.store_completes hs rfl (by simp) rfl hq hr
  have audits {q : Part} (hq : (p.taken a .audit [] p.pins.dock).cmdAudit = q) (hr : q.atRest = true) :
      exec (.audit a) s = .next { s with part := q } := State.store_completes hs rfl (by simp) rfl hq hr
  have rest (c : Command) (ps : List Word) (st : CmdState) (o : CmdOutcome) :=
    Part.atRest_presents a c ps st o [] hrest
  refine ⟨fun hl => ⟨rescans (if_pos hl) (rest _ _ _ _), audits (if_pos hl) (rest _ _ _ _)⟩, fun hl hw => ?_,
    fun hl hw hr => ?_, fun hl hw hr => ?_, fun hl hv => ?_, fun hl hv => ?_⟩
  · exact rescans ((if_neg (not_not.mpr hl)).trans (if_pos hw)) (rest _ _ _ _)
  · exact rescans ((if_neg (not_not.mpr hl)).trans ((if_neg (Nat.not_le.mpr hw)).trans
      (if_pos (Option.isSome_iff_ne_none.mpr hr)))) (rest _ _ _ _)
  · exact rescans ((if_neg (not_not.mpr hl)).trans ((if_neg (Nat.not_le.mpr hw)).trans
      (if_neg (mt Option.isSome_iff_ne_none.mp (not_not.mpr hr))))) (rest _ _ _ _)
  · exact audits ((if_neg (not_not.mpr hl)).trans (if_pos hv)) (rest _ _ _ _)
  · exact audits ((if_neg (not_not.mpr hl)).trans (if_neg (not_not.mpr hv))) (rest _ _ _ _)

end Sys2Proof.Machine

/-! # Proofs: what the long-operation slots do not see (R54) -/

namespace Sys2Proof.Machine

/-- The part with another command channel. -/
def Part.withChan (ch : Channel) (p : Part) : Part := { p with chan := ch }

theorem Part.withChan_ite (ch : Channel) (c : Prop) [Decidable c] (p q : Part) :
    (if c then p else q).withChan ch = if c then p.withChan ch else q.withChan ch := apply_ite _ _ _ _

theorem Part.conclude_eq (st : CmdState) (o : CmdOutcome) (rs : List Word) (p : Part) :
    p.conclude st o rs = p.withChan { p.chan with
      current := p.chan.current.map (fun c => { c with state := st, outcome := o, results := rs, readPos := 0 }) } := rfl

theorem Part.abandonStep_withChan (ch : Channel) (p : Part) : (p.withChan ch).abandonStep = p.abandonStep.withChan ch := by
  unfold Part.abandonStep
  show (match p.scrub.step with | none => _ | some _ => _) = _
  cases p.scrub.step with
  | none => rfl
  | some st => dsimp only; rw [Part.withChan_ite]; rfl

theorem Part.beginStep_withChan (ch : Channel) (n : Nat) (p : Part) :
    (p.withChan ch).beginStep n = (p.beginStep n).withChan ch := by
  have choice : (p.withChan ch).scrubChoice = p.scrubChoice := rfl
  unfold Part.beginStep
  rw [choice]
  cases p.scrubChoice <;> rfl

theorem Part.scrubTurn_withChan (ch : Channel) (ended : Bool) (p : Part) :
    (p.withChan ch).scrubTurn ended = (p.scrubTurn ended).withChan ch := by
  unfold Part.scrubTurn
  rw [Part.abandonStep_withChan, Part.beginStep_withChan, Part.withChan_ite, Part.withChan_ite]
  rfl

theorem Part.startVerify_withChan (ch : Channel) (p : Part) : (p.withChan ch).startVerify = p.startVerify.withChan ch := by
  unfold Part.startVerify
  show (match p.verify, p.claimQueue with | none, _ :: _ => _ | _, _ => _) = _
  cases p.verify with
  | some v => rfl
  | none =>
    cases p.claimQueue with
    | nil => rfl
    | cons i rest => dsimp only; rw [Part.withChan_ite]; rfl

/-- What starts in the slots looks at nothing of the command channel, and changes nothing of it. -/
theorem Part.slotsChanged_withChan (ch : Channel) (ended : Bool) (p : Part) :
    (p.withChan ch).slotsChanged ended = (p.slotsChanged ended).withChan ch := by
  have waiting : (p.withChan ch).beginWaiting = p.beginWaiting.withChan ch := by
    unfold Part.beginWaiting
    rw [Part.withChan_ite]
    rfl
  unfold Part.slotsChanged
  rw [waiting, Part.startVerify_withChan, Part.scrubTurn_withChan]

theorem Part.slotsChanged_chan (ended : Bool) (p : Part) : (p.slotsChanged ended).chan = p.chan :=
  (congrArg Part.chan (Part.slotsChanged_withChan p.chan ended p) :)

/-- A command is concluded before or after what starts in the slots. -/
theorem Part.slotsChanged_conclude (ended : Bool) (st : CmdState) (o : CmdOutcome) (rs : List Word) (p : Part) :
    (p.slotsChanged ended).conclude st o rs = (p.conclude st o rs).slotsChanged ended := by
  rw [Part.conclude_eq, Part.conclude_eq, Part.slotsChanged_withChan, Part.slotsChanged_chan]

end Sys2Proof.Machine

/-! # Proofs: SUSPEND and RESUME (R74, R75, R194) -/

namespace Sys2Proof.Machine

theorem Part.verifyRunning_some {p : Part} {v : Verify} (h : p.verify = some v) : p.verifyRunning = !v.suspended := by
  simp [Part.verifyRunning, h]

theorem Part.longRunning_iff (p : Part) :
    p.longRunning = true ↔ p.retire.state = .blanking ∨ p.retire.state = .formatRunning ∨ p.verifyRunning = true := by
  simp [Part.longRunning, or_assoc]

theorem Part.inLongBurst_iff (p : Part) : p.inLongBurst = true ↔ p.arb.burst = some .longOperation := by
  simp [Part.inLongBurst]

/-- With a burst in progress, a command that begins to wait lets nothing be granted. -/
theorem Part.grantPort_startRunning {p : Part} {b : Burst} (hb : p.arb.burst = some b) (w : RunningWork) :
    (p.startRunning w).grantPort = p.startRunning w :=
  Part.grantPort_of_burst (p := p.startRunning w) (congrArg Option.isSome hb)

/-! ## SUSPEND -/

theorem Part.suspendNow_blanking {p : Part} (h : p.retire.state = .blanking) :
    p.suspendNow = Part.slotsChanged true { p with retire := { p.retire with state := .suspended } } := if_pos h

theorem Part.suspendNow_verify {p : Part} {v : Verify} (h : p.retire.state ≠ .blanking) (hv : p.verify = some v)
    (hs : v.suspended = false) :
    p.suspendNow = Part.slotsChanged true { p with verify := some { v with suspended := true } } := by
  unfold Part.suspendNow
  rw [if_neg h, hv]
  exact if_neg (by simp [hs])

theorem Part.cmdSuspend_format {p : Part} (h : p.retire.state = .formatRunning) : p.cmdSuspend = p.refuseCommand .busy :=
  if_pos (p.formatRunning_iff.mpr h)

theorem Part.cmdSuspend_none {p : Part} (h : p.longRunning = false) : p.cmdSuspend = p.refuseCommand .noOperation := by
  have free : ¬ p.formatRunning = true := fun hf => by
    simp [p.longRunning_iff.mpr (.inr (.inl (p.formatRunning_iff.mp hf)))] at h
  unfold Part.cmdSuspend
  rw [if_neg free, if_pos (by simp [h])]

section
variable {p : Part} (hl : p.longRunning = true) (hf : p.retire.state ≠ .formatRunning)
include hl hf

theorem Part.cmdSuspend_waits (hb : p.arb.burst = some .longOperation) : p.cmdSuspend = p.startRunning .suspend := by
  unfold Part.cmdSuspend
  rw [if_neg (mt p.formatRunning_iff.mp hf), if_neg (by simp [hl]), if_pos (p.inLongBurst_iff.mpr hb)]

theorem Part.cmdSuspend_now (hb : p.arb.burst ≠ some .longOperation) : p.cmdSuspend = p.suspendNow.done [] := by
  unfold Part.cmdSuspend
  rw [if_neg (mt p.formatRunning_iff.mp hf), if_neg (by simp [hl]), if_neg (mt p.inLongBurst_iff.mp hb)]

end

theorem Part.cmdSuspend_blanking {p : Part} (hr : p.retire.state = .blanking) (hb : p.arb.burst ≠ some .longOperation) :
    p.cmdSuspend = Part.slotsChanged true { p.done [] with retire := { p.retire with state := .suspended } } := by
  rw [Part.cmdSuspend_now (p.longRunning_iff.mpr (.inl hr)) (by rw [hr]; decide) hb, Part.suspendNow_blanking hr]
  exact Part.slotsChanged_conclude _ _ _ _ _

theorem Part.cmdSuspend_verify {p : Part} {v : Verify} (hr : p.retire.state ≠ .blanking)
    (hf : p.retire.state ≠ .formatRunning) (hv : p.verify = some v) (hs : v.suspended = false)
    (hb : p.arb.burst ≠ some .longOperation) :
    p.cmdSuspend = Part.slotsChanged true { p.done [] with verify := some { v with suspended := true } } := by
  have running : p.verifyRunning = true := (Part.verifyRunning_some hv).trans (by simp [hs])
  rw [Part.cmdSuspend_now (p.longRunning_iff.mpr (.inr (.inr running))) hf hb, Part.suspendNow_verify hr hv hs]
  exact Part.slotsChanged_conclude _ _ _ _ _

/-! ## RESUME -/

theorem Part.cmdResume_none {p : Part} (h : p.retire.state ≠ .suspended)
    (hv : ∀ v, p.verify = some v → v.suspended = false) : p.cmdResume = p.refuseCommand .noOperation := by
  unfold Part.cmdResume
  rw [if_neg h]
  split
  next => rfl
  next v hv' => exact if_pos (by simp [hv v hv'])

theorem Part.cmdResume_beside {p : Part} (h : p.retire.state = .suspended) (hv : p.verifyRunning = true) :
    p.cmdResume = p.refuseCommand .busy := (if_pos h).trans (if_pos hv)

theorem Part.cmdResume_blanking {p : Part} (h : p.retire.state = .suspended) (hv : p.verifyRunning = false) :
    p.cmdResume = Part.slotsChanged false { p.done [] with retire := { p.retire with state := .blanking } } := by
  unfold Part.cmdResume
  rw [if_pos h, if_neg (by simp [hv])]
  exact Part.slotsChanged_conclude _ _ _ _ _

/-- The walk goes on where it stood: it had read nothing yet, or its segment still holds the record it is at (R166). -/
theorem Part.retestWalk_stays {p : Part} {v : Verify} (hv : p.verify = some v)
    (h : v.phase ≠ .locate ∨ v.count = 0 ∨ p.streamSeg .delivery v.locate.number = some v.locate.seg) : p.retestWalk = p := by
  unfold Part.retestWalk
  rw [hv]
  refine if_neg fun ⟨hphase, hcount, hseg⟩ => ?_
  rcases h with h | h | h
  · exact h hphase
  · exact hcount h
  · exact hseg h

/-- The CHECK phase's passage looks at nothing of the command channel, and changes nothing of it. -/
theorem Part.passCheck_withChan (ch : Channel) (p : Part) : (p.withChan ch).passCheck = p.passCheck.withChan ch := by
  have collects (v : Verify) : (p.withChan ch).beginCollect v = (p.beginCollect v).withChan ch := by
    unfold Part.beginCollect Part.collectNext
    split <;> rfl
  unfold Part.passCheck
  show (match p.verify with | none => _ | some _ => _) = _
  cases p.verify with
  | none => rfl
  | some v => dsimp only; rw [Part.withChan_ite, collects]

theorem Part.passCheck_conclude (st : CmdState) (o : CmdOutcome) (rs : List Word) (p : Part) :
    p.passCheck.conclude st o rs = (p.conclude st o rs).passCheck := by
  have chan : p.passCheck.chan = p.chan := (congrArg Part.chan (Part.passCheck_withChan p.chan p) :)
  rw [Part.conclude_eq, Part.conclude_eq, Part.passCheck_withChan, chan]

section
variable {p : Part} {v : Verify} (h : p.retire.state ≠ .suspended) (hv : p.verify = some v) (hs : v.suspended = true)
include h hv hs

theorem Part.cmdResume_busy (hr : p.retire.state = .blanking ∨ p.retire.state = .formatRunning) :
    p.cmdResume = p.refuseCommand .busy := by
  unfold Part.cmdResume
  rw [if_neg h, hv]
  exact (if_neg (by simp [hs])).trans (if_pos (p.longRunning_iff.mpr (hr.imp_right .inl)))

theorem Part.cmdResume_verify (hb : p.retire.state ≠ .blanking) (hf : p.retire.state ≠ .formatRunning)
    (hw : v.phase ≠ .locate ∨ v.count = 0 ∨ p.streamSeg .delivery v.locate.number = some v.locate.seg) :
    p.cmdResume = Part.slotsChanged false
      (Part.passCheck { p.done [] with verify := some { v with suspended := false } }) := by
  have still : ¬ p.longRunning = true := mt p.longRunning_iff.mp (by simp [hb, hf, Part.verifyRunning_some hv, hs])
  have stays : ({ p with verify := some { v with suspended := false } } : Part).retestWalk = _ :=
    Part.retestWalk_stays rfl hw
  have carried : p.cmdResume = (Part.slotsChanged false
      (Part.passCheck { p with verify := some { v with suspended := false } })).done [] := by
    unfold Part.cmdResume
    rw [if_neg h, hv]
    exact (if_neg (by simp [hs])).trans ((if_neg still).trans (by rw [stays]))
  rw [carried]
  exact (Part.slotsChanged_conclude _ _ _ _ _).trans (congrArg _ (Part.passCheck_conclude _ _ _ _))

end

/-- Settles O36: SUSPEND and RESUME, the retire/format slot before the verify slot. -/
theorem suspendAndResumeHoldTheOperation : Obligations.SuspendAndResumeHoldTheOperation := by
  refine ⟨?_, ?_⟩
  · intro a v s hs p done
    let t := p.taken a .suspend [] p.pins.dock
    have grants {q : Part} (hq : t.cmdSuspend = q) : exec (.suspend a) s = .next { s with part := q.grantPort } :=
      State.store_carries hs rfl (by simp) rfl hq
    have refuses {o : CmdOutcome} (hq : t.cmdSuspend = t.refuseCommand o) :
        exec (.suspend a) s = .next { s with part := p.refusedWith a .suspend [] o } :=
      State.store_completes hs rfl (by simp) rfl hq (Part.atRest_presents _ _ _ _ _ _ hs.1.1.2.2)
    refine ⟨fun hf => refuses (Part.cmdSuspend_format hf), fun hl => refuses (Part.cmdSuspend_none hl),
      fun hl hf hb => ?_, fun hr hb => grants (Part.cmdSuspend_blanking (p := t) hr hb),
      fun hr hf hv hsv hb => grants (Part.cmdSuspend_verify (p := t) hr hf hv hsv hb)⟩
    have waits := grants (Part.cmdSuspend_waits (p := t) hl hf hb)
    rwa [Part.grantPort_startRunning (p := t) hb] at waits
  · intro a v s hs p done suspendedVerify
    let t := p.taken a .resume [] p.pins.dock
    have grants {q : Part} (hq : t.cmdResume = q) : exec (.resume a) s = .next { s with part := q.grantPort } :=
      State.store_carries hs rfl (by simp) rfl hq
    have refuses {o : CmdOutcome} (hq : t.cmdResume = t.refuseCommand o) :
        exec (.resume a) s = .next { s with part := p.refusedWith a .resume [] o } :=
      State.store_completes hs rfl (by simp) rfl hq (Part.atRest_presents _ _ _ _ _ _ hs.1.1.2.2)
    refine ⟨fun hr hv => ?_, fun hr hv => refuses (Part.cmdResume_beside hr hv), fun hr hv => ?_,
      fun hr hv => grants (Part.cmdResume_blanking (p := t) hr hv), fun hr hb hf hv hsv hloc hchk => ?_,
      fun hr hb hf hv hsv hphase htodo => ?_⟩
    · refine refuses (Part.cmdResume_none hr fun w (hw : p.verify = some w) => ?_)
      simpa [suspendedVerify, hw] using hv
    · have other : p.retire.state ≠ .suspended := by rcases hr with h | h <;> rw [h] <;> decide
      cases hw : p.verify with
      | none => simp [suspendedVerify, hw] at hv
      | some w => exact refuses (Part.cmdResume_busy other hw (by simpa [suspendedVerify, hw] using hv) hr)
    · have resumed := grants (Part.cmdResume_verify (p := t) hr hv hsv hb hf hloc)
      rwa [Part.passCheck_eq] at resumed
      rintro w hw hphase htodo
      cases hw
      exact absurd htodo (hchk.resolve_left (not_not.mpr hphase))
    · exact grants (Part.cmdResume_verify (p := t) hr hv hsv hb hf (.inl (by rw [hphase]; decide)))

end Sys2Proof.Machine

/-! # Proofs: TERMINATE (R60, R76, R78, R175, R185, R196) -/

namespace Sys2Proof.Machine

/-! ## The ends of the three long operations -/

theorem Part.terminateNow_marked {p : Part} {b : Batch} {n : Nat} (hr : p.retire.state = .blanking)
    (hb : p.retire.batch = some b) (hc : b.current = some (n + 1)) :
    p.terminateNow = Part.slotsChanged true { p with
      retire := { p.retire with state := .empty, batch := none }
      attention := p.attention ||| causeOpDone
      store := { p.store with
        segs := p.store.segs.modify n (fun e => { e with state := .scrap, holds := 0, owed := .none }) } } := by
  unfold Part.terminateNow
  rw [if_pos hr]
  unfold Part.endBlanking
  simp only [hb, hc]
  rfl

theorem Part.terminateNow_unmarked {p : Part} {b : Batch} (hr : p.retire.state = .blanking)
    (hb : p.retire.batch = some b) (hc : b.current = none) :
    p.terminateNow = Part.slotsChanged true { p with
      retire := { p.retire with state := .empty, batch := none }, attention := p.attention ||| causeOpDone } := by
  unfold Part.terminateNow
  rw [if_pos hr]
  unfold Part.endBlanking
  simp only [hb, hc]
  rfl

/-- A terminated FORMAT with no ROUTE LOAD read running: no store, no claims and no route. -/
theorem Part.formatTerminated_eq {p : Part} (hrun : p.isRunning .routeLoad = false) :
    let onRoad := p.route.state = .loaded
    p.formatTerminated = Part.slotsChanged true { p with
      mode := .unformatted, store := .absent, claims := List.replicate 8 Claim.free, claimQueue := []
      retire := { state := .empty, batch := none, fmt := none }
      scrub := { p.scrub with due := none }, attention := p.attention ||| causeOpDone
      route := { p.route with load := none, state := if onRoad then .idle else p.route.state }
      ctxs := if onRoad then p.ctxs.map Ctx.stopped else p.ctxs
      scan := if onRoad then { p.scan with
          run := .stopped, rescan := none, audit := .none, owed := none, dwellTest := none
          slots := p.scan.slots.map (fun x => { x with agree := 0, watch := none }) }
        else p.scan
      cons := if onRoad then List.replicate 32 none else p.cons } := by
  intro onRoad
  have load : p.dropLoad = { p with route := { p.route with load := none } } := if_neg (ne_true_of_eq_false hrun)
  unfold Part.formatTerminated Part.dropRoute
  rw [load]
  by_cases h : onRoad
  · have loaded : ({ p with route := { p.route with load := none } } : Part).routeLoaded = true := by
      simpa [Part.routeLoaded] using h
    simp only [if_pos h, if_pos loaded]
    rfl
  · have idle : ¬ ({ p with route := { p.route with load := none } } : Part).routeLoaded = true := by
      simpa [Part.routeLoaded] using h
    simp only [if_neg h, if_neg idle]
    rfl

/-- The claim of a VERIFY that TERMINATE ends, with what the COLLECT phase has gathered (R175). -/
def Verify.aborted (v : Verify) (c : Claim) : Claim :=
  { (if v.phase = .collect then c.gathered v.collect else c) with state := .ready, integrity := some .aborted }

theorem Verify.aborted_eq (v : Verify) : v.aborted = fun c =>
    if v.phase = .collect then { c with
      state := .ready, integrity := some .aborted, samples := some v.collect.samples
      proofs := some v.collect.proofs.length, proofsOver := v.collect.more
      gapMinutes := some (min 65535
        ((v.collect.gapSecs + v.collect.openSecs (c.windowStart.getD 0) (c.windowEnd.getD 0)) / 60)) }
    else { c with state := .ready, integrity := some .aborted } := by
  funext c
  unfold Verify.aborted
  split
  · rw [Nat.min_comm 65535]; rfl
  · rfl

theorem Part.abortVerify_eq {p : Part} {v : Verify} (hv : p.verify = some v) :
    p.abortVerify = Part.slotsChanged (!v.suspended) { p with
      verify := none, attention := p.attention ||| causeClaimReady ||| causeOpDone
      claims := p.claims.modify v.claim v.aborted } := by
  have running : (p.abortClaim v).verifyRunning = !v.suspended := Part.verifyRunning_some (p := p.abortClaim v) hv
  unfold Part.abortVerify
  rw [hv]
  dsimp only [Part.emptyVerify]
  rw [running]
  rfl

/-! ## The command -/

theorem Part.cmdTerminate_none {p : Part} (h : p.longRunning = false) : p.cmdTerminate = p.refuseCommand .noOperation :=
  if_pos (by simp [h])

theorem Part.cmdTerminate_waits {p : Part} (h : p.longRunning = true)
    (hw : p.arb.burst = some .longOperation ∨ p.labelPending = true) : p.cmdTerminate = p.startRunning .terminate := by
  unfold Part.cmdTerminate
  rw [if_neg (by simp [h]), if_pos (by simpa [Part.inLongBurst] using hw)]

theorem Part.cmdTerminate_now {p q : Part} (h : p.longRunning = true) (hb : p.arb.burst ≠ some .longOperation)
    (hl : p.labelPending = false) (hq : p.terminateNow = Part.slotsChanged true q) :
    p.cmdTerminate = Part.slotsChanged true (q.done []) := by
  unfold Part.cmdTerminate
  rw [if_neg (by simp [h]), if_neg (by simpa [Part.inLongBurst, hl] using hb), hq]
  exact Part.slotsChanged_conclude _ _ _ _ _

theorem Part.labelPending_iff (p : Part) :
    p.labelPending = true ↔ p.retire.state = .formatRunning ∧ ∃ f, p.retire.fmt = some f ∧ f.stage = .label := by
  unfold Part.labelPending
  rw [Bool.and_eq_true, p.formatRunning_iff]
  cases p.retire.fmt <;> simp

/-- Settles O37: the three ends, in the order of `terminateNow`. -/
theorem terminateEndsTheRunningOperation : Obligations.TerminateEndsTheRunningOperation := by
  intro a v b n f s hs p done idle onRoad x
  let t := p.taken a .terminate [] p.pins.dock
  have grants {q : Part} (hq : t.cmdTerminate = q) : exec (.terminate a) s = .next { s with part := q.grantPort } :=
    State.store_carries hs rfl (by simp) rfl hq
  have ends {q : Part} (hl : p.longRunning = true) (hb : p.arb.burst ≠ some .longOperation) (hn : ¬ p.labelPending = true)
      (hq : t.terminateNow = Part.slotsChanged true q) :
      exec (.terminate a) s = .next { s with part := (Part.slotsChanged true (q.done [])).grantPort } :=
    grants (Part.cmdTerminate_now (p := t) hl hb (Bool.eq_false_iff.mpr hn) hq)
  have blanks (hr : p.retire.state = .blanking) : p.longRunning = true ∧ ¬ p.labelPending = true :=
    ⟨p.longRunning_iff.mpr (.inl hr), mt p.labelPending_iff.mp fun h => by rw [h.1] at hr; cases hr⟩
  refine ⟨fun hl => ?_, fun hl hb => ?_, fun hr hf hst hb => ?_, fun hr hbt hc hb => ?_, fun hr hbt hc hb => ?_,
    fun hr hf hst hb => ?_, fun hr hf hv hsv hb => ?_⟩
  · exact State.store_completes hs rfl (by simp) rfl (Part.cmdTerminate_none (p := t) hl)
      (Part.atRest_presents _ _ _ _ _ _ hs.1.1.2.2)
  · have waits := grants (Part.cmdTerminate_waits (p := t) hl (.inl hb))
    rwa [Part.grantPort_startRunning (p := t) hb] at waits
  · have running : p.longRunning = true := p.longRunning_iff.mpr (.inr (.inl hr))
    exact grants (Part.cmdTerminate_waits (p := t) running (.inr (p.labelPending_iff.mpr ⟨hr, f, hf, hst⟩)))
  · exact (ends (blanks hr).1 hb (blanks hr).2 (Part.terminateNow_marked (p := t) hr hbt hc) :)
  · exact (ends (blanks hr).1 hb (blanks hr).2 (Part.terminateNow_unmarked (p := t) hr hbt hc) :)
  · have unread : t.isRunning .routeLoad = false := by
      simp [Part.isRunning, t, Part.taken, Part.presents, show p.chan.running = none from hs.1.2]
    have written : ¬ p.labelPending = true := mt p.labelPending_iff.mp fun ⟨_, g, hg, hlabel⟩ => by
      cases hg.symm.trans hf
      exact hst hlabel
    have ended : t.terminateNow = t.formatTerminated :=
      (if_neg (by rw [show t.retire.state = _ from hr]; decide)).trans (if_pos hr)
    exact (ends (p.longRunning_iff.mpr (.inr (.inl hr))) hb written (ended.trans (Part.formatTerminated_eq unread)) :)
  · have running : p.verifyRunning = true := (Part.verifyRunning_some hv).trans (by simp [hsv])
    have ended : t.terminateNow = _ := (if_neg hr).trans ((if_neg hf).trans ((if_pos running).trans
      (Part.abortVerify_eq (p := t) hv)))
    have written : ¬ p.labelPending = true := mt p.labelPending_iff.mp fun h => hf h.1
    rw [hsv, Verify.aborted_eq] at ended
    exact (ends (p.longRunning_iff.mpr (.inr (.inr running))) hb written ended :)

end Sys2Proof.Machine

/-! # Proofs: SERVICE ENTER, SERVICE LEAVE and DOCK (R61, R62, R64, R88) -/

namespace Sys2Proof.Machine

/-! ## The mode and the arbiter -/

/-- Between GUARDED and SERVICE the arbiter sees no difference. -/
theorem Part.atRest_mode {p : Part} {m : Mode} (hp : p.mode = .guarded ∨ p.mode = .service) (hm : m = .guarded ∨ m = .service) :
    ({ p with mode := m } : Part).atRest = p.atRest := by
  have extent (n : Mode) (h : n = .guarded ∨ n = .service) : (n == .guarded || n == .service) = true := by simpa using h
  have take (st : Stream) : ({ p with mode := m } : Part).mayTake st = p.mayTake st := by
    unfold Part.mayTake Part.hasExtent
    rw [extent _ hp, extent _ hm]
    rfl
  have head : ({ p with mode := m } : Part).headServable = p.headServable := by
    unfold Part.headServable
    simp only [take]
    rfl
  have waiting : ({ p with mode := m } : Part).req2Waiting = p.req2Waiting := by
    unfold Part.req2Waiting
    rw [head]
    rfl
  unfold Part.atRest
  rw [waiting]
  rfl

/-! ## SERVICE ENTER -/

section
variable {p : Part} (value : Word) {dock : Bool} (hm : p.mode = .guarded)
include hm

theorem Part.cmdServiceEnter_undocked (hd : dock = false) : p.cmdServiceEnter value dock = p.refuseCommand .notDocked :=
  (if_neg (not_not.mpr hm)).trans (if_pos (by simp [hd]))

variable (hd : dock = true)
include hd

theorem Part.cmdServiceEnter_onRoad (hr : p.route.state ≠ .idle) :
    p.cmdServiceEnter value dock = p.refuseCommand .routeState :=
  (if_neg (not_not.mpr hm)).trans ((if_neg (by simp [hd])).trans (if_pos hr))

variable (hr : p.route.state = .idle)
include hr

theorem Part.cmdServiceEnter_reads (hh : p.route.held = none) :
    p.cmdServiceEnter value dock = p.startRunning (.serviceEnter value) := by
  unfold Part.cmdServiceEnter
  rw [if_neg (not_not.mpr hm), if_neg (by simp [hd]), if_neg (not_not.mpr hr), hh]

theorem Part.cmdServiceEnter_mismatch {h : Held} (hh : p.route.held = some h) (hw : value ≠ h.serviceWord) :
    p.cmdServiceEnter value dock = p.protectError.refuseCommand .protectMismatch := by
  unfold Part.cmdServiceEnter
  rw [if_neg (not_not.mpr hm), if_neg (by simp [hd]), if_neg (not_not.mpr hr), hh]
  exact if_pos hw

theorem Part.cmdServiceEnter_enters {h : Held} (hh : p.route.held = some h) (hw : value = h.serviceWord) :
    p.cmdServiceEnter value dock = Part.done [] { p with mode := .service } := by
  unfold Part.cmdServiceEnter
  rw [if_neg (not_not.mpr hm), if_neg (by simp [hd]), if_neg (not_not.mpr hr), hh]
  exact if_neg (not_not.mpr hw)

end

/-! ## The read of the route fields -/

/-- A RUNNING command ends, and its outcome is kept if it is presented (R55). -/
theorem Part.endRunning_eq {p : Part} {w : RunningWork} {shown : Bool} {c : CurrentCommand}
    (hr : p.chan.running = some { work := w, presented := shown }) (hc : p.chan.current = some c) (st : CmdState)
    (o : CmdOutcome) (rs : List Word) :
    p.endRunning st o rs = { p with chan := { p.chan with
      running := none
      current := some (if shown then { c with state := st, outcome := o, results := rs, readPos := 0 } else c) } } := by
  unfold Part.endRunning
  rw [hr]
  cases shown <;> simp [Part.conclude, hc]

section
variable {p : Part} (value : Word) {dock : Bool} (h : Held)

theorem Part.fieldsRead_undocked (hd : dock = false) : p.fieldsRead value dock h = p.endRunning .refused .notDocked [] :=
  if_pos (by simp [hd])

variable (hd : dock = true)
include hd

theorem Part.fieldsRead_mismatch (hw : value ≠ h.serviceWord) :
    p.fieldsRead value dock h = p.protectError.endRunning .refused .protectMismatch [] :=
  (if_neg (by simp [hd])).trans (if_pos (bne_iff_ne.mpr hw))

theorem Part.fieldsRead_enters (hw : value = h.serviceWord) :
    p.fieldsRead value dock h =
      (if h.inRange then ({ p with mode := .service } : Part).holdFields h else { p with mode := .service }).endRunning
        .done .ok [] :=
  (if_neg (by simp [hd])).trans (if_neg (by simp [hw]))

end

theorem Held.inRange_iff (h : Held) : h.inRange = true ↔
    1 ≤ h.retentionDays.toNat ∧ h.retentionDays.toNat ≤ 3650 ∧ 1 ≤ h.scrubHours.toNat ∧ h.scrubHours.toNat ≤ 168 := by
  simp [Held.inRange, Sys2Proof.Machine.inRange, and_assoc]

/-- In SERVICE mode the fields held give the next scrub step its due time, when the hours change (R88, R188). -/
theorem Part.holdFields_service (p : Part) (h : Held) :
    ({ p with mode := .service } : Part).holdFields h = { p with
      mode := .service
      route := { p.route with held := some h }
      scrub := { p.scrub with
        due := if p.route.held.map Held.scrubHours = some h.scrubHours then p.scrub.due
          else some (p.clock.now + h.scrubHours.toNat * 3600 / (p.store.nSeg - 1)) } } := by
  rw [Part.holdFields_eq]
  rfl

/-- The fields as they stand in the route sheet's words 17 to 19 (R211). -/
def Memory.heldFields (m : Memory) : Held :=
  { retentionDays := m.read 17, scrubHours := m.read 18, serviceWord := m.read 19 }

theorem Held.ofWords_readWords (m : Memory) : Held.ofWords (m.readWords 16 16) = m.heldFields := rfl

/-- The row at which that read ends. -/
theorem State.fieldRead_ends {s : State} {value : Word} {shown : Bool} {dock : Bool} {q : Part} (hs : s.Quiet)
    (hb : s.part.arb.burst = some .fieldRead)
    (hr : s.part.chan.running = some { work := .serviceEnter value, presented := shown })
    (hq : (s.part.endBurst.setDock dock).fieldsRead value dock s.mem.heldFields = q) :
    exec (.serviceEnterReadEnd dock) s = .next { s with part := q.grantPort } := by
  have burst : s.fieldBurst dock = { s with part := q } := by
    unfold State.fieldBurst
    dsimp only [Part.endBurst, Part.setDock]
    rw [hr]
    exact congrArg (fun p => { s with part := p }) hq
  have row := State.whenReady_next (ready := fun p => p.arb.burst == some .fieldRead) (f := State.fieldBurst dock) hs.1
    (by simp [hb]) (by rw [burst]; exact hs.2)
  rw [burst] at row
  exact row

/-! ## SERVICE LEAVE -/

theorem Part.leaveService_eq (p : Part) : p.leaveService = Part.slotsChanged false { p with
    mode := .guarded
    retire := if p.retire.state = .collecting then { p.retire with state := .empty, batch := none } else p.retire } := by
  unfold Part.leaveService Part.discardCollecting
  dsimp only
  split <;> rfl

/-- Settles O39: the entry's tests in order, the read's end, and the two ways out. -/
theorem serviceIsEnteredAndLeft : Obligations.ServiceIsEnteredAndLeft := by
  refine ⟨⟨?_, ?_⟩, ⟨?_, ?_⟩⟩
  · intro a w dock h s hs p ps refused
    let t := s.part.taken a .serviceEnter ps dock
    have protect : Command.wellProtected .serviceEnter ps = true := (protected16_iff _ _ _).mpr ⟨rfl, rfl⟩
    have hrest : s.part.atRest = true := hs.1.1.2.2
    have grants {q : Part} (hq : t.cmdServiceEnter w dock = q) :
        exec (.serviceEnter a w (~~~w) w dock) s = .next { s with part := q.grantPort } :=
      State.store_carries hs rfl (by simp) protect hq
    have completes {q : Part} (hq : t.cmdServiceEnter w dock = q) (hr : q.atRest = true) :
        exec (.serviceEnter a w (~~~w) w dock) s = .next { s with part := q } :=
      State.store_completes hs rfl (by simp) protect hq hr
    have refuses {o : CmdOutcome} (hq : t.cmdServiceEnter w dock = t.refuseCommand o) :
        exec (.serviceEnter a w (~~~w) w dock) s = .next (refused o) := completes hq (Part.atRest_docked _ _ _ _ _ _ _ hrest)
    refine ⟨fun hm => refuses (if_pos (by rw [show t.mode = _ from hm]; decide)),
      fun hm hd => refuses (Part.cmdServiceEnter_undocked w hm hd),
      fun hm hd hr => refuses (Part.cmdServiceEnter_onRoad w hm hd hr), fun hm hd hr hh hw => ?_,
      fun hm hd hr hh hw => ?_, fun hm hd hr hh => grants (Part.cmdServiceEnter_reads (p := t) w hm hd hr hh)⟩
    · rw [Nat.min_comm 255]
      refine completes (Part.cmdServiceEnter_mismatch w hm hd hr hh hw) ?_
      exact (Part.atRest_chan s.part { s.part.pins with dock := dock } _
        (Part.presents_work s.part a .serviceEnter ps .refused .protectMismatch [])).trans hrest
    · refine completes (Part.cmdServiceEnter_enters w hm hd hr hh hw) ?_
      exact (Part.atRest_mode (p := p.answered a .serviceEnter ps []) (m := .service) (.inl hm) (.inr rfl)).trans
        (Part.atRest_docked dock a .serviceEnter ps .done .ok [] hrest)
  · intro value dock c s hs hb hc hr p days hours word fits ended after
    let u := p.endBurst.setDock dock
    have ends {q : Part} (hq : u.fieldsRead value dock s.mem.heldFields = q) :
        exec (.serviceEnterReadEnd dock) s = .next { s with part := q.grantPort } := State.fieldRead_ends hs hb hr hq
    have presented (q : Part) (hchan : q.chan = p.chan) := Part.endRunning_eq (p := q) (hchan ▸ hr) (hchan ▸ hc)
    refine ⟨fun hd => ?_, fun hd hw => ?_, fun hd hw hf => ?_, fun hd hw hf => ?_⟩
    · exact (ends ((Part.fieldsRead_undocked value _ hd).trans (presented u rfl _ _ _)) :)
    · rw [Nat.min_comm 255]
      have read := Part.fieldsRead_mismatch (p := u) value s.mem.heldFields hd hw
      exact (ends (read.trans (Part.endRunning_eq (p := u.protectError) hr hc _ _ _)) :)
    · have read := Part.fieldsRead_enters (p := u) value s.mem.heldFields hd hw
      rw [if_neg (mt (Held.inRange_iff _).mp hf)] at read
      exact (ends (read.trans (presented { u with mode := .service } rfl _ _ _)) :)
    · have read := Part.fieldsRead_enters (p := u) value s.mem.heldFields hd hw
      rw [if_pos ((Held.inRange_iff _).mpr hf), Part.holdFields_service] at read
      exact (ends (read.trans (presented _ (by rfl) _ _ _)) :)
  · intro a s hs p
    let t := p.taken a .serviceLeave [] p.pins.dock
    refine ⟨fun hm => ?_, fun hm => ?_⟩
    · refine State.store_completes hs rfl (by simp) rfl ?_ (Part.atRest_presents _ _ _ _ _ _ hs.1.1.2.2)
      exact if_neg (by rw [show t.mode = _ from hm]; decide)
    · refine State.store_carries hs rfl (by simp) rfl ?_
      have left : t.cmdServiceLeave = t.leaveService.done [] := if_pos hm
      rw [Part.leaveService_eq] at left
      exact left.trans (Part.slotsChanged_conclude _ _ _ _ _)
  · intro s hs p
    have falls : exec .dockFall s = .next { s with part := p.dockFalls.grantPort } := by
      show Host.Outcome.next (if s.part.running then _ else _) = _
      rw [if_pos hs.1, State.settle_quiet (s := { s with part := s.part.dockFalls }) hs.2]
    refine ⟨fun hm => ?_, fun hm => ?_⟩
    · rw [falls, show p.dockFalls = p.setDock false from if_neg hm]
    · rw [falls, show p.dockFalls = (p.setDock false).leaveService from if_pos hm, Part.leaveService_eq]
      rfl

end Sys2Proof.Machine

/-! # Proofs: RETIRE and FORMAT (R71, R180, R193) -/

namespace Sys2Proof.Machine

/-! ## RETIRE -/

theorem Part.pastRetention_iff (e : SegEntry) (p : Part) : p.pastRetention e = true ↔
    ∃ h t, p.route.held = some h ∧ e.closeTime = some t ∧ p.clock.valid = true
      ∧ t + h.retentionDays.toNat * 86400 ≤ p.clock.now := by
  unfold Part.pastRetention
  split
  next h t hh ht => simp [hh, ht]
  next hn =>
    refine iff_of_false (by simp) ?_
    rintro ⟨h, t, hh, ht, -⟩
    exact hn h t hh ht

theorem Part.retirable_iff (e : SegEntry) (p : Part) : p.retirable e = true ↔
    e.state = .faulted ∨ e.state = .scrap ∨ (e.state = .closed ∧ p.pastRetention e = true) := by
  unfold Part.retirable
  cases e.state <;> simp

theorem Part.not_collects_iff (p : Part) : (!(p.retire.state == .empty || p.retire.state == .collecting)) = true ↔
    ¬(p.retire.state = .empty ∨ p.retire.state = .collecting) := by simp

theorem Part.cmdRetire_none {p : Part} {w : Word} (h : p.seg w.toNat = none) : p.cmdRetire w = p.refuseCommand .badParameter := by
  unfold Part.cmdRetire
  dsimp only
  rw [h]

section
variable {p : Part} {w : Word} {e : SegEntry} (h : p.seg w.toNat = some e)
include h

theorem Part.cmdRetire_some : p.cmdRetire w =
    if !(p.retire.state == .empty || p.retire.state == .collecting) then p.refuseCommand .busy
    else if !p.retirable e then p.refuseCommand .notRetirable
    else if e.holds ≠ 0 then p.refuseCommand .held
    else if p.batchSegs.contains w.toNat then p.refuseCommand .already
    else if 32 ≤ p.batchSegs.length then p.refuseCommand .batchFull
    else (p.joinBatch w.toNat).done [] := by
  unfold Part.cmdRetire
  dsimp only
  rw [h]

theorem Part.cmdRetire_busy (hc : ¬(p.retire.state = .empty ∨ p.retire.state = .collecting)) :
    p.cmdRetire w = p.refuseCommand .busy := by
  rw [Part.cmdRetire_some h, if_pos (p.not_collects_iff.mpr hc)]

variable (hc : p.retire.state = .empty ∨ p.retire.state = .collecting)
include hc

theorem Part.cmdRetire_notRetirable (hr : p.retirable e = false) : p.cmdRetire w = p.refuseCommand .notRetirable := by
  rw [Part.cmdRetire_some h, if_neg (mt p.not_collects_iff.mp (not_not.mpr hc)), if_pos (by simp [hr])]

variable (hr : p.retirable e = true)
include hr

theorem Part.cmdRetire_held (hh : e.holds ≠ 0) : p.cmdRetire w = p.refuseCommand .held := by
  rw [Part.cmdRetire_some h, if_neg (mt p.not_collects_iff.mp (not_not.mpr hc)), if_neg (by simp [hr]), if_pos hh]

variable (hh : e.holds = 0)
include hh

theorem Part.cmdRetire_already (hl : w.toNat ∈ p.batchSegs) : p.cmdRetire w = p.refuseCommand .already := by
  rw [Part.cmdRetire_some h, if_neg (mt p.not_collects_iff.mp (not_not.mpr hc)), if_neg (by simp [hr]), if_neg (not_not.mpr hh),
    if_pos (by simpa using hl)]

theorem Part.cmdRetire_full (hl : w.toNat ∉ p.batchSegs) (hf : 32 ≤ p.batchSegs.length) :
    p.cmdRetire w = p.refuseCommand .batchFull := by
  rw [Part.cmdRetire_some h, if_neg (mt p.not_collects_iff.mp (not_not.mpr hc)), if_neg (by simp [hr]), if_neg (not_not.mpr hh),
    if_neg (by simpa using hl), if_pos hf]

theorem Part.cmdRetire_joins (hl : w.toNat ∉ p.batchSegs) (hf : p.batchSegs.length < 32) :
    p.cmdRetire w = (p.joinBatch w.toNat).done [] := by
  rw [Part.cmdRetire_some h, if_neg (mt p.not_collects_iff.mp (not_not.mpr hc)), if_neg (by simp [hr]), if_neg (not_not.mpr hh),
    if_neg (by simpa using hl), if_neg (by omega)]

end

/-- The arbiter sees of the retire/format slot whether it has a burst to make and whether a FORMAT runs. -/
theorem Part.atRest_retire {p : Part} {r : RetireSlot} (hl : ({ p with retire := r } : Part).longHasBurst = p.longHasBurst)
    (hf : ({ p with retire := r } : Part).formatRunning = p.formatRunning) :
    ({ p with retire := r } : Part).atRest = p.atRest := by
  have waiting : ({ p with retire := r } : Part).req2Waiting = p.req2Waiting := by
    unfold Part.req2Waiting Part.headServable
    simp only [hf]
    rfl
  have grant : ({ p with retire := r } : Part).lowGrant = p.lowGrant := by
    unfold Part.lowGrant
    rw [hl]
    rfl
  unfold Part.atRest
  rw [waiting, grant]

/-- A batch that collects leaves the arbiter at rest, as one that is empty does. -/
theorem Part.atRest_collecting {p : Part} {r : RetireSlot} (hp : p.retire.state = .empty ∨ p.retire.state = .collecting)
    (hr : r.state = .collecting) : ({ p with retire := r } : Part).atRest = p.atRest := by
  refine Part.atRest_retire ?_ ?_
  · unfold Part.longHasBurst
    rcases hp with h | h <;> simp [h, hr]
  · rcases hp with h | h <;> simp [Part.formatRunning, h, hr]

/-! ## FORMAT -/

section
variable {p : Part} {w : Word} {dock : Bool}

theorem Part.cmdFormat_undocked (hd : dock = false) : p.cmdFormat w dock = p.refuseCommand .notDocked :=
  if_pos (by simp [hd])

variable (hd : dock = true)
include hd

theorem Part.cmdFormat_badCode (hs : ¬(1 ≤ w.toNat ∧ w.toNat ≤ 3)) : p.cmdFormat w dock = p.refuseCommand .badParameter :=
  (if_neg (by simp [hd])).trans (if_pos (by omega))

variable (hs : 1 ≤ w.toNat ∧ w.toNat ≤ 3)
include hs

theorem Part.cmdFormat_onRoad (hr : p.route.state ≠ .idle) : p.cmdFormat w dock = p.refuseCommand .routeState :=
  (if_neg (by simp [hd])).trans ((if_neg (by omega)).trans (if_pos hr))

variable (hr : p.route.state = .idle)
include hr

theorem Part.cmdFormat_claimed (hc : p.claims.any Claim.inUse = true) : p.cmdFormat w dock = p.refuseCommand .held :=
  (if_neg (by simp [hd])).trans ((if_neg (by omega)).trans ((if_neg (not_not.mpr hr)).trans (if_pos hc)))

variable (hc : ¬ p.claims.any Claim.inUse = true)
include hc

theorem Part.cmdFormat_busy (he : p.retire.state ≠ .empty) : p.cmdFormat w dock = p.refuseCommand .busy := by
  unfold Part.cmdFormat
  rw [if_neg (by simp [hd]), if_neg (by omega), if_neg (not_not.mpr hr), if_neg hc, if_pos he]

theorem Part.cmdFormat_starts (he : p.retire.state = .empty) : p.cmdFormat w dock = (p.startFormat w.toNat).done [] := by
  unfold Part.cmdFormat
  rw [if_neg (by simp [hd]), if_neg (by omega), if_neg (not_not.mpr hr), if_neg hc, if_neg (not_not.mpr he)]

end

theorem Claim.any_inUse_iff (l : List Claim) : l.any Claim.inUse = true ↔ ¬ ∀ c ∈ l, c.state = .closed := by
  simp [Claim.inUse]

/-- A FORMAT begins with a scanner that is not FROZEN: the scanner goes on as it stands. -/
theorem Part.startFormat_eq {p : Part} (code : Nat) (h : p.scan.run ≠ .frozen) : p.startFormat code = { p with
    store := { p.store with direct := [], segs := p.store.segs.map (fun e => { e with owed := .none }) }
    queue := []
    backup := { p.backup with outage := none, restart := none }
    asm := none
    route := { p.route with closePending := false, closeWait := none, endRecord := none }
    scrub := { p.scrub with step := none }
    retire := { state := .formatRunning, batch := none, fmt := some { code := code, stage := .label } } } :=
  Part.resumeScanner_stays (.inl h)

/-- Settles O40: the tests of RETIRE and of FORMAT in their order, and what passes them. -/
theorem retireAndFormatAreAdmitted : Obligations.RetireAndFormatAreAdmitted := by
  refine ⟨?_, ?_⟩
  · intro a w e h t b s hs hmode p n refused collects retirable listed row
    let u := p.taken a .retire [w] p.pins.dock
    have hrest : p.atRest = true := hs.1.2.2
    have completes {q : Part} (hq : u.cmdRetire w = q) (hr : q.atRest = true) :
        exec (.retire a w) s = .next { s with part := q } :=
      State.command_completes hs.1 rfl (.inr hs.2) (by rw [hmode]; rfl) rfl hq hr
    have refuses {o : CmdOutcome} (hq : u.cmdRetire w = u.refuseCommand o) : exec (.retire a w) s = .next (refused o) :=
      completes hq (Part.atRest_presents _ _ _ _ _ _ hrest)
    have joined {r : RetireSlot} (hq : u.cmdRetire w = Part.done [] { u with retire := r })
        (hp : p.retire.state = .empty ∨ p.retire.state = .collecting) (hr : r.state = .collecting) :
        exec (.retire a w) s = .next { s with part := { p.answered a .retire [w] [] with retire := r } } :=
      completes hq ((Part.atRest_collecting (p := p.answered a .retire [w] []) hp hr).trans
        (Part.atRest_presents a .retire [w] .done .ok [] hrest))
    have segs : p.batchSegs = listed := by
      simp only [listed, Part.batchSegs]
      cases p.retire.batch <;> rfl
    have passes (hr : retirable) : u.retirable e = true := by
      refine (Part.retirable_iff e u).mpr ?_
      obtain hr | hr | ⟨hc, hh, ht, hv, hn⟩ := hr
      · exact .inl hr
      · exact .inr (.inl hr)
      · exact .inr (.inr ⟨hc, (Part.pastRetention_iff e u).mpr ⟨h, t, hh, ht, hv, hn⟩⟩)
    refine ⟨fun hn => refuses (Part.cmdRetire_none hn), fun hn hc => refuses (Part.cmdRetire_busy hn hc),
      fun hn hc hr => refuses (Part.cmdRetire_notRetirable hn hc ?_),
      fun hn hc hr hh => refuses (Part.cmdRetire_held hn hc (passes hr) hh),
      fun hn hc hr hh hl => refuses (Part.cmdRetire_already hn hc (passes hr) hh (segs ▸ hl)),
      fun hn hc hr hh hl hf => refuses (Part.cmdRetire_full hn hc (passes hr) hh (segs ▸ hl) (segs ▸ hf)),
      fun hn he hb hr hh => ?_, fun hn hc hb hr hh hl hf => ?_⟩
    · refine Bool.eq_false_iff.mpr (mt (Part.retirable_iff e u).mp ?_)
      have late (hp : u.pastRetention e = true) : p.route.held ≠ none ∧ p.clock.valid = true
          ∧ ¬(p.route.held = some h ∧ e.closeTime = some t ∧ p.clock.now < t + h.retentionDays.toNat * 86400) := by
        obtain ⟨h', t', hh, ht, hv, hn⟩ := (Part.pastRetention_iff e u).mp hp
        refine ⟨fun hnone => (by cases hh.symm.trans hnone), hv, fun ⟨hh2, ht2, hlt⟩ => ?_⟩
        cases hh.symm.trans hh2
        cases ht.symm.trans ht2
        exact absurd hn (Nat.not_le.mpr hlt)
      rintro (hst | hst | ⟨hst, hp⟩)
      · simp [hst] at hr
      · simp [hst] at hr
      · obtain ⟨hheld, hvalid, hage⟩ := late hp
        simp [hst, hheld, hvalid] at hr
        exact hage hr
    · have nothing : u.batchSegs = [] := by simp [Part.batchSegs, u, Part.taken, hb]
      have joins := Part.cmdRetire_joins (p := u) hn (.inl he) (passes hr) hh (by simp [nothing]) (by simp [nothing])
      have batch : u.joinBatch n = { u with retire := { p.retire with
          state := .collecting
          batch := some { segs := [n], current := none, pos := .rewrite, completed := 0, window := true } } } := by
        simp only [Part.joinBatch, u, Part.taken, hb]
        rfl
      rw [batch] at joins
      exact joined joins (.inl he) rfl
    · have listed : u.batchSegs = b.segs := by simp [Part.batchSegs, u, Part.taken, hb]
      have joins := Part.cmdRetire_joins (p := u) hn (.inr hc) (passes hr) hh (listed ▸ hl) (listed ▸ hf)
      have batch : u.joinBatch n = { u with retire := { p.retire with
          batch := some { b with segs := b.segs ++ [n], window := true } } } := by
        simp only [Part.joinBatch, u, Part.taken, hb, ← hc]
        rfl
      rw [batch] at joins
      exact joined joins (.inr hc) hc
  · intro a w dock s hs hmode p ps refused sized free
    let t := s.part.taken a .format ps dock
    have protect : Command.wellProtected .format ps = true := (protected16_iff _ _ _).mpr ⟨rfl, rfl⟩
    have admitted : s.part.mode.admits .format = true := by rcases hmode with h | h <;> rw [h] <;> rfl
    have grants {q : Part} (hq : t.cmdFormat w dock = q) :
        exec (.format a w (~~~w) w dock) s = .next { s with part := q.grantPort } := by
      rw [State.exec_ready hs.1 rfl, Part.judge_carries (.inr (Part.taken_running_none hs.2 _ _ _ _)) admitted protect]
      exact congrArg (fun p : Part => Host.Outcome.next { s with part := p.grantPort }) hq
    have refuses {o : CmdOutcome} (hq : t.cmdFormat w dock = t.refuseCommand o) :
        exec (.format a w (~~~w) w dock) s = .next (refused o) :=
      State.command_completes hs.1 rfl (.inr hs.2) admitted protect hq (Part.atRest_docked _ _ _ _ _ _ _ hs.1.2.2)
    have inUse : t.claims.any Claim.inUse = true ↔ ¬free := Claim.any_inUse_iff _
    refine ⟨fun hd => refuses (Part.cmdFormat_undocked hd), fun hd hw => refuses (Part.cmdFormat_badCode hd hw),
      fun hd hw hr => refuses (Part.cmdFormat_onRoad hd hw hr),
      fun hd hw hr hf => refuses (Part.cmdFormat_claimed hd hw hr (inUse.mpr hf)),
      fun hd hw hr hf he => refuses (Part.cmdFormat_busy hd hw hr (mt inUse.mp (not_not.mpr hf)) he),
      fun hd hw hr hf he hscan => ?_⟩
    have starts := Part.cmdFormat_starts (p := t) hd hw hr (mt inUse.mp (not_not.mpr hf)) he
    rw [Part.startFormat_eq (p := t) _ hscan] at starts
    exact (grants starts :)

end Sys2Proof.Machine

/-! # Proofs: the retire batch blanks its segments in order (R73, R181, R182, R183) -/

namespace Sys2Proof.Machine

/-! ## No command that waits for a burst -/

theorem Part.afterLongBurst_idle {p : Part} (h : p.chan.running = none) (ended : Bool) : p.afterLongBurst ended = p := by
  unfold Part.afterLongBurst
  rw [h]

/-! ## The collection window (R181) -/

theorem Part.windowExpires_open {p : Part} {b : Batch} (hr : p.retire.state = .collecting) (hb : p.retire.batch = some b)
    (hw : b.window = true) :
    p.windowExpires = Part.slotsChanged false { p with retire := { p.retire with
      state := if p.verifyRunning then .waiting else .blanking, batch := some { b with window := false } } } := by
  unfold Part.windowExpires
  rw [hr, hb]
  exact if_pos hw

/-! ## The mark (R182) -/

/-- The entry of a segment that the blanking marks. -/
def SegEntry.marked (e : SegEntry) : SegEntry := { e with state := .retiring, owed := .none }

theorem Part.directPending_false {p : Part} {n : Nat} (h : p.store.direct.all (fun e => e.seg != n) = true) :
    p.directPending n = false := by
  unfold Part.directPending
  rw [List.any_eq_false]
  intro e he
  simpa using List.all_eq_true.mp h e he

section
variable {p : Part} {b : Batch} {n : Nat} (hr : p.retire.state = .blanking) (hb : p.retire.batch = some b)
  (hc : b.current = none)
include hr hb hc

theorem Part.takeNextSeg_takes (hn : b.segs[b.completed]? = some n)
    (hd : p.store.direct.all (fun e => e.seg != n) = true) :
    p.takeNextSeg = Part.markRetiring n
      { p with retire := { p.retire with batch := some { b with current := some n, pos := .rewrite } } } := by
  unfold Part.takeNextSeg Batch.nextSeg
  simp only [hr, hb, hc, hn, Part.directPending_false hd]
  rfl

theorem Part.awaitsMark_of : p.awaitsMark = true := by
  unfold Part.awaitsMark
  simp [hr, hb, hc]

end

/-- With no record under assembly in the segment, the mark is the segment's entry alone. -/
theorem Part.markRetiring_free {p : Part} {n : Nat} (h1 : 1 ≤ n) (ha : p.asm = none) :
    p.markRetiring n = { p with store := { p.store with segs := p.store.segs.modify (n - 1) SegEntry.marked } } := by
  unfold Part.markRetiring
  rw [Part.modSeg_pos h1]
  dsimp only
  rw [ha]
  rfl

/-- What follows the end of an assembly where nothing waited for it. -/
theorem Part.afterAssembly_other {p : Part} {st : Stream} (hw : p.route.closeWait ≠ some st) (hr : p.chan.running = none) :
    p.afterAssembly st = p := by
  have closed : p.finishClose st = p := if_neg hw
  unfold Part.afterAssembly Part.wakeWhere
  rw [closed, if_neg (by simp [Part.isRunning, hr])]

/-- The chain of the VOID record that would replace a record under assembly (R7, R42). -/
def Part.voidChain (p : Part) (x : Assembly) (t : Nat) : DWord :=
  recordChain (p.store.streams.get x.stream).running (recordHead .void (x.words.drop 1) t)

/-- A record in a segment that is no longer its stream's open one is voided with no VOID record written: its slot counts, and the
segment keeps its chain as the exit chain (R12, R42). -/
theorem Part.voidAssembly_closed {p : Part} {x : Assembly} (hx : p.asm = some x) (h1 : 1 ≤ x.seg)
    (hopen : (p.store.streams.get x.stream).openSeg ≠ some x.seg) (hw : p.route.closeWait ≠ some x.stream)
    (hrun : p.chan.running = none) (t : Nat) :
    p.voidAssembly t false = { p with
      asm := none
      attention := p.attention ||| causeRecordBroken
      clock := { p.clock with floor := max p.clock.floor t }
      store := { p.store with
        segs := p.store.segs.modify (x.seg - 1)
          (fun e => { e with count := some (e.count.getD 0 + 1), exitChain := some (p.voidChain x t) })
        streams := p.store.streams.set x.stream { p.store.streams.get x.stream with
          nextRec := (p.store.streams.get x.stream).nextRec + 1, running := p.voidChain x t } } } := by
  let broken : Part := { p with
    asm := none
    clock := { p.clock with floor := max p.clock.floor t }
    store := { p.store with
      segs := p.store.segs.modify (x.seg - 1) (fun e => { e with count := some (e.count.getD 0 + 1) })
      streams := p.store.streams.set x.stream { p.store.streams.get x.stream with
        nextRec := (p.store.streams.get x.stream).nextRec + 1, running := p.voidChain x t } } }
  have still : (broken.store.streams.get x.stream).openSeg ≠ some x.seg := by simpa [broken] using hopen
  have running : (broken.stream x.stream).running = p.voidChain x t := by simp [broken, Part.stream]
  have counted : p.voidAssembly t false
      = ((broken.slotConsumed x.stream x.seg x.slot (p.rollsOver x.stream)).raise causeRecordBroken).afterAssembly x.stream := by
    unfold Part.voidAssembly
    simp only [hx, Part.advanceStream_eq h1, Assembly.voidWords, recordChainField_recordWords]
    rfl
  rw [counted, Part.slotConsumed_closed still, running, Part.modSeg_pos h1]
  refine (Part.afterAssembly_other ?_ ?_).trans ?_
  · exact hw
  · exact hrun
  · simp only [broken, List.modify_modify_eq]
    rfl

/-- The mark voids a record under assembly in its segment (R43). -/
theorem Part.markRetiring_breaks {p : Part} {x : Assembly} (h1 : 1 ≤ x.seg) (hx : p.asm = some x) :
    p.markRetiring x.seg = Part.voidAssembly p.clock.now false
      { p with store := { p.store with segs := p.store.segs.modify (x.seg - 1) SegEntry.marked } } := by
  unfold Part.markRetiring
  rw [Part.modSeg_pos h1]
  dsimp only
  rw [hx]
  exact if_pos rfl

/-! ## The condition rewrite at the mark -/

theorem Part.retiringRewrite_of {p : Part} {b : Batch} {n : Nat} (hr : p.retire.state = .blanking)
    (hb : p.retire.batch = some b) (hc : b.current = some n) (hp : b.pos = .rewrite) : p.retiringRewrite = some n := by
  unfold Part.retiringRewrite
  simp [hr, hb, hc, hp]

theorem Part.owedRewrite_eq_none {p : Part} :
    p.owedRewrite = none ↔ ∀ (k : Nat) (e : SegEntry), p.store.segs[k]? = some e → e.owed = .none := by
  have owes (k : Nat) : (match p.seg (k + 1) with
      | some e => (match e.owed with
        | .none => none
        | .closed => some (k + 1, conditionClosed)
        | .faulted => some (k + 1, conditionFaulted))
      | none => none) = none ↔ ∀ e, p.store.segs[k]? = some e → e.owed = .none := by
    rw [Part.seg_pos (by omega), Nat.add_sub_cancel]
    cases p.store.segs[k]? with
    | none => simp
    | some e => cases he : e.owed <;> simp [he]
  unfold Part.owedRewrite
  rw [List.findSome?_eq_none_iff]
  constructor
  · intro h k e he
    exact (owes k).mp (h (k + 1) (Part.mem_recordSegs.mpr ⟨e, (Part.seg_pos (by omega)).trans he⟩)) e he
  · intro h n hn
    obtain ⟨k, -, rfl⟩ := List.mem_map.mp hn
    exact (owes k).mpr (h k)

/-- The mark gives requester 2 nothing to write: its segment owes no rewrite any more. -/
theorem Part.req2Waiting_marked {p : Part} (h : p.req2Waiting = false) (n : Nat) (r : Option Batch) :
    ({ p with
      store := { p.store with segs := p.store.segs.modify n SegEntry.marked }
      retire := { p.retire with batch := r } } : Part).req2Waiting = false := by
  have parts (q : Part) : q.req2Waiting = false ↔ q.store.direct = [] ∧ q.owedRewrite = none ∧ q.headServable = false := by
    simp [Part.req2Waiting, and_assoc]
  obtain ⟨hdirect, howed, hhead⟩ := (parts p).mp h
  refine (parts _).mpr ⟨hdirect, Part.owedRewrite_eq_none.mpr fun k e he => ?_, hhead⟩
  have all := Part.owedRewrite_eq_none.mp howed
  rw [List.getElem?_modify] at he
  obtain ⟨e', he', rfl⟩ := Option.map_eq_some_iff.mp he
  split
  · rfl
  · exact all k e' he'

/-- The row, at a segment that can be taken; the condition rewrite is its own burst if the port is free (log 42). -/
theorem State.mark_row {s : State} {p : Part} {b : Batch} {n : Nat} (hs : s.Quiet) (ha : s.part.awaitsMark = true)
    (ht : s.part.takeNextSeg = p) (hr : p.retire.state = .blanking) (hb : p.retire.batch = some b) (hc : b.current = some n)
    (hp : b.pos = .rewrite) :
    (p.arb.burst = none → p.req2Waiting = false →
      exec .blankingMark s = .next { s with
        mem := s.mem.write (n * 16384 + 1) 0x0004
        part := (Part.grantPort { p with retire := { p.retire with batch := some { b with pos := .word 16383 } } }) })
    ∧ (p.arb.burst ≠ none → exec .blankingMark s = .next { s with part := p }) := by
  have rewrite := Part.retiringRewrite_of hr hb hc hp
  have row (t : State) (hm : s.markNext = t) (hw : t.port.waiting = []) :
      exec .blankingMark s = .next { t with part := t.part.grantPort } := by
    have := State.whenReady_next (ready := Part.awaitsMark) (f := State.markNext) hs.1 ha (by rw [hm]; exact hw)
    rw [hm] at this
    exact this
  have marked : s.markNext = if ({ s with part := p } : State).portIdle then ({ s with part := p } : State).writeRetiring n
      else { s with part := p } := by
    unfold State.markNext
    rw [ht]
    dsimp only
    rw [rewrite]
  refine ⟨fun hburst h2 => ?_, fun hburst => ?_⟩
  · have idle : ({ s with part := p } : State).portIdle = true := by simp [State.portIdle, hburst, h2, hs.2]
    rw [if_pos idle] at marked
    refine (row _ marked hs.2).trans ?_
    simp only [State.writeRetiring, Part.setBlankPos, hb, Option.map_some]
    rfl
  · have held : ¬ ({ s with part := p } : State).portIdle = true := by simp [State.portIdle, hburst]
    rw [if_neg held] at marked
    have granted : p.grantPort = p := Part.grantPort_of_burst (Option.isSome_iff_ne_none.mpr hburst)
    exact (row _ marked hs.2).trans (by rw [granted])

/-! ## The bursts of a blanking -/

/-- A burst of the running blanking, at the retire batch it works on. -/
theorem State.blank_row {s t : State} (hs : s.Quiet) (hb : s.part.arb.burst = some .longOperation)
    (hr : s.part.retire.state = .blanking) (ht : s.blankBurst = t) (hw : t.port.waiting = []) :
    exec .blankingBurst s = .next { t with part := t.part.grantPort } := by
  have row := State.whenReady_next (ready := fun p => p.inLongBurst && p.retire.state == .blanking) (f := State.blankBurst)
    hs.1 (by simp [Part.inLongBurst, hb, hr]) (by rw [ht]; exact hw)
  rw [ht] at row
  exact row

theorem Part.retiringRewrite_none {p : Part} {b : Batch} {w : Nat} (hb : p.retire.batch = some b) (hp : b.pos = .word w) :
    p.retiringRewrite = none := by
  unfold Part.retiringRewrite
  rw [hb]
  cases p.retire.state <;> cases hc : b.current <;> simp [hp, hc]

section
variable {s : State} {b : Batch} {n : Nat} (hr : s.part.retire.state = .blanking) (hb : s.part.retire.batch = some b)
  (hc : b.current = some n)
include hr hb hc

theorem State.blankBurst_rewrite (hp : b.pos = .rewrite) : s.blankBurst = { s with
    mem := s.mem.write (n * 16384 + 1) 0x0004
    part := (s.part.endBurst.setBlankPos 16383).afterLongBurst false } := by
  unfold State.blankBurst
  simp only [Part.retiringRewrite_of (p := s.part.endBurst) hr hb hc hp]
  rfl

omit hr in
theorem State.blankBurst_word {w : Nat} (hp : b.pos = .word w) : s.blankBurst = { s with
    mem := s.mem.writeWords (n * 16384 + (w - 15)) (List.replicate 16 0xFFFF)
    part := if 16 ≤ w then (s.part.endBurst.setBlankPos (w - 16)).afterLongBurst false
      else (s.part.endBurst.segBlanked n).afterLongBurst (s.part.endBurst.segBlanked n).retire.batch.isNone } := by
  unfold State.blankBurst
  have batch : s.part.endBurst.retire.batch = some b := hb
  simp only [Part.retiringRewrite_none (p := s.part.endBurst) hb hp, batch, hc, hp]
  rfl

end

theorem Part.setBlankPos_eq {p : Part} {b : Batch} (hb : p.retire.batch = some b) (w : Nat) :
    p.setBlankPos w = { p with retire := { p.retire with batch := some { b with pos := .word w } } } := by
  unfold Part.setBlankPos
  rw [hb]
  rfl

theorem Part.segBlanked_more {p : Part} {b : Batch} (hb : p.retire.batch = some b) (n : Nat)
    (hm : b.completed + 1 < b.segs.length) :
    p.segBlanked n = { p.joinPool n with retire := { p.retire with
      batch := some { b with current := none, completed := b.completed + 1 } } } := by
  have frame := Part.joinPool_storeOnly n p
  unfold Part.segBlanked
  simp only [frame.retire, hb]
  exact if_pos hm

theorem Part.segBlanked_last {p : Part} {b : Batch} (hb : p.retire.batch = some b) (n : Nat)
    (hm : b.segs.length ≤ b.completed + 1) :
    p.segBlanked n = Part.slotsChanged true { p.joinPool n with
      retire := { p.retire with state := .empty, batch := none }
      attention := (p.joinPool n).attention ||| causeOpDone } := by
  have frame := Part.joinPool_storeOnly n p
  unfold Part.segBlanked
  simp only [frame.retire, hb]
  exact if_neg (by omega)

/-- Settles O49: the window, the mark in its three forms, and the burst at each position of a segment. -/
theorem theBatchIsBlankedInOrder : Obligations.TheBatchIsBlankedInOrder := by
  intro b n w x s hs hbatch hrun h1 p free cut done pooled served marked own chain broken marks breaks
  have still (q : Part) (hq : q.chan = p.chan) (e : Bool) : q.afterLongBurst e = q :=
    Part.afterLongBurst_idle ((congrArg Channel.running hq).trans hrun) e
  have joined : p.endBurst.joinPool n = served := by
    unfold Part.joinPool
    rw [Part.modSeg_pos h1]
    rfl
  have servedChan : served.chan = p.chan := joined ▸ (Part.joinPool_storeOnly n p.endBurst).chan
  have marksFree (hr : p.retire.state = .blanking) (hc : b.current = none) (hn : b.segs[b.completed]? = some n)
      (hd : p.store.direct.all (fun e => e.seg != n) = true) (ha : p.asm = none) :
      p.takeNextSeg = { p with
        store := marked
        retire := { p.retire with batch := some { b with current := some n, pos := .rewrite } } } :=
    (Part.takeNextSeg_takes hr hbatch hc hn hd).trans (Part.markRetiring_free h1 ha)
  have marksBroken (hm : marks) (hbr : breaks) : p.takeNextSeg = broken .rewrite := by
    obtain ⟨hr, hc, hn, hd⟩ := hm
    obtain ⟨ha, rfl, hopen, hw⟩ := hbr
    let took : Part := { p with retire := { p.retire with batch := some { b with current := some x.seg, pos := .rewrite } } }
    refine (Part.takeNextSeg_takes hr hbatch hc hn hd).trans ((Part.markRetiring_breaks (p := took) h1 ha).trans ?_)
    exact Part.voidAssembly_closed (p := { took with store := marked }) ha h1 hopen hw hrun _
  refine ⟨fun hr hw => ?_, fun hr hc hn hb h2 ha => ?_, fun hr hc hn hb hd ha => ?_, fun hm hbr hb => ?_,
    fun hm hbr hb h2 => ?_, fun hr hc hp hb => ?_, fun hr hc hp hw hb => ?_, fun hr hc hp hb hmore => ?_,
    fun hr hc hp hb hlast => ?_⟩
  · refine (State.partEvent_next (ready := fun _ => true) (f := Part.windowExpires) hs rfl).trans ?_
    rw [Part.windowExpires_open hr hbatch hw]
  · have nothing : p.store.direct = [] := by
      by_contra hd
      rw [Part.req2Waiting_of_direct hd] at h2
      cases h2
    have taken := marksFree hr hc hn (by simp [nothing]) ha
    exact (State.mark_row hs (Part.awaitsMark_of hr hbatch hc) taken hr rfl rfl rfl).1 hb
      (Part.req2Waiting_marked h2 _ _)
  · exact (State.mark_row hs (Part.awaitsMark_of hr hbatch hc) (marksFree hr hc hn hd ha) hr rfl rfl rfl).2 hb
  · exact (State.mark_row hs (Part.awaitsMark_of hm.1 hbatch hm.2.1) (marksBroken hm hbr) hm.1 rfl rfl rfl).2 hb
  · exact (State.mark_row hs (Part.awaitsMark_of hm.1 hbatch hm.2.1) (marksBroken hm hbr) hm.1 rfl rfl rfl).1 hb h2
  · have burst := State.blankBurst_rewrite hr hbatch hc hp
    rw [still (p.endBurst.setBlankPos 16383) rfl, Part.setBlankPos_eq (p := s.part.endBurst) hbatch] at burst
    exact (State.blank_row hs hb hr burst hs.2 :)
  · have burst := State.blankBurst_word hbatch hc hp
    rw [if_pos hw, still (p.endBurst.setBlankPos (w - 16)) rfl, Part.setBlankPos_eq (p := s.part.endBurst) hbatch] at burst
    exact (State.blank_row hs hb hr burst hs.2 :)
  · have burst := State.blankBurst_word hbatch hc hp
    have blanked := Part.segBlanked_more (p := p.endBurst) hbatch n hmore
    rw [joined] at blanked
    rw [if_neg (by decide), still _ (blanked ▸ servedChan), blanked, Nat.sub_self, Nat.add_zero] at burst
    exact (State.blank_row hs hb hr burst hs.2 :)
  · have burst := State.blankBurst_word hbatch hc hp
    have blanked := Part.segBlanked_last (p := p.endBurst) hbatch n hlast
    rw [joined] at blanked
    rw [if_neg (by decide), still _ (blanked ▸ (Part.slotsChanged_chan _ _).trans servedChan), blanked, Nat.sub_self, Nat.add_zero] at burst
    exact (State.blank_row hs hb hr burst hs.2 :)

end Sys2Proof.Machine

/-! # Proofs: a command that waits for a burst to end (R74, R76, R165, R177, R196) -/

namespace Sys2Proof.Machine

/-! ## The command's end -/

/-- The channel when a command that waited is DONE; its outcome is kept if it is still presented (R55). -/
def Channel.waited (ch : Channel) (shown : Bool) (c : CurrentCommand) : Channel :=
  { ch with
    running := none
    current := some (if shown then { c with state := .done, outcome := .ok, results := [], readPos := 0 } else c) }

/-- The works that wait for a burst of the running long operation. -/
inductive RunningWork.WaitsForBurst : RunningWork → Prop where
  | suspend : RunningWork.suspend.WaitsForBurst
  | terminate : RunningWork.terminate.WaitsForBurst
  | claimClose (i : Nat) : (RunningWork.claimClose i).WaitsForBurst

section
variable {p : Part} {w : RunningWork} {shown : Bool} {c : CurrentCommand} (hw : w.WaitsForBurst)
  (hr : p.chan.running = some { work := w, presented := shown }) (hc : p.chan.current = some c)
include hw hr hc

/-- The work takes effect, and the command is DONE. -/
theorem Part.afterLongBurst_waited {q : Part} (ended : Bool) (hd : p.deferredWork w ended = q) (hq : q.chan = p.chan) :
    p.afterLongBurst ended = q.withChan (p.chan.waited shown c) := by
  have done : p.afterLongBurst ended = q.endRunning .done .ok [] := by
    unfold Part.afterLongBurst
    rw [hr, ← hd]
    cases hw <;> rfl
  rw [done, Part.endRunning_eq (hq ▸ hr) (hq ▸ hc), hq]
  rfl

/-- An effect that changes a slot. -/
theorem Part.afterLongBurst_changed {q : Part} (ended e : Bool) (hd : p.deferredWork w ended = Part.slotsChanged e q)
    (hq : q.chan = p.chan) :
    p.afterLongBurst ended = Part.slotsChanged e (q.withChan (p.chan.waited shown c)) := by
  rw [Part.slotsChanged_withChan]
  exact Part.afterLongBurst_waited hw hr hc ended hd ((Part.slotsChanged_chan e q).trans hq)

end

/-! ## A VERIFY's burst -/

theorem Part.slotsChanged_verify_eq (ended : Bool) (p : Part) :
    (p.slotsChanged ended).verify = p.beginWaiting.startVerify.verify :=
  (congrArg Part.verify (Part.scrubTurn_eq p.beginWaiting.startVerify ended) :)

theorem Part.beginWaiting_verify (p : Part) : p.beginWaiting.verify = p.verify :=
  (congrArg Part.verify (Part.beginWaiting_eq p) :)

theorem Part.slotsChanged_verify {p : Part} (ended : Bool) (hv : p.verify ≠ none) :
    (p.slotsChanged ended).verify = p.verify := by
  have waiting := Part.beginWaiting_verify p
  rw [Part.slotsChanged_verify_eq, Part.startVerify_stays (.inl (waiting ▸ hv)), waiting]

/-- A CHECK phase with nothing left to read does not follow a change of the slots: a VERIFY that starts is in its LOCATE phase. -/
theorem Part.passCheck_slotsChanged {p : Part} (ended : Bool)
    (h : ∀ v, p.verify = some v → v.phase = .check → v.todo = [] → v.suspended = true) :
    (p.slotsChanged ended).passCheck = p.slotsChanged ended := by
  refine Part.passCheck_eq fun v hv hphase htodo => ?_
  have waiting := Part.beginWaiting_verify p
  rw [Part.slotsChanged_verify_eq] at hv
  unfold Part.startVerify at hv
  split at hv
  · split at hv
    · cases hv
      cases hphase
    · exact h v (waiting ▸ hv) hphase htodo
  · exact h v (waiting ▸ hv) hphase htodo

/-- A burst of the running VERIFY, with its read slot's words. -/
theorem State.verify_row {s : State} {v : Verify} {n k : Nat} {q : Part} (hs : s.Quiet)
    (hb : s.part.arb.burst = some .longOperation) (hv : s.part.verify = some v) (hr : v.suspended = false)
    (ha : v.readAt = (n, k))
    (hq : ((s.part.endBurst.verifySlot v (s.mem.slot n k)).afterLongBurst false).passCheck = q) :
    exec .verifyBurst s = .next { s with part := q.grantPort } := by
  have burst : s.verifyBurst = { s with part := q } := by
    unfold State.verifyBurst
    have verify : s.part.endBurst.verify = some v := hv
    simp only [verify, ha, hq]
  have row := State.whenReady_next (ready := fun p => p.inLongBurst && p.verifyRunning) (f := State.verifyBurst) hs.1
    (by simp [Part.inLongBurst, hb, Part.verifyRunning, hv, hr]) (by rw [burst]; exact hs.2)
  rw [burst] at row
  exact row

/-- A slot below the limit that agrees moves the check on by one (R171). -/
theorem Part.checkSlot_agrees {p : Part} {v : Verify} {e : SegEntry} {ws : List Word} (h1 : 1 ≤ v.check.seg)
    (he : p.store.segs[v.check.seg - 1]? = some e) (hslot : 0 < v.check.slot)
    (hl : v.check.limit = some (v.check.slot + 1)) (ha : slotAgrees e v.check.chain ws = true) :
    p.checkSlot v ws = { p with verify := some { v with
      check := { v.check with slot := v.check.slot + 1, chain := recordChainField ws } } } := by
  have fixed : v.check.fix e = v.check := by
    unfold ChainCheck.fix
    rw [hl]
  have advanced : v.check.advance e ws = .more { v.check with slot := v.check.slot + 1, chain := recordChainField ws } := by
    have compared : (if v.check.slot = 0 then headerAgrees e ws else slotAgrees e v.check.chain ws) = true := by
      rw [if_neg (by omega), ha]
    unfold ChainCheck.advance
    simp only [compared, hl]
    exact (if_neg (by simp)).trans (if_pos (Nat.lt_succ_self _))
  unfold Part.checkSlot
  rw [Part.seg_pos h1, he]
  dsimp only
  rw [fixed, advanced]

/-! ## The claim's holds -/

/-- The entry at place `j` of the segment table, with the holds of a list of segment numbers released. -/
def SegEntry.unheld (held : List Nat) (j : Nat) (g : SegEntry) : SegEntry :=
  { g with holds := g.holds - held.count (j + 1) }

theorem SegEntry.unheld_cons (n : Nat) (held : List Nat) (j : Nat) (g : SegEntry) :
    (g.unheld [n] j).unheld held j = g.unheld (n :: held) j := by
  have count : (n :: held).count (j + 1) = [n].count (j + 1) + held.count (j + 1) := List.count_append (l₁ := [n])
  unfold SegEntry.unheld
  simp only [count, Nat.sub_sub]

theorem mapIdx_unheld_nil (l : List SegEntry) : l.mapIdx (SegEntry.unheld []) = l := by
  refine List.ext_getElem? fun j => ?_
  rw [List.getElem?_mapIdx]
  cases l[j]? <;> rfl

/-- A hold released takes one from its segment. -/
theorem Part.releaseHold_eq (n : Nat) (p : Part) :
    p.modSeg n (fun e => { e with holds := e.holds - 1 })
      = { p with store := { p.store with segs := p.store.segs.mapIdx (SegEntry.unheld [n]) } } := by
  cases n with
  | zero => exact congrArg (fun l => { p with store := { p.store with segs := l } }) (mapIdx_unheld_nil p.store.segs).symm
  | succ m =>
    have segs : p.store.segs.modify m (fun e => { e with holds := e.holds - 1 })
        = p.store.segs.mapIdx (SegEntry.unheld [m + 1]) := by
      refine List.ext_getElem? fun j => ?_
      rw [List.getElem?_modify, List.getElem?_mapIdx]
      refine congrArg (Option.map · _) (funext fun g => ?_)
      by_cases hj : m = j <;> simp [SegEntry.unheld, hj]
    rw [Part.modSeg_succ, segs]

/-- Releasing a list of holds takes from each segment as many as the list names it. -/
theorem Part.releaseHolds_eq (held : List Nat) : ∀ p : Part,
    held.foldl (fun p n => p.modSeg n (fun e => { e with holds := e.holds - 1 })) p
      = { p with store := { p.store with segs := p.store.segs.mapIdx (SegEntry.unheld held) } } := by
  induction held with
  | nil => exact fun p => congrArg (fun l => { p with store := { p.store with segs := l } }) (mapIdx_unheld_nil p.store.segs).symm
  | cons n held ih =>
    intro p
    rw [List.foldl_cons, ih, Part.releaseHold_eq]
    have both : (p.store.segs.mapIdx (SegEntry.unheld [n])).mapIdx (SegEntry.unheld held)
        = p.store.segs.mapIdx (SegEntry.unheld (n :: held)) := by
      rw [List.mapIdx_mapIdx]
      exact congrArg (fun f => p.store.segs.mapIdx f) (funext fun j => funext (SegEntry.unheld_cons n held j))
    rw [both]

/-- CLAIM CLOSE of the claim whose VERIFY runs: the holds released, the entry freed, the slot emptied (R175, R177). -/
theorem Part.closeVerify_eq {p : Part} {v : Verify} {i : Nat} {k : Claim} (hv : p.verify = some v)
    (hk : p.claims[i]? = some k) :
    p.closeVerify i = Part.slotsChanged (!v.suspended) { p with
      verify := none, attention := p.attention ||| causeOpDone
      store := { p.store with segs := p.store.segs.mapIdx (SegEntry.unheld k.held) }
      claims := p.claims.set i Claim.free } := by
  have claim : p.claim i = k := by
    rw [Part.claim, List.getD_eq_getElem?_getD, hk]
    rfl
  let released : Part := { p with
    store := { p.store with segs := p.store.segs.mapIdx (SegEntry.unheld k.held) }
    claims := p.claims.set i Claim.free }
  have freed : p.freeClaim i = released := by
    unfold Part.freeClaim Part.modClaim
    rw [claim, Part.releaseHolds_eq, modify_eq_set_getD _ _ _ Claim.free]
  have running : released.verifyRunning = !v.suspended := Part.verifyRunning_some (p := released) hv
  unfold Part.closeVerify Part.emptyVerify
  rw [freed, running]
  rfl

/-! ## The LOCATE phase's last burst -/

/-- What holding a segment leaves: the channel, and a slot that was not blanking. -/
structure Part.HoldKept (p q : Part) : Prop where
  chan : q.chan = p.chan
  blanking : q.retire.state = .blanking → p.retire.state = .blanking

theorem Part.HoldKept.refl (p : Part) : Part.HoldKept p p := ⟨rfl, id⟩

theorem Part.HoldKept.trans {p q r : Part} (h : Part.HoldKept p q) (k : Part.HoldKept q r) : Part.HoldKept p r :=
  ⟨k.chan.trans h.chan, h.blanking ∘ k.blanking⟩

theorem Part.HoldKept.ite {p q r : Part} {c : Prop} [Decidable c] (h : Part.HoldKept p q) (k : Part.HoldKept p r) :
    Part.HoldKept p (if c then q else r) := by
  split
  · exact h
  · exact k

theorem Part.considerHold_holdKept (i lo hi : Nat) (p : Part) (n : Nat) : Part.HoldKept p (p.considerHold i lo hi n) := by
  have claimed (f : Claim → Claim) (q : Part) : Part.HoldKept q (q.modClaim i f) := ⟨rfl, id⟩
  have unbatched (q : Part) : Part.HoldKept q (q.unbatch n) := by
    unfold Part.unbatch
    split
    · exact .ite ⟨rfl, (nomatch ·)⟩ ⟨rfl, id⟩
    · exact .refl q
  have frame := Part.modSeg_storeOnly n (fun e => { e with holds := e.holds + 1 }) p
  have held : Part.HoldKept p (p.modSeg n (fun e => { e with holds := e.holds + 1 })) := ⟨frame.chan, by rw [frame.retire]; exact id⟩
  unfold Part.considerHold
  split
  · exact .refl p
  · refine .ite (.refl p) (.ite (claimed _ p) ?_)
    exact .ite (.refl p) (.ite (claimed _ p) (.ite (claimed _ p) ((held.trans (unbatched _)).trans (claimed _ _))))

theorem Part.holdPhase_holdKept (v : Verify) (p : Part) : Part.HoldKept p (p.holdPhase v) := by
  have held (lo hi : Nat) (l : List Nat) : ∀ q : Part, Part.HoldKept q (l.foldl (Part.considerHold v.claim lo hi) q) := by
    induction l with
    | nil => exact .refl
    | cons n l ih => exact fun q => (Part.considerHold_holdKept _ lo hi q n).trans (ih _)
  have covered (c : Prop) [Decidable c] (q : Part) :
      Part.HoldKept q (if c then q else q.modClaim v.claim (fun c => { c with retiredRange := true })) :=
    .ite (.refl q) ⟨rfl, id⟩
  exact ⟨((held _ _ _ p).trans (covered _ _)).chan, ((held _ _ _ p).trans (covered _ _)).blanking⟩

/-- The burst that finds the consignment leaves the VERIFY at the start of its CHECK phase (R165, R167). -/
theorem Part.locateSlot_found {p : Part} {v : Verify} {ws : List Word} (hs : v.suspended = false)
    (hf : isAcceptedLoad ((p.claim v.claim).id.getD 0) ws = true) :
    Part.HoldKept p (p.locateSlot v ws)
      ∧ ∃ u, (p.locateSlot v ws).verify = some u ∧ u.suspended = false ∧ u.phase = .check ∧ u.count = 0 := by
  have found : p.locateSlot v ws = p.located v (v.locate.settle ws) ws := if_pos hf
  rw [found]
  have named (f : Claim → Claim) : Part.HoldKept p (p.modClaim v.claim f) := ⟨rfl, id⟩
  exact ⟨(named _).trans (Part.holdPhase_holdKept _ _), _, rfl, hs, rfl, rfl⟩

/-- A VERIFY that is suspended makes no burst, and the arbiter's grant leaves it as it is. -/
theorem Part.grantPort_suspended {p : Part} {v : Verify} (hv : p.verify = some v) (hs : v.suspended = true) :
    p.grantPort.verify = some v ∧ p.grantPort.chan = p.chan := by
  refine ⟨?_, (Part.grantPort_grantOnly p).chan⟩
  have idle (q : Part) (hq : q.verify = p.verify) : q.fixGrant = q := by
    unfold Part.fixGrant
    rw [if_neg]
    simp [Part.verifyRunning, hq, hv, hs]
  unfold Part.grantPort
  split
  · split
    · exact hv
    · rw [idle (p.giveBurst .longOperation) rfl]
      exact hv
    · exact hv
  · exact hv

theorem Part.terminateNow_verify {p : Part} {v : Verify} (hb : p.retire.state ≠ .blanking)
    (hf : p.retire.state ≠ .formatRunning) (hv : p.verify = some v) (hs : v.suspended = false) :
    p.terminateNow = Part.slotsChanged true { p with
      verify := none, attention := p.attention ||| causeClaimReady ||| causeOpDone
      claims := p.claims.modify v.claim v.aborted } := by
  have running : p.verifyRunning = true := (Part.verifyRunning_some hv).trans (by simp [hs])
  unfold Part.terminateNow
  rw [if_neg hb, if_neg hf, if_pos running, Part.abortVerify_eq hv, hs]
  rfl

/-- A claim ended before its COLLECT phase keeps its findings as they stand. -/
theorem Verify.aborted_early {v : Verify} (h : v.phase ≠ .collect) (k : Claim) :
    v.aborted k = { k with state := .ready, integrity := some .aborted } := by
  unfold Verify.aborted
  rw [if_neg h]

/-- A burst of the FORMAT. -/
theorem State.format_row {s t : State} (hs : s.Quiet) (hb : s.part.arb.burst = some .longOperation)
    (hr : s.part.retire.state = .formatRunning) (ht : s.formatBurst = t) (hw : t.port.waiting = []) :
    exec .formatBurst s = .next { t with part := t.part.grantPort } := by
  have row := State.whenReady_next (ready := fun p => p.inLongBurst && p.formatRunning) (f := State.formatBurst)
    hs.1 (by simp [Part.inLongBurst, Part.formatRunning, hb, hr]) (by rw [ht]; exact hw)
  rw [ht] at row
  exact row

/-- Settles O38: what waits acts when the burst's own work is done, and the command is DONE with it. -/
theorem waitingCommandsActAtTheEndOfTheBurst : Obligations.WaitingCommandsActAtTheEndOfTheBurst := by
  intro shown c b f v k e st n w s hs hb hc h1 p cut runs free blanks blanked read chain agrees checks moved
  have blanking {work : RunningWork} {q : Part} (hw : work.WaitsForBurst) (hbl : blanks) (hrun : runs work)
      (hd : Part.deferredWork work false
        { p.endBurst with retire := { p.retire with batch := some { b with pos := .word (w - 16) } } } = Part.slotsChanged true q)
      (hq : q.chan = p.chan) :
      exec .blankingBurst s = .next (blanked (Part.slotsChanged true (q.withChan (p.chan.waited shown c)))) := by
    obtain ⟨hr, hbt, hcur, hpos, h16⟩ := hbl
    have burst := State.blankBurst_word hbt hcur hpos
    rw [if_pos h16, Part.setBlankPos_eq (p := s.part.endBurst) hbt] at burst
    have acts := Part.afterLongBurst_changed
      (p := { p.endBurst with retire := { p.retire with batch := some { b with pos := .word (w - 16) } } }) hw hrun hc
      false true hd hq
    exact (State.blank_row hs hb hr (burst.trans (congrArg (fun q => ({ s with
      mem := s.mem.writeWords (n * 16384 + (w - 15)) cut, part := q } : State)) acts)) hs.2 :)
  have checking {work : RunningWork} {q : Part} (hw : work.WaitsForBurst) (hch : checks) (hrun : runs work)
      (hd : Part.deferredWork work false { p.endBurst with verify := some moved } = Part.slotsChanged true q)
      (hq : q.chan = p.chan) (hsv : ∀ u, q.verify = some u → u.suspended = true) :
      exec .verifyBurst s = .next { s with part :=
        (Part.slotsChanged true (q.withChan (p.chan.waited shown c))).grantPort } := by
    obtain ⟨hv, hsus, hphase, hseg, -, -, hentry, hst, hslot, hlimit, hagrees, -⟩ := hch
    have words : read = s.mem.slot v.check.seg v.check.slot := rfl
    have field : chain = recordChainField (s.mem.slot v.check.seg v.check.slot) := by
      simp only [chain, words, Memory.getD_slot_num (i := 14) (by decide)]
      rfl
    have compared : slotAgrees e v.check.chain (s.mem.slot v.check.seg v.check.slot) = true := by
      unfold slotAgrees
      rw [hst, ← hagrees]
      simp only [agrees, field, words, Memory.getD_slot (by decide : 0 < 16)]
      cases Kind.ofHeader (wordAt (s.mem.slot v.check.seg v.check.slot) 0) <;> rfl
    have agreed := Part.checkSlot_agrees (p := p.endBurst) hseg hentry hslot hlimit compared
    rw [← field] at agreed
    have reads : p.endBurst.verifySlot v (s.mem.slot v.check.seg v.check.slot) = { p.endBurst with verify := some moved } := by
      unfold Part.verifySlot
      rw [hphase]
      exact agreed
    refine State.verify_row hs hb hv hsus (n := v.check.seg) (k := v.check.slot) (by simp [Verify.readAt, hphase]) ?_
    have acts := Part.afterLongBurst_changed (p := { p.endBurst with verify := some moved }) hw hrun hc false true hd hq
    rw [reads, acts]
    exact Part.passCheck_slotsChanged _ fun u hu _ _ => hsv u hu
  refine ⟨fun hbl hrun => ?_, fun hbl hrun => ?_, fun hr hf hst hl hrun => ?_, fun hch hrun => ?_, fun hch hrun => ?_,
    fun hch hrun => ?_, fun hv hsv hphase hslot hr hf hrun hfound => ?_, fun q hrun hcur => ?_⟩
  · exact (blanking .suspend hbl hrun (Part.suspendNow_blanking hbl.1) rfl :)
  · obtain ⟨m, rfl⟩ : ∃ m, n = m + 1 := ⟨n - 1, by omega⟩
    exact (blanking .terminate hbl hrun (Part.terminateNow_marked hbl.1 rfl hbl.2.2.1) rfl :)
  · let took : Part := p.endBurst.setFormatStage (.segment 1 16383)
    have unread : took.isRunning .routeLoad = false := by
      simp [Part.isRunning, took, Part.setFormatStage, Part.endBurst, show p.chan.running = _ from hrun]
    have ended : took.terminateNow = took.formatTerminated :=
      (if_neg (by rw [show took.retire.state = _ from hr]; decide)).trans (if_pos hr)
    have acts := Part.afterLongBurst_changed (p := took) .terminate hrun hc false true
      (ended.trans (Part.formatTerminated_eq unread)) rfl
    have idle : ¬ took.route.state = .loaded := hl
    simp only [if_neg idle] at acts
    have burst : s.formatBurst = { s with mem := s.mem.writeWords 0 cut, part := took.afterLongBurst false } := by
      unfold State.formatBurst
      have fmt : s.part.endBurst.retire.fmt = some f := hf
      simp only [fmt, hst]
      rfl
    rw [acts] at burst
    exact (State.format_row hs hb hr burst hs.2 :)
  · exact (checking .suspend hch hrun (Part.suspendNow_verify hch.2.2.2.2.1 rfl hch.2.1) rfl
      (by rintro u ⟨⟩; rfl) :)
  · obtain ⟨-, hsus, hphase, -, hbl, hf, -, -, -, -, -, hk⟩ := id hch
    have aborted : p.claims.modify v.claim moved.aborted
        = p.claims.set v.claim { k with state := .ready, integrity := some .aborted } := by
      rw [modify_eq_set_getD _ _ _ Claim.free, List.getD_eq_getElem?_getD, hk, Option.getD_some,
        Verify.aborted_early (by rw [show moved.phase = _ from hphase]; decide)]
    have ended := Part.terminateNow_verify (p := { p.endBurst with verify := some moved }) hbl hf rfl hsus
    refine (checking .terminate hch hrun ended rfl (fun _ h => nomatch h)).trans ?_
    show Host.Outcome.next { s with part := (Part.slotsChanged true { free with
      verify := none, attention := p.attention ||| causeClaimReady ||| causeOpDone
      claims := p.claims.modify v.claim moved.aborted }).grantPort } = _
    rw [aborted]
  · obtain ⟨-, hsus, -, -, -, -, -, -, -, -, -, hk⟩ := id hch
    have closed := Part.closeVerify_eq (p := { p.endBurst with verify := some moved }) rfl hk
    rw [show moved.suspended = false from hsus] at closed
    have closes : Part.deferredWork (.claimClose v.claim) false { p.endBurst with verify := some moved } = _ :=
      (if_pos (beq_self_eq_true v.claim)).trans closed
    exact (checking (.claimClose _) hch hrun closes rfl (fun _ h => nomatch h) :)
  · obtain ⟨kept, u, hu, husus, huphase, hucount⟩ := Part.locateSlot_found (p := p.endBurst) hsv hfound
    generalize hq : p.endBurst.locateSlot v (s.mem.slot v.locate.seg w) = q at kept hu
    have readsAt : v.readAt = (v.locate.seg, w) := by simp [Verify.readAt, hphase, hslot]
    have reads : p.endBurst.verifySlot v (s.mem.slot v.locate.seg w) = q := by
      unfold Part.verifySlot
      rw [hphase]
      exact hq
    have blank : q.retire.state ≠ .blanking := mt kept.blanking hr
    let suspended : Part := { q with verify := some { u with suspended := true } }
    let held : Part := suspended.withChan (p.chan.waited shown c)
    have acts : q.afterLongBurst false = held.slotsChanged true :=
      (Part.afterLongBurst_changed (p := q) .suspend ((congrArg Channel.running kept.chan).trans hrun)
        ((congrArg Channel.current kept.chan).trans hc) false true (Part.suspendNow_verify blank hu husus) rfl).trans
        (congrArg (fun ch : Channel => Part.slotsChanged true (suspended.withChan (ch.waited shown c))) kept.chan)
    have final := Part.passCheck_slotsChanged (p := held) true fun x hx _ _ => by
      cases hx
      rfl
    have row := State.verify_row hs hb hv hsv readsAt (q := held.slotsChanged true) (by rw [reads, acts, final])
    have verify : (held.slotsChanged true).verify = some { u with suspended := true } :=
      Part.slotsChanged_verify (p := held) true (by simp [held, suspended, Part.withChan])
    obtain ⟨granted, chan⟩ := Part.grantPort_suspended verify rfl
    refine ⟨_, _, row, granted, rfl, huphase, hucount, chan.trans (Part.slotsChanged_chan true held)⟩
  · have ends {work : RunningWork} (hw : work.WaitsForBurst) (hd : q.deferredWork work true = q)
        (h : q.chan.running = some { work := work, presented := shown }) :=
      Part.afterLongBurst_waited hw h hcur true hd rfl
    obtain h | h := hrun
    · exact ends .suspend rfl h
    · exact ends .terminate rfl h

end Sys2Proof.Machine

/-! # Proofs: the gate (R44, R51, R52, R53) -/

namespace Sys2Proof.Machine

/-! ## What a write does at each gate -/

/-- The presentation that has ended stays ended when a new record is presented. -/
theorem Part.met_present (p : Part) (dock : Bool) (a : Addr) (echo : Word) (params : List Word) (st : CmdState)
    (o : CmdOutcome) :
    (p.met dock).present a echo params st o = { p.met dock with chan := { (p.met dock).chan with
      current := some { echo := echo, params := params, state := st, outcome := o, results := [], toggle := false,
                        addr := some a, readPos := 0 } } } := by
  unfold Part.present Part.met
  cases p.chan.running <;> rfl

theorem Part.arrive_ends {p : Part} (h : p.collecting = false) (a : Addr) (d : Word) (dock : Bool) :
    (p.setDock dock).arrive a d dock = (p.met dock).gateWrite a d dock := by
  have setDock : (p.setDock dock).collecting = false := h
  unfold Part.arrive
  rw [setDock]
  rfl

theorem Part.gateWrite_key {p : Part} (hg : p.chan.gate = .idle) (a : Addr) (dock : Bool) :
    p.gateWrite a 0x5AC3 dock = (p.setGate (.keyed a), []) := by
  unfold Part.gateWrite
  rw [hg]
  rfl

theorem Part.gateWrite_other {p : Part} {d : Word} (hg : p.chan.gate = .idle) (hd : d ≠ 0x5AC3) (a : Addr) (dock : Bool) :
    p.gateWrite a d dock = (p, [.police a d none]) := by
  unfold Part.gateWrite
  rw [hg]
  exact if_neg hd

theorem Part.arrive_key {p : Part} (hg : p.chan.gate = .idle) (a : Addr) (dock : Bool) :
    (p.setDock dock).arrive a 0x5AC3 dock = ((p.met dock).setGate (.keyed a), []) :=
  (Part.arrive_ends (Part.collecting_idle hg) a _ dock).trans (Part.gateWrite_key (p := p.met dock) hg a dock)

theorem Part.arrive_gates {p : Part} {a : Addr} (hg : p.chan.gate = .keyed a) (dock : Bool) :
    (p.setDock dock).arrive a 0xA53C dock = ((p.met dock).setGate (.gated a), []) := by
  have gate : (p.met dock).chan.gate = .keyed a := hg
  rw [Part.arrive_ends (by simp [Part.collecting, hg])]
  unfold Part.gateWrite
  rw [gate]
  exact if_pos ⟨rfl, rfl⟩

theorem Part.arrive_releases {p : Part} {a b : Addr} (hg : p.chan.gate = .keyed b) (hab : b ≠ a) (d : Word) (dock : Bool) :
    (p.setDock dock).arrive a d dock = ((p.met dock).setGate .idle, [.police b 0x5AC3 (some p.mode), .gate a d dock]) := by
  have gate : (p.met dock).chan.gate = .keyed b := hg
  rw [Part.arrive_ends (by simp [Part.collecting, hg])]
  unfold Part.gateWrite
  rw [gate]
  exact if_neg fun h => hab h.1.symm

theorem Part.arrive_code {p : Part} {a : Addr} {d : Word} {c : Command} (hg : p.chan.gate = .gated a)
    (hd : Command.ofCode d = some c) (dock : Bool) :
    (p.setDock dock).arrive a d dock = ((p.met dock).takeCommand a c dock, []) := by
  have gate : (p.met dock).chan.gate = .gated a := hg
  rw [Part.arrive_ends (by simp [Part.collecting, hg])]
  unfold Part.gateWrite
  simp only [gate, hd, if_true]

theorem Part.arrive_unknown {p : Part} {a : Addr} {d : Word} (hg : p.chan.gate = .gated a) (hd : Command.ofCode d = none)
    (dock : Bool) :
    (p.setDock dock).arrive a d dock = (((p.met dock).setGate .idle).present a d [] .refused .unknownCommand, []) := by
  have gate : (p.met dock).chan.gate = .gated a := hg
  rw [Part.arrive_ends (by simp [Part.collecting, hg])]
  unfold Part.gateWrite
  simp only [gate, hd, if_true]

/-- A command with no parameter words is complete with its code. -/
theorem Part.takeCommand_bare {p : Part} {c : Command} (hc : c.paramCount = 0) (a : Addr) (dock : Bool) :
    (p.met dock).takeCommand a c dock = Part.judge c [] dock (p.taken a c [] dock) := by
  unfold Part.takeCommand
  rw [if_pos hc, Part.met_present]
  rfl

theorem Part.takeCommand_collects {p : Part} {c : Command} (hc : c.paramCount ≠ 0) (a : Addr) (dock : Bool) :
    (p.met dock).takeCommand a c dock = { p.taken a c [] dock with
      chan := { p.presents a c [] .running .ok [] with gate := .parameters a c [] } } := by
  unfold Part.takeCommand
  rw [if_neg hc, Part.met_present]
  rfl

/-- While a command is collected, a write ends no presentation (R56). -/
theorem Part.arrive_collects {p : Part} {b : Addr} {c : Command} {got : List Word}
    (hg : p.chan.gate = .parameters b c got) (a : Addr) (d : Word) (dock : Bool) : (p.setDock dock).arrive a d dock =
    if a = b then ((p.setDock dock).takeParameter b c got d dock, [])
    else (((p.setDock dock).setGate .idle).abandon, [.gate a d dock]) := by
  have setDock : (p.setDock dock).collecting = true := by simp [Part.collecting, Part.setDock, hg]
  have gate : (p.setDock dock).chan.gate = .parameters b c got := hg
  unfold Part.arrive Part.gateWrite
  rw [setDock, if_pos rfl, gate]

section
variable {p : Part} {r : CurrentCommand} (hr : p.chan.current = some r)
include hr

theorem Part.takeParameter_more {c : Command} {got : List Word} (b : Addr) (d : Word) (dock : Bool) (hn : got.length + 1 < c.paramCount) :
    (p.setDock dock).takeParameter b c got d dock = { p.setDock dock with chan := { p.chan with
      gate := .parameters b c (got ++ [d]), current := some { r with params := got ++ [d] } } } := by
  have short : ¬ c.paramCount ≤ (got ++ [d]).length := by simp; omega
  have current : (p.setDock dock).chan.current = some r := hr
  unfold Part.takeParameter
  simp only [if_neg short, current, Option.map_some]
  rfl

theorem Part.takeParameter_last {c : Command} {got : List Word} (b : Addr) (d : Word) (dock : Bool) (hn : c.paramCount ≤ got.length + 1) :
    (p.setDock dock).takeParameter b c got d dock = Part.judge c (got ++ [d]) dock { p.setDock dock with
      chan := { p.chan with gate := .idle, current := some { r with params := got ++ [d] } } } := by
  have full : c.paramCount ≤ (got ++ [d]).length := by simpa using hn
  have current : (p.setDock dock).chan.current = some r := hr
  unfold Part.takeParameter
  simp only [if_pos full, current, Option.map_some]
  rfl

theorem Part.abandon_eq (dock : Bool) : ((p.setDock dock).setGate .idle).abandon = { p.setDock dock with chan := { p.chan with
    gate := .idle
    current := some { r with params := [], state := .refused, outcome := .abandoned, results := [], readPos := 0 } } } := by
  have current : ((p.setDock dock).setGate .idle).chan.current = some r := hr
  unfold Part.abandon
  simp only [Part.refuseCommand, Part.conclude, current, Option.map_some]
  rfl

end

/-! ## The port at work on one access -/

/-- The state while the port works on what stands in its list. -/
def State.serving (s : State) (m : Memory) (q : Part) (ws : List Work) : State :=
  { s with mem := m, part := q, port := { s.port with waiting := ws } }

theorem State.serving_done {s : State} (hw : s.port.waiting = []) (m : Memory) {q : Part} (hq : q.atRest = true) (n : Nat) :
    (s.serving m q []).drain n = { s with mem := m, part := q } := by
  rw [State.drain_nil rfl]
  obtain ⟨pending, mem, ⟨waiting, readData⟩, part⟩ := s
  obtain rfl : waiting = [] := hw
  simp only [State.serving, Part.grantPort_atRest hq]

theorem State.upstreamWrite_serves {s : State} (hq : s.Quiet) (a : Addr) (d : Word) (dock : Bool) :
    exec (.upstreamWrite a d dock) s = .next ((s.serving s.mem (s.part.setDock dock) [.write a d dock]).drain 8) := by
  show execUpstreamWrite a d dock s = _
  unfold execUpstreamWrite State.access
  dsimp only
  rw [hq.2, List.nil_append, if_pos (show (s.part.setDock dock).running = true from hq.1), State.settle_eq_drain]
  rfl

theorem State.upstreamRead_serves {s : State} (hq : s.Quiet) (a : Addr) :
    exec (.upstreamRead a) s = .next ((s.serving s.mem s.part [.read a]).drain 8) := by
  show execUpstreamRead a s = _
  unfold execUpstreamRead State.access
  dsimp only
  rw [hq.2, List.nil_append, if_pos hq.1, State.settle_eq_drain]
  rfl

section
variable (s : State) (m : Memory) {p q : Part} {a : Addr} {d : Word} {dock : Bool} {more : List Work} (rest : List Work) (n : Nat)

theorem State.serving_write (h : p.arrive a d dock = (q, more)) :
    (s.serving m p (.write a d dock :: rest)).drain (n + 1) = (s.serving m q (more ++ rest)).drain n := by
  refine (State.drain_serves (t := s.serving m q (.write a d dock :: rest)) rfl ?_ n).trans rfl
  have arrives : (s.serving m p (.write a d dock :: rest)).part.arrive a d dock = (q, more) := h
  simp only [State.tryWork, arrives]
  rfl

theorem State.serving_gate (h : p.gateWrite a d dock = (q, more)) :
    (s.serving m p (.gate a d dock :: rest)).drain (n + 1) = (s.serving m q (more ++ rest)).drain n := by
  refine (State.drain_serves (t := s.serving m q (.gate a d dock :: rest)) rfl ?_ n).trans rfl
  have arrives : (s.serving m p (.gate a d dock :: rest)).part.gateWrite a d dock = (q, more) := h
  simp only [State.tryWork, arrives]
  rfl

/-- A write that the policer hands on in UNFORMATTED mode reaches memory (R31). -/
theorem State.serving_police {released : Option Mode} (hm : p.mode = .unformatted) (hr : released.getD .unformatted = .unformatted)
    (hf : p.portFree = true) (a : Addr) (d : Word) :
    (s.serving m p (.police a d released :: rest)).drain (n + 2) = (s.serving (m.write a.toNat d) p.granted rest).drain n := by
  have unbroken (ws : List Work) : (s.serving m p ws).part.breaks a = false := Part.breaks_of_unpoliced hm a
  have policed : (s.serving m p (.police a d released :: rest)).tryWork (.police a d released)
      = some (s.serving m p (.police a d released :: rest), [.place a d p.clock.now released]) :=
    State.police_unbroken (unbroken _) d released
  let v : State := s.serving m p (.place a d p.clock.now released :: rest)
  have placed : v.tryWork (.place a d p.clock.now released) = some ({ v with mem := m.write a.toNat d, part := p.granted }, []) := by
    show v.place a d p.clock.now released = _
    rw [State.place_unbroken (unbroken _), State.classify_unformatted (by rw [show v.part.mode = _ from hm]; exact hr),
      State.forward_eq (s := v) hf]
    rfl
  exact (State.drain_serves rfl policed (n + 1)).trans (State.drain_serves rfl placed n)

end

/-- A write that the gate consumes; the arbiter grants what its effect lets it grant. -/
theorem State.upstreamWrite_consumed {s : State} {a : Addr} {d : Word} {dock : Bool} {q : Part} (hq : s.Quiet)
    (h : (s.part.setDock dock).arrive a d dock = (q, [])) :
    exec (.upstreamWrite a d dock) s = .next { s with part := q.grantPort } :=
  congrArg Host.Outcome.next (State.access_consumed (s := { s with part := s.part.setDock dock }) hq h)

theorem State.upstreamWrite_gated {s : State} {a : Addr} {d : Word} {dock : Bool} {q : Part} (hq : s.Quiet)
    (h : (s.part.setDock dock).arrive a d dock = (q, [])) (hr : q.atRest = true) :
    exec (.upstreamWrite a d dock) s = .next { s with part := q } := by
  rw [State.upstreamWrite_consumed hq h, Part.grantPort_atRest hr]

/-- A read at a GATED address with nothing presented there returns the blank word (R52). -/
theorem State.upstreamRead_gated {s : State} {a : Addr} (hq : s.Quiet) (hrest : s.part.atRest = true)
    (hg : s.part.chan.gate = .gated a) (hc : s.part.chan.current = none) :
    exec (.upstreamRead a) s = .next { s with port := { s.port with readData := some 0xFFFF } } := by
  have shown : s.part.presentedAt a = none := Part.presentedAt_none fun c h => nomatch hc.symm.trans h
  let v : State := s.serving s.mem s.part [.read a]
  have answers : v.tryWork (.read a) = some (v.answerRead 0xFFFF, []) := by
    have presented : v.part.presentedAt a = none := shown
    have gate : v.part.chan.gate = .gated a := hg
    show some (v.arriveRead a) = _
    unfold State.arriveRead
    simp only [presented, gate, if_true]
    rfl
  rw [State.upstreamRead_serves hq]
  refine congrArg Host.Outcome.next ((State.drain_serves rfl answers 7).trans ((State.drain_nil rfl 7).trans ?_))
  have granted : s.part.grantPort = s.part := Part.grantPort_atRest hrest
  obtain ⟨pending, mem, ⟨waiting, readData⟩, part⟩ := s
  obtain rfl : waiting = [] := hq.2
  exact congrArg (fun q => ({ pending := pending, mem := mem, port := ⟨[], some 0xFFFF⟩, part := q } : State)) granted

/-- A read of the held K1's own address writes it first (R44). -/
theorem State.upstreamRead_releases {s : State} {a : Addr} (hq : s.Quiet) (hrest : s.part.atRest = true)
    (hm : s.part.mode = .unformatted) (hb : s.part.arb.burst = none) (h2 : s.part.req2Waiting = false)
    (hg : s.part.chan.gate = .keyed a) (hu : s.part.presentedAt a = none) :
    exec (.upstreamRead a) s = .next { s with
      mem := s.mem.write a.toNat 0x5AC3
      port := { s.port with readData := some ((s.mem.write a.toNat 0x5AC3).read a.toNat) }
      part := (s.part.setGate .idle).granted.granted } := by
  let p : Part := s.part.setGate .idle
  let u : State := s.serving s.mem p [.police a 0x5AC3 (some .unformatted), .modeRead a]
  let w : State := s.serving (s.mem.write a.toNat 0x5AC3) p.granted [.modeRead a]
  have arrives : (s.serving s.mem s.part [.read a]).tryWork (.read a)
      = some ({ s.serving s.mem s.part [.read a] with part := p }, [.police a 0x5AC3 (some .unformatted), .modeRead a]) := by
    have presented : (s.serving s.mem s.part [.read a]).part.presentedAt a = none := hu
    have gate : (s.serving s.mem s.part [.read a]).part.chan.gate = .keyed a := hg
    have mode : (s.serving s.mem s.part [.read a]).part.mode = .unformatted := hm
    show some ((s.serving s.mem s.part [.read a]).arriveRead a) = _
    unfold State.arriveRead
    simp only [presented, gate, mode, if_true]
    rfl
  have free : p.portFree = true := Part.portFree_of (p := s.part) hb (.inr h2)
  have freeAgain : w.part.portFree = true := Part.portFree_of (p := p.granted) hb (.inr h2)
  have reads : w.tryWork (.modeRead a)
      = some ({ w.answerRead (w.mem.read a.toNat) with part := w.part.granted }, []) := by
    show (w.modeRead a).map (fun t => (t, [])) = _
    rw [State.modeRead_memory freeAgain (.inl (by simp [Part.policed, show w.part.mode = _ from hm]))]
    rfl
  have served : u.drain 7 = w.drain 5 := 
    State.serving_police s s.mem (p := p) (released := some .unformatted) [.modeRead a] 5 hm rfl free a 0x5AC3
  rw [State.upstreamRead_serves hq]
  refine congrArg Host.Outcome.next ((State.drain_serves rfl arrives 7).trans (served.trans
    ((State.drain_serves rfl reads 4).trans ((State.drain_nil rfl 4).trans ?_))))
  have granted : p.granted.granted.grantPort = p.granted.granted := Part.grantPort_atRest hrest
  obtain ⟨pending, mem, ⟨waiting, readData⟩, part⟩ := s
  obtain rfl : waiting = [] := hq.2
  exact congrArg (fun q => ({
    pending := pending, mem := mem.write a.toNat 0x5AC3
    port := ⟨[], some ((mem.write a.toNat 0x5AC3).read a.toNat)⟩, part := q } : State)) granted

/-- Settles O14: the gate's case of `arrive`, and what is handed on. -/
theorem theGateConsumesTheKeySequence : Obligations.TheGateConsumesTheKeySequence := by
  intro a b d dock c got r s hs hrest p met plain
  have metRest : met.atRest = true := (p.met_atRest dock).trans hrest
  have released (hg : p.chan.gate = .keyed b) (hab : b ≠ a) (hpl : plain) (d : Word) :
      exec (.upstreamWrite a d dock) s
        = .next ((s.serving (s.mem.write b.toNat 0x5AC3) (met.setGate .idle).granted [.gate a d dock]).drain 5) := by
    obtain ⟨hm, hb, h2⟩ := hpl
    have arrives := Part.arrive_releases hg hab d dock
    rw [hm] at arrives
    have free : (met.setGate .idle).portFree = true := Part.portFree_of (p := p) hb (.inr h2)
    rw [State.upstreamWrite_serves hs, State.serving_write s s.mem [] 7 arrives]
    exact congrArg Host.Outcome.next (State.serving_police s s.mem (p := met.setGate .idle)
      (released := some .unformatted) [.gate a d dock] 5 hm rfl free b 0x5AC3)
  refine ⟨fun hg => State.upstreamWrite_gated hs (Part.arrive_key hg a dock) metRest,
    fun hg => State.upstreamWrite_gated hs (Part.arrive_gates hg dock) metRest, fun hg hd => ?_,
    fun hg hc => State.upstreamRead_gated hs hrest hg hc, fun hg hr hab => ?_, fun hg hd hc => ?_, fun hg hd hc => ?_,
    fun hg hr hn => ?_, fun hg hr hn => ?_, fun hpl hg hab hd => ?_, fun hpl hg hab => ?_, fun hpl hg hu => ?_⟩
  · have presented := Part.met_present (p.setGate .idle) dock a d [] .refused .unknownCommand
    exact State.upstreamWrite_gated hs ((Part.arrive_unknown hg hd dock).trans (congrArg (·, []) presented)) metRest
  · have arrives := (Part.arrive_collects hg a 0x5AC3 dock).trans (if_neg (Ne.symm hab))
    rw [Part.abandon_eq hr] at arrives
    rw [State.upstreamWrite_serves hs, State.serving_write s s.mem [] 7 arrives]
    refine congrArg Host.Outcome.next ((State.serving_gate s s.mem [] 6 (Part.gateWrite_key rfl a dock)).trans ?_)
    exact State.serving_done hs.2 s.mem (by exact hrest) 6
  · have arrives := Part.arrive_code hg hd dock
    rw [Part.takeCommand_bare hc] at arrives
    exact State.upstreamWrite_consumed hs arrives
  · have arrives := Part.arrive_code hg hd dock
    rw [Part.takeCommand_collects hc] at arrives
    exact State.upstreamWrite_gated hs arrives (Part.atRest_docked dock a c [] .running .ok [] hrest)
  · have arrives := (Part.arrive_collects hg a d dock).trans (if_pos rfl)
    rw [Part.takeParameter_more hr a d dock hn] at arrives
    exact State.upstreamWrite_gated hs arrives hrest
  · have arrives := (Part.arrive_collects hg a d dock).trans (if_pos rfl)
    rw [Part.takeParameter_last hr a d dock hn] at arrives
    exact State.upstreamWrite_consumed hs arrives
  · have free : (met.setGate .idle).granted.portFree = true :=
      Part.portFree_of (p := (met.setGate .idle).granted) hpl.2.1 (.inr hpl.2.2)
    rw [released hg hab hpl d, State.serving_gate s _ [] 4 (Part.gateWrite_other rfl hd a dock)]
    refine congrArg Host.Outcome.next ((State.serving_police s _ (p := (met.setGate .idle).granted) (released := none) [] 2
      hpl.1 rfl free a d).trans ?_)
    exact State.serving_done hs.2 _ (by exact metRest) 2
  · rw [released hg hab hpl 0x5AC3, State.serving_gate s _ [] 4 (Part.gateWrite_key rfl a dock)]
    exact congrArg Host.Outcome.next (State.serving_done hs.2 _ (by exact metRest) 4)
  · obtain ⟨hm, hb, h2⟩ := hpl
    refine State.upstreamRead_releases hs hrest hm hb h2 hg (Part.presentedAt_none fun c hc => ?_)
    simpa [show p.chan.current = _ from hc] using hu

end Sys2Proof.Machine

/-! # Proofs: a second of the route clock (R89, R109, R124, R125, R198) -/

namespace Sys2Proof.Machine

/-- The open seconds of the scan mode's slots (R124). -/
theorem Scanner.second_eq (x : Scanner) : x.second = { x with
    slots := if x.run = .stopped then x.slots else x.slots.mapIdx (fun k y =>
      if k < (if x.extended then 24 else 16) ∧ y.accepted = true then { y with openSecs := min 4294967295 (y.openSecs + 1) }
      else y) } := by
  have counted (y : Slot) (k : Nat) : (if k < x.slotCount then y.second else y)
      = if k < x.slotCount ∧ y.accepted = true then { y with openSecs := min 4294967295 (y.openSecs + 1) } else y := by
    rw [Nat.min_comm]
    exact (ite_and _ _ _ _).symm
  unfold Scanner.second
  split
  · rfl
  · simp only [counted]
    rfl

theorem Ctx.second_eq (x : Ctx) : x.second =
    if x.thermal ≠ .idle ∧ x.doorOpen = true then { x with doorSecs := min 65535 (x.doorSecs + 1) } else x := by
  rw [Nat.min_comm]
  rfl

theorem Scanner.beginDwell_eq (x : Scanner) (runs : Bool) : x.beginDwell runs =
    { x with dwellTest := if runs = true ∧ x.run = .running then some 0 else none } := by
  unfold Scanner.beginDwell
  simp

/-- Below its last value the clock advances while the backup domain stands (R89; log 38). -/
theorem State.routeClockAdvance_next {s : State} (hnow : s.part.clock.now < 4294967295) (hlost : s.part.backup.lost = false) :
    exec .routeClockAdvance s = .next { s with part := s.part.advanceClock } :=
  congrArg Host.Outcome.next (if_pos ⟨hnow, by simp [hlost]⟩)

/-- Settles O55: with SUPPLY present the seconds are those of each context and slot, without it the clock's alone. -/
theorem theRouteClockAdvances : Obligations.TheRouteClockAdvances := by
  intro s hnow hlost p on slots
  rw [State.routeClockAdvance_next hnow hlost]
  unfold Part.advanceClock
  by_cases hp : s.part.power = .off
  · have unpowered : on = false := by simp [on, p, hp]
    rw [if_pos hp, unpowered]
    rfl
  · have powered : on = true := by simp [on, p, hp]
    rw [if_neg hp, powered, Scanner.second_eq, Scanner.beginDwell_eq, funext Ctx.second_eq]
    rfl

end Sys2Proof.Machine

/-! # Proofs: ROUTE END (R86, R95, R136, R158) -/

namespace Sys2Proof.Machine

/-- The LOADED entries are those in state LOADED. -/
theorem Part.countLoaded_all (p : Part) : p.countLoaded (fun _ => true) = p.countState .loaded :=
  congrArg List.length (List.filter_congr fun o _ => match o with
    | some _ => Bool.and_true _
    | none => rfl)

theorem Part.countState_eq_zero (st : ConsState) (p : Part) :
    p.countState st = 0 ↔ p.cons.any (fun o => match o with | some k => k.state == st | none => false) = false :=
  (List.length_eq_zero_iff.trans List.filter_eq_nil_iff).trans List.any_eq_false.symm

theorem Part.cmdRouteEnd_refused {p : Part} (h : p.route.state ≠ .loaded ∨ p.countState .loaded ≠ 0) :
    p.cmdRouteEnd = p.refuseCommand .routeState := by
  unfold Part.cmdRouteEnd
  rw [Part.countLoaded_all]
  by_cases hl : p.route.state = .loaded
  · rw [if_neg (not_not.mpr hl), if_pos (h.resolve_left (not_not.mpr hl))]
  · exact if_pos hl

theorem Part.cmdRouteEnd_ends {p : Part} (hl : p.route.state = .loaded) (hc : p.countState .loaded = 0) :
    p.cmdRouteEnd = p.endRoute.done [] := by
  unfold Part.cmdRouteEnd
  rw [Part.countLoaded_all, if_neg (not_not.mpr hl), if_neg (not_not.mpr hc)]

/-- A record that joins the queue freezes no scanner that is not RUNNING. -/
theorem Part.joined_still {p : Part} (h : p.scan.run ≠ .running) (st : Stream) (k : Kind) (body : List Word) :
    p.joined st k body = { p with queue := p.queue ++ [{ stream := st, kind := k, body := body, taken := none }] } := by
  unfold Part.joined
  simp only [h, false_and, if_false]

/-- The part with its contexts and scanner stopped and every entry freed (R95, R136, R158). -/
def Part.stopEngines (p : Part) : Part := p.stopContexts.stopScanning.releaseCons

/-- ROUTE END with the record's joining spelt out: at once when five entries are free (R86). -/
theorem Part.endRoute_eq (p : Part) : p.endRoute = { p.stopEngines with
    route := { p.route with
      state := .idle, closePending := true, endRecord := if p.queue.length ≤ 11 then none else some p.routeEndBody }
    queue := if p.queue.length ≤ 11 then
        p.queue ++ [{ stream := .event, kind := .routeEnd, body := p.routeEndBody, taken := none }]
      else p.queue } := by
  let stopped : Part := Part.stopEngines { p with route :=
    { p.route with state := .idle, closePending := true, endRecord := some p.routeEndBody } }
  have ended : p.endRoute = stopped.joinRouteEnd := rfl
  rw [ended]
  by_cases h : p.queue.length ≤ 11
  · rw [Part.joinRouteEnd_room (p := stopped) h rfl, Part.joined_still (by exact nofun)]
    simp only [h, if_true]
    rfl
  · have waits : stopped.joinRouteEnd = stopped := if_neg (mt stopped.five_le_freeEntries.mp h)
    rw [waits]
    simp only [h, if_false]
    rfl

/-- Settles O32: the two refusals, and the route's end with or without room for its record. -/
theorem routeEndStopsTheRoute : Obligations.RouteEndStopsTheRoute := by
  intro a s hs p inState body room
  have hrest : s.part.atRest = true := hs.1.1.2.2
  let t := p.taken a .routeEnd [] p.pins.dock
  have completes {q : Part} (hq : t.cmdRouteEnd = q) (hr : q.atRest = true) :
      exec (.routeEnd a) s = .next { s with part := q } := State.store_completes hs rfl (by simp) rfl hq hr
  have counted : t.countState .loaded = 0 ↔ p.cons.any (inState .loaded) = false := t.countState_eq_zero .loaded
  refine ⟨fun h => ?_, fun hl hc => ?_⟩
  · refine completes (Part.cmdRouteEnd_refused (h.imp_right fun ha => ?_)) (Part.atRest_presents _ _ _ _ _ _ hrest)
    exact mt counted.mp (by simp [ha])
  · have written : t.routeEndBody = body := rfl
    have carried := Part.cmdRouteEnd_ends (p := t) hl (counted.mpr hc)
    rw [Part.endRoute_eq, written] at carried
    refine completes carried ?_
    let ended : Part := { p.answered a .routeEnd [] [] with
      route := { p.route with state := .idle, closePending := true, endRecord := if room then none else some body } }
    have joins : p.queue <+: if room then
        p.queue ++ [{ stream := .event, kind := .routeEnd, body := body, taken := none }] else p.queue := by
      split
      · exact List.prefix_append _ _
      · exact List.prefix_rfl
    exact Part.EvidenceOnly.atRest (p := ended) (.of_fields _ _ _ _ _) joins (Part.atRest_presents _ _ _ _ _ _ hrest)

end Sys2Proof.Machine

/-! # Proofs: the read of the route sheet (R55, R68, R83, R84) -/

namespace Sys2Proof.Machine

/-! ## ROUTE LOAD -/

theorem Part.cmdRouteLoad_onRoad {p : Part} (number : Word) (h : p.route.state ≠ .idle) :
    p.cmdRouteLoad number = p.refuseCommand .routeState := if_pos h

section
variable {p : Part} (number : Word) (hs : p.route.state = .idle)
include hs

theorem Part.cmdRouteLoad_invalid (hv : p.clock.valid = false) : p.cmdRouteLoad number = p.refuseCommand .clockInvalid :=
  (if_neg (not_not.mpr hs)).trans (if_pos (by simp [hv]))

variable (hv : p.clock.valid = true)
include hv

theorem Part.cmdRouteLoad_closing (hc : p.route.closePending = true) : p.cmdRouteLoad number = p.refuseCommand .busy :=
  (if_neg (not_not.mpr hs)).trans ((if_neg (by simp [hv])).trans (if_pos hc))

theorem Part.cmdRouteLoad_reads (hc : p.route.closePending = false) :
    p.cmdRouteLoad number = Part.startRunning .routeLoad { p with
      route := { p.route with load := some { routeNumber := number, words := [], check := 0, disturbed := false } } } :=
  (if_neg (not_not.mpr hs)).trans ((if_neg (by simp [hv])).trans (if_neg (by simp [hc])))

end

/-! ## A burst of the read -/

/-- The read with the words of one more burst in its working copy and its check value (R83). -/
def LoadRead.taking (l : LoadRead) (ws : List Word) : LoadRead :=
  { l with words := l.words ++ ws, check := crcWords l.check ws }

/-- Words 16 to 2,031 of segment 0 are read, and the next burst is the last: `ws` are its words. -/
theorem Part.takeSheetBurst_last {p : Part} {l : LoadRead} {ws : List Word} (hl : p.route.load = some l)
    (hlen : 2032 ≤ l.words.length + ws.length) : p.takeSheetBurst ws = p.checkSheet (l.taking ws) := by
  unfold Part.takeSheetBurst
  rw [hl]
  exact if_pos (by simpa using hlen)

theorem Part.takeSheetBurst_more {p : Part} {l : LoadRead} {ws : List Word} (hl : p.route.load = some l)
    (hlen : l.words.length + ws.length < 2032) :
    p.takeSheetBurst ws = { p with route := { p.route with load := some (l.taking ws) } } := by
  unfold Part.takeSheetBurst
  rw [hl]
  exact if_neg (by simpa using hlen)

/-- The row at which a burst of the read ends. -/
theorem State.sheetBurst_next {s : State} {l : LoadRead} (hs : s.Quiet) (hb : s.part.arb.burst = some .sheetRead)
    (hl : s.part.route.load = some l) :
    exec .routeLoadReadBurst s = .next { s with
      part := (s.part.endBurst.takeSheetBurst (s.mem.readWords (16 + l.words.length) 16)).grantPort } := by
  have row := State.whenReady_next (ready := fun p => p.arb.burst == some .sheetRead) (f := State.sheetBurst) hs.1
    (by simp [hb]) (by exact hs.2)
  have burst : s.sheetBurst = { s with
      part := s.part.endBurst.takeSheetBurst (s.mem.readWords (16 + l.words.length) 16) } := by
    unfold State.sheetBurst
    rw [hl]
  rw [burst] at row
  exact row

@[simp] theorem Memory.readWords_length (m : Memory) (base n : Nat) : (m.readWords base n).length = n := by
  simp [Memory.readWords]

/-- The last burst of the read: the checks of R84 follow it. -/
theorem State.sheetBurst_last {s : State} {l : LoadRead} (hs : s.Quiet) (hb : s.part.arb.burst = some .sheetRead)
    (hl : s.part.route.load = some l) (hlen : l.words.length = 2016) :
    exec .routeLoadReadBurst s = .next { s with
      part := (s.part.endBurst.checkSheet (l.taking (s.mem.readWords 2032 16))).grantPort } := by
  rw [State.sheetBurst_next hs hb hl, hlen, Part.takeSheetBurst_last (p := s.part.endBurst) hl (by simp [hlen])]

/-! ## The checks at its end -/

/-- The first check of R84 that the read fails, checks 1 to 4. -/
def LoadRead.failure (l : LoadRead) : Option SheetFailure :=
  if l.disturbed then some { part := 0, entry := 0, field := none } else (Sheet.ofWords l.words).failure l.routeNumber

theorem LoadRead.failure_disturbed {l : LoadRead} (h : l.disturbed = true) :
    l.failure = some { part := 0, entry := 0, field := none } := if_pos h

theorem LoadRead.failure_undisturbed {l : LoadRead} (h : l.disturbed = false) :
    l.failure = (Sheet.ofWords l.words).failure l.routeNumber := if_neg (by simp [h])

/-- The part with no load read in progress. -/
def Part.unloaded (p : Part) : Part := { p with route := { p.route with load := none } }

theorem Part.checkSheet_eq (l : LoadRead) (p : Part) : p.checkSheet l = match l.failure with
    | some f => p.unloaded.endRunning .refused .badParameter f.words
    | none =>
      if p.unloaded.freeEntries < 5 then p.unloaded.endRunning .refused .storeFull []
      else (p.unloaded.installSheet (Sheet.ofWords l.words) l.check).endRunning .done .ok [] := rfl

theorem Part.checkSheet_fails {l : LoadRead} {f : SheetFailure} (h : l.failure = some f) (p : Part) :
    p.checkSheet l = p.unloaded.endRunning .refused .badParameter f.words := by
  rw [Part.checkSheet_eq, h]

section
variable {l : LoadRead} (h : l.failure = none) {p : Part}
include h

theorem Part.checkSheet_full (hq : 12 ≤ p.queue.length) :
    p.checkSheet l = p.unloaded.endRunning .refused .storeFull [] := by
  rw [Part.checkSheet_eq, h]
  refine if_pos (Nat.not_le.mp (mt p.unloaded.five_le_freeEntries.mp ?_))
  exact Nat.not_le.mpr hq

theorem Part.checkSheet_installs (hq : p.queue.length ≤ 11) :
    p.checkSheet l = (p.unloaded.installSheet (Sheet.ofWords l.words) l.check).endRunning .done .ok [] := by
  rw [Part.checkSheet_eq, h]
  exact if_neg (Nat.not_lt.mpr (p.unloaded.five_le_freeEntries.mpr hq))

end

/-- A ROUTE LOAD that is refused at the end of its read installs nothing (R84). -/
theorem Part.refusedLoad_eq {p : Part} {c : CurrentCommand} (hc : p.chan.current = some c)
    (hr : p.chan.running = some { work := .routeLoad, presented := true }) (o : CmdOutcome) (rs : List Word) :
    p.endBurst.unloaded.endRunning .refused o rs = { p with
      arb := { p.arb with burst := none }
      route := { p.route with load := none }
      chan := { p.chan with
        running := none
        current := some { c with state := .refused, outcome := o, results := rs, readPos := 0 } } } :=
  Part.endRunning_eq (p := p.endBurst.unloaded) hr hc _ _ _

/-- Settles O29: the admission's tests in order, a burst's words, and the disturbed read's refusal. -/
theorem routeLoadReadsTheSheet : Obligations.RouteLoadReadsTheSheet := by
  refine ⟨?_, ?_, ?_⟩
  · intro a w s hs hm p ps
    have hrest : s.part.atRest = true := hs.1.2.2
    let t := p.taken a .routeLoad ps p.pins.dock
    have carries {q : Part} (hq : t.cmdRouteLoad w = q) :
        exec (.routeLoad a w (~~~w) w) s = .next { s with part := q.grantPort } := by
      have admitted : s.part.mode.admits .routeLoad = true := by rw [hm]; rfl
      have protect : Command.wellProtected .routeLoad ps = true := (protected16_iff _ _ _).mpr ⟨rfl, rfl⟩
      rw [State.exec_ready hs.1 rfl, Part.judge_carries (.inr (Part.taken_running_none hs.2 _ _ _ _)) admitted protect]
      exact congrArg (fun q => Host.Outcome.next { s with part := Part.grantPort q }) hq
    have refuses {o : CmdOutcome} (hq : t.cmdRouteLoad w = t.refuseCommand o) :
        exec (.routeLoad a w (~~~w) w) s = .next { s with part := p.refusedWith a .routeLoad ps o } := by
      have rested : (p.refusedWith a .routeLoad ps o).grantPort = p.refusedWith a .routeLoad ps o :=
        Part.grantPort_atRest (Part.atRest_presents _ _ _ _ _ _ hrest)
      exact (carries hq).trans (congrArg (fun q => Host.Outcome.next { s with part := q }) rested)
    exact ⟨fun hr => refuses (Part.cmdRouteLoad_onRoad w hr), fun hr hv => refuses (Part.cmdRouteLoad_invalid w hr hv),
      fun hr hv hc => refuses (Part.cmdRouteLoad_closing w hr hv hc),
      fun hr hv hc => carries (Part.cmdRouteLoad_reads (p := t) w hr hv hc)⟩
  · intro l s hs hb hl hlen p got
    rw [State.sheetBurst_next hs hb hl, Part.takeSheetBurst_more (p := p.endBurst) hl (by simpa using hlen)]
    rfl
  · intro l c s hs hb hl hlen hd hc hr p
    have fails := LoadRead.failure_disturbed (l := l.taking (s.mem.readWords 2032 16)) hd
    rw [State.sheetBurst_last hs hb hl hlen, Part.checkSheet_fails fails, Part.refusedLoad_eq hc hr]
    rfl

end Sys2Proof.Machine

/-! # Proofs: the checks of a route sheet, and the refusals they lead to (R79 to R81, R84) -/

namespace Sys2Proof.Machine

/-! ## The first check that fails -/

/-- The failure of the first check in the list that fails. -/
def firstFailure (checks : List (Bool × SheetFailure)) : Option SheetFailure :=
  (checks.find? (fun x => x.1)).map (fun x => x.2)

@[simp] theorem firstFailure_nil : firstFailure [] = none := rfl

@[simp] theorem firstFailure_cons (b : Bool) (f : SheetFailure) (checks : List (Bool × SheetFailure)) :
    firstFailure ((b, f) :: checks) = if b then some f else firstFailure checks := by
  cases b <;> rfl

@[simp] theorem firstFailure_append (checks more : List (Bool × SheetFailure)) :
    firstFailure (checks ++ more) = (firstFailure checks).or (firstFailure more) := by
  unfold firstFailure
  rw [List.find?_append]
  cases checks.find? _ <;> rfl

theorem firstFailure_flatMap (f : Nat → List (Bool × SheetFailure)) (l : List Nat) :
    firstFailure (l.flatMap f) = l.findSome? (fun c => firstFailure (f c)) := by
  induction l with
  | nil => rfl
  | cons c l ih =>
    rw [List.flatMap_cons, firstFailure_append, ih, List.findSome?_cons]
    cases firstFailure (f c) <;> rfl

/-! ## The ranges -/

theorem not_inRange (lo hi : Nat) (w : Word) : (!inRange lo hi w) = decide (w.toNat < lo ∨ hi < w.toNat) := by
  unfold inRange
  rw [← decide_not]
  exact decide_eq_decide.mpr (by omega)

theorem not_limitInRange (w : Word) : (!limitInRange w) = decide (w.toInt < -600 ∨ 600 < w.toInt) := by
  unfold limitInRange
  rw [← decide_not]
  exact decide_eq_decide.mpr (by omega)

/-- A limit must be in the temperature range and above the one before it (R80). -/
theorem not_limitAbove (below w : Word) : (!(limitInRange w && decide (below.toInt < w.toInt)))
    = (decide (w.toInt < -600 ∨ 600 < w.toInt) || decide (w.toInt ≤ below.toInt)) := by
  rw [Bool.not_and, not_limitInRange, ← decide_not]
  simp

theorem not_inRange_budget (w : Word) : (!inRange 1 65535 w) = (w == 0) := by
  have zero : (0 : Word).toNat = 0 := rfl
  rw [not_inRange, Bool.eq_iff_iff, decide_eq_true_iff, beq_iff_eq, ← BitVec.toNat_inj, zero]
  have := w.isLt
  omega

/-- A word whose high byte is clear is its low byte. -/
theorem and_highByte_eq_zero (w : Word) : w &&& 0xFF00 = 0 ↔ w.toNat ≤ 255 := by
  have parts : (w &&& 0xFF00) ||| (w &&& 0xFF) = w := by
    rw [← BitVec.and_or_distrib_left]
    exact BitVec.and_allOnes
  have low : (w &&& 0xFF).toNat = w.toNat % 256 := by
    rw [BitVec.toNat_and]
    exact Nat.and_two_pow_sub_one_eq_mod w.toNat 8
  constructor
  · intro h
    have lowOnly : w &&& 0xFF = w := BitVec.zero_or.symm.trans ((congrArg (· ||| w &&& 0xFF) h).symm.trans parts)
    rw [lowOnly] at low
    omega
  · intro h
    have lowOnly : w &&& 0xFF = w := BitVec.eq_of_toNat_eq (by omega)
    rw [← lowOnly, BitVec.and_assoc]
    exact BitVec.and_zero

/-! ## The checks in order -/

/-- The checks of a class, in the order of R80. -/
def ClassEntry.checks (k : ClassEntry) (n : Nat) : List (Bool × SheetFailure) :=
  let fail (o : Nat) : SheetFailure := { part := 4, entry := n, field := some o }
  [(!limitInRange k.hold, fail 1), (!(limitInRange k.soft && decide (k.hold.toInt < k.soft.toInt)), fail 2),
    (!(limitInRange k.melt && decide (k.soft.toInt < k.melt.toInt)), fail 3), (!inRange 1 65535 k.budget, fail 4),
    (!inRange 1 1440 k.maxExcursion, fail 5), (!inRange 10 3600 k.dwell, fail 6), (!inRange 0 1 k.refreeze, fail 7),
    (!inRange 1 120 k.gap, fail 8)]

theorem ClassEntry.failure_eq (k : ClassEntry) (n : Nat) : k.failure n = firstFailure (k.checks n) := by
  simp only [ClassEntry.failure, ClassEntry.checks, firstFailure_cons, firstFailure_nil]

/-- The checks of a compartment entry, in the order of R81, and of the class it names when it is enabled. -/
def Sheet.compChecks (s : Sheet) (c : Nat) : List (Bool × SheetFailure) :=
  let e := s.comp c
  let fail (o : Nat) : SheetFailure := { part := 3, entry := c, field := some o }
  (!inRange 0 1 e.enabled, fail 0) :: List.map (fun x => (e.isEnabled && x.1, x.2))
    ([(!inRange 0 15 e.cls, fail 1), (!inRange 1 4 e.probe, fail 2),
      (e.seals &&& 0xFF00 != 0 || (!s.isExtended && e.seals != 0), fail 4)] ++ (s.cls e.cls.toNat).checks e.cls.toNat)

/-- Checks that apply under a condition. -/
theorem firstFailure_when (b : Bool) (checks : List (Bool × SheetFailure)) :
    firstFailure (checks.map (fun x => (b && x.1, x.2))) = if b then firstFailure checks else none := by
  cases b with
  | true => simp
  | false =>
    induction checks with
    | nil => rfl
    | cons x checks ih => simpa using ih

theorem Sheet.compFailure_eq (s : Sheet) (c : Nat) : s.compFailure c = firstFailure (s.compChecks c) := by
  unfold Sheet.compFailure Sheet.compChecks
  dsimp only
  rw [firstFailure_cons, firstFailure_when, List.cons_append, List.cons_append, List.cons_append, List.nil_append,
    firstFailure_cons, firstFailure_cons, firstFailure_cons, ← ClassEntry.failure_eq]
  cases (s.comp c).isEnabled <;> rfl

/-- The checks of the route fields, in the order of R79, and that some compartment is enabled (checks 2 and 3 of R84). -/
def Sheet.routeChecks (s : Sheet) (number : Word) : List (Bool × SheetFailure) :=
  let fail (o : Nat) : SheetFailure := { part := 1, entry := 0, field := some o }
  [(s.routeNumber != number || s.routeNumber == 0xFFFF, fail 0), (!inRange 1 3650 s.retentionDays, fail 1),
    (!inRange 1 168 s.scrubHours, fail 2), (!inRange 0 3600 s.skew, fail 4), (!inRange 0 1 s.scanMode, fail 5),
    (s.enabledComps.isEmpty, { part := 2, entry := 0, field := none })]

/-- The failure of a sheet is that of the first check that fails, in the order of the sheet. -/
theorem Sheet.failure_eq (s : Sheet) (number : Word) :
    s.failure number = firstFailure (s.routeChecks number ++ (List.range 8).flatMap s.compChecks) := by
  rw [firstFailure_append, firstFailure_flatMap, ← funext s.compFailure_eq]
  unfold Sheet.failure Sheet.routeFieldFailure Sheet.routeChecks
  simp only [firstFailure_cons, firstFailure_nil]
  split_ifs <;> rfl

theorem Sheet.enabledComps_isEmpty (s : Sheet) :
    s.enabledComps.isEmpty = (List.range 8).all (fun c => (s.comp c).enabled != 1) := by
  rw [Bool.eq_iff_iff, List.isEmpty_iff, Sheet.enabledComps, List.filter_eq_nil_iff, List.all_eq_true]
  simp [CompEntry.isEnabled]

/-- The seal-slot set has bits 0 to 7 alone, and is empty in STANDARD (R81). -/
theorem Sheet.sealsOff_eq (s : Sheet) (w : Word) : (w &&& 0xFF00 != 0 || (!s.isExtended && w != 0))
    = decide (255 < w.toNat ∨ (s.scanMode ≠ 1 ∧ w ≠ 0)) := by
  rw [Bool.eq_iff_iff, Bool.or_eq_true, bne_iff_ne, ne_eq, and_highByte_eq_zero, Nat.not_le, decide_eq_true_iff]
  simp [Sheet.isExtended]

/-- Settles O31: the sheet's checks in their order, and the two refusals at the end of the read. -/
theorem theSheetCheckNamesTheFirstFailure : Obligations.TheSheetCheckNamesTheFirstFailure := by
  refine ⟨?_, ?_⟩
  · intro number s off cold fail route comp
    have offRange (lo hi : Nat) (w : Word) : (!inRange lo hi w) = off lo hi w := not_inRange lo hi w
    have coldLimit (w : Word) : (!limitInRange w) = cold w := not_limitInRange w
    have above (below w : Word) : (!(limitInRange w && decide (below.toInt < w.toInt)))
        = (cold w || decide (w.toInt ≤ below.toInt)) := not_limitAbove below w
    have routeEq : s.routeChecks number = route := by
      simp only [Sheet.routeChecks, offRange, Sheet.enabledComps_isEmpty]
      rfl
    have compEq (c : Nat) : s.compChecks c = comp c := by
      simp only [Sheet.compChecks, ClassEntry.checks, not_inRange_budget]
      simp only [offRange, coldLimit, above, Sheet.sealsOff_eq]
      rfl
    rw [Sheet.failure_eq, routeEq, funext compEq]
    rfl
  · intro l c f s hs hb hl hlen hd hc hr p sheet refused
    have taken : (l.taking (s.mem.readWords 2032 16)).failure = sheet.failure l.routeNumber :=
      LoadRead.failure_undisturbed (l := l.taking (s.mem.readWords 2032 16)) hd
    have ends := State.sheetBurst_last hs hb hl hlen
    refine ⟨fun hf => ?_, fun hf hq => ?_⟩
    · rw [ends, Part.checkSheet_fails (taken.trans hf), Part.refusedLoad_eq hc hr]
      rfl
    · rw [ends, Part.checkSheet_full (p := p.endBurst) (taken.trans hf) hq, Part.refusedLoad_eq hc hr]

end Sys2Proof.Machine

/-! # Proofs: a checked sheet is installed (R85, R96, R127, R135, R188) -/

namespace Sys2Proof.Machine

/-! ## Sets of compartments -/

/-- A set given by a test of each compartment, as its 8 bits (R210). -/
theorem compSet_filter (f : Nat → Bool) :
    compSet ((List.range 8).filter f) = (((List.range 8).filter f).map (fun c => 2 ^ c)).sum := by
  have tested (l : List Nat) : ((l.filter f).map (fun c => 2 ^ c)).sum = (l.map (fun c => if f c then 2 ^ c else 0)).sum := by
    induction l with
    | nil => rfl
    | cons c l ih => cases hc : f c <;> simp [hc, ih]
  rw [tested]
  refine congrArg List.sum (List.map_congr_left fun c hc => ?_)
  simp [hc]

theorem compSet_lt (cs : List Nat) : compSet cs < 256 := by
  have bits : compSet cs ≤ ((List.range 8).map (fun c => 2 ^ c)).sum :=
    List.sum_le_sum fun c _ => by split <;> simp
  exact Nat.lt_of_le_of_lt bits (by decide)

/-- The body of ROUTE_START with its compartment set spelt out (R212). -/
theorem routeStartBody_eq (s : Sheet) (check : DWord) : routeStartBody s check =
    [s.routeNumber, s.scanMode,
      BitVec.ofNat 16 (((List.range 8).filter (fun k => (s.comp k).enabled == 1)).map (fun k => 2 ^ k)).sum] ++ dwords check :=
  congrArg (fun n => [s.routeNumber, s.scanMode, BitVec.ofNat 16 n] ++ dwords check) (compSet_filter _)

/-! ## The next scrub due time -/

/-- With route fields held, the next scrub step is due one interval after `t` (R188). -/
theorem Part.scrubDue_held {p : Part} {h : Held} (hh : p.route.held = some h) (t : Nat) :
    p.scrubInterval.map (t + ·) = if p.mode = .guarded ∨ p.mode = .service then
      some (t + h.scrubHours.toNat * 3600 / (p.store.nSeg - 1)) else none := by
  have extent : p.hasExtent = true ↔ p.mode = .guarded ∨ p.mode = .service := by simp [Part.hasExtent]
  unfold Part.scrubInterval
  rw [hh]
  by_cases hm : p.mode = .guarded ∨ p.mode = .service
  · rw [if_pos hm]
    simp only [extent.mpr hm, if_true, Option.map_some]
  · rw [if_neg hm]
    simp only [mt extent.mp hm, Bool.false_eq_true, if_false, Option.map_none]

/-! ## Scanning starts -/

/-- The scanner when scanning has started in scan mode `extended` at `t` (R135). -/
def Scanner.started (extended : Bool) (t : Nat) (x : Scanner) : Scanner :=
  { x with
    run := .running, extended := extended, position := 0, rescan := none, audit := .none, owed := none, dwellTest := none
    slots := x.slots.map (fun y =>
      { y with agree := 0, openings := 0, openSecs := 0, dwellReported := false, watch := none, changedAt := some t }) }

theorem Part.startScanning_room {p : Part} (h : p.queue.length ≤ 11) :
    p.startScanning = { p with scan := p.scan.started p.sheet.isExtended p.clock.now } :=
  if_neg fun hc => Nat.not_lt.mpr (p.five_le_freeEntries.mpr h) hc.2

/-- With fewer than five free entries the scanner starts FROZEN (R127, R135). -/
theorem Part.startScanning_full {p : Part} (h : ¬ p.queue.length ≤ 11) :
    p.startScanning = { p with
      scan := { p.scan.started p.sheet.isExtended p.clock.now with run := .frozen }
      attention := p.attention ||| causeScanFrozen } := by
  have freezes : p.startScanning = Part.freeze { p with scan := p.scan.started p.sheet.isExtended p.clock.now } :=
    if_pos ⟨rfl, Nat.not_le.mp (mt p.five_le_freeEntries.mp h)⟩
  rw [freezes]
  unfold Part.freeze Scanner.started
  simp only [List.map_map]
  rfl

/-! ## The install -/

/-- What an install does before scanning starts: no scanner is RUNNING (R85). -/
theorem Part.installSheet_eq {p : Part} (hrun : p.scan.run ≠ .running) (sheet : Sheet) (check : DWord) :
    p.installSheet sheet check = Part.startScanning { p with
      route := { p.route with
        state := .loaded, sheet := some sheet, check := some check, start := some p.clock.now, held := some sheet.held }
      scrub := { p.scrub with
        due := if p.route.held.map Held.scrubHours = some sheet.scrubHours then p.scrub.due
          else if p.mode = .guarded ∨ p.mode = .service then
            some (p.clock.now + sheet.scrubHours.toNat * 3600 / (p.store.nSeg - 1)) else none }
      queue := p.queue ++ [{ stream := .event, kind := .routeStart, body := routeStartBody sheet check, taken := none }]
      ctxs := (List.range 8).map (fun c => if (sheet.comp c).isEnabled then
          Ctx.initial (sheet.classOfComp c) p.clock.now
            ((List.range 16).any (fun k => (sheet.comp c).contacts.getLsbD k && p.slotAccepted k))
        else Ctx.cold) } := by
  let held : Part := { p with route :=
    { p.route with sheet := some sheet, check := some check, start := some p.clock.now, held := some sheet.held } }
  have due := Part.scrubDue_held (p := held) (h := sheet.held) rfl p.clock.now
  unfold Part.installSheet
  rw [Part.holdFields_eq, Part.addRecord_eq_joined, Part.joined_still (by exact hrun), due]
  rfl

/-- Settles O30: the install before scanning starts, and the scanner RUNNING or FROZEN. -/
theorem aCheckedSheetIsInstalled : Obligations.ACheckedSheetIsInstalled := by
  intro l c s hs hb hl hlen hd hq hc hr hrun p got sheet check now enabled hf
  have passes : (l.taking (s.mem.readWords 2032 16)).failure = none :=
    (LoadRead.failure_undisturbed (l := l.taking (s.mem.readWords 2032 16)) hd).trans hf
  have still : p.endBurst.unloaded.scan.run ≠ .running := ne_of_eq_of_ne hrun (by decide)
  rw [State.sheetBurst_last hs hb hl hlen, Part.checkSheet_installs (p := p.endBurst) passes hq,
    Part.installSheet_eq still, routeStartBody_eq]
  have queued (e : QueueEntry) : (p.queue ++ [e]).length ≤ 11 ↔ p.queue.length ≤ 10 := by
    rw [List.length_append, List.length_singleton]
    omega
  by_cases hfree : p.queue.length ≤ 10
  · rw [Part.startScanning_room ((queued _).mpr hfree), Part.endRunning_eq (by exact hr) (by exact hc)]
    simp only [if_pos hfree]
    rfl
  · rw [Part.startScanning_full (mt (queued _).mp hfree), Part.endRunning_eq (by exact hr) (by exact hc)]
    simp only [if_neg hfree]
    rfl

end Sys2Proof.Machine

/-! # Proofs: CLOCK SET, with the route IDLE and out of HALTED (R68, R91, R93, R188) -/

namespace Sys2Proof.Machine

/-! ## The outage is charged -/

/-- A context after an outage of `secs` seconds that is charged to the compartments `cs` (R93). -/
def Ctx.charged (secs : Nat) (cs : List Nat) (c : Nat) (x : Ctx) : Ctx :=
  if cs.contains c then { x with gapSecs := sat32 (x.gapSecs + secs) } else x

/-- An entry after it: `gap_seen` on the LOADED consignments of those compartments. -/
def Consignment.charged (cs : List Nat) (k : Consignment) : Consignment :=
  if k.isLoaded && cs.contains k.comp then { k with flags := { k.flags with gapSeen := true } } else k

theorem Ctx.charged_cons {c : Nat} {cs : List Nat} (hc : c ∉ cs) (secs i : Nat) (x : Ctx) :
    Ctx.charged secs cs i (if c = i then { x with gapSecs := sat32 (x.gapSecs + secs) } else x)
      = Ctx.charged secs (c :: cs) i x := by
  unfold Ctx.charged
  by_cases h : c = i
  · subst h
    simp [hc]
  · simp [h, Ne.symm h]

theorem Consignment.charged_cons (c : Nat) (cs : List Nat) (k : Consignment) :
    Consignment.charged cs (if k.isLoaded && (k.comp == c) then { k with flags := { k.flags with gapSeen := true } } else k)
      = Consignment.charged (c :: cs) k := by
  unfold Consignment.charged Consignment.isLoaded
  by_cases hl : k.state = .loaded <;> by_cases h : k.comp = c <;> simp [hl, h]

/-- An outage is charged to each compartment of a set once. -/
theorem Part.chargeOutage_eq (secs : Nat) (cs : List Nat) : ∀ p : Part, cs.Nodup → p.chargeOutage secs cs = { p with
    ctxs := p.ctxs.mapIdx (Ctx.charged secs cs)
    cons := p.cons.map (fun o => o.map (Consignment.charged cs)) } := by
  induction cs with
  | nil =>
    intro p _
    have ctxs : p.ctxs.mapIdx (Ctx.charged secs []) = p.ctxs := List.ext_getElem (by simp) (by simp [Ctx.charged])
    have same : Consignment.charged [] = id := funext fun k => by simp [Consignment.charged]
    rw [ctxs, same, Option.map_id, List.map_id]
    rfl
  | cons c cs ih =>
    intro p h
    obtain ⟨hc, hcs⟩ := List.nodup_cons.mp h
    have ctxs : (p.ctxs.modify c (fun x => { x with gapSecs := sat32 (x.gapSecs + secs) })).mapIdx (Ctx.charged secs cs)
        = p.ctxs.mapIdx (Ctx.charged secs (c :: cs)) := by
      refine List.ext_getElem (by simp) fun i _ _ => ?_
      rw [List.getElem_mapIdx, List.getElem_mapIdx, List.getElem_modify]
      exact Ctx.charged_cons hc secs i _
    have entry (o : Option Consignment) : (o.map (fun k =>
          if k.isLoaded && (k.comp == c) then { k with flags := { k.flags with gapSeen := true } } else k)).map
            (Consignment.charged cs) = o.map (Consignment.charged (c :: cs)) := by
      rw [Option.map_map]
      exact congrArg (o.map ·) (funext (Consignment.charged_cons c cs))
    rw [show p.chargeOutage secs (c :: cs) = Part.chargeOutage secs cs (Part.mapLoaded _ _ (Part.modCtx c _ p)) from rfl,
      ih _ hcs]
    unfold Part.mapLoaded Part.modCtx
    dsimp only
    rw [ctxs, List.map_map, ← funext entry]
    rfl

/-! ## The route resumes -/

/-- The contexts of the compartments in use, IN_SPEC from the route clock on (R96). -/
theorem Part.initContexts_thermal (p : Part) {c : Nat} (hc : c < 8) :
    ((p.initContexts.ctx c).thermal != .idle) = (p.sheet.comp c).isEnabled := by
  have entry : p.initContexts.ctx c = if (p.sheet.comp c).isEnabled then
      Ctx.initial (p.classOfComp c) p.clock.now (p.anyContactOpen c) else Ctx.cold := by
    unfold Part.ctx Part.initContexts
    rw [List.getD_eq_getElem _ _ (by simpa using hc), List.getElem_map, List.getElem_range]
  rw [entry]
  cases (p.sheet.comp c).isEnabled <;> rfl

/-- The enabled compartments that hold a LOADED consignment: an outage is charged to them (R93). -/
def Part.outageComps (p : Part) : List Nat :=
  (List.range 8).filter (fun c => (p.sheet.comp c).isEnabled && p.countLoaded (fun k => k.comp == c) != 0)

theorem Part.chargedComps_initContexts (p : Part) : p.initContexts.chargedComps = p.outageComps := by
  refine List.filter_congr fun c hc => ?_
  rw [p.initContexts_thermal (List.mem_range.mp hc)]
  rfl

theorem Ctx.charged_initial (secs : Nat) (cs : List Nat) (c : Nat) (k : ClassEntry) (t : Nat) (doorOpen : Bool) :
    Ctx.charged secs cs c (Ctx.initial k t doorOpen) = { Ctx.initial k t doorOpen with
      gapSecs := if cs.contains c then min secs 4294967295 else 0 } := by
  unfold Ctx.charged
  split
  · exact congrArg (fun n => { Ctx.initial k t doorOpen with gapSecs := sat32 n }) (Nat.zero_add secs)
  · rfl

theorem Part.isEnabled_of_mem_outageComps {p : Part} {c : Nat} (h : c ∈ p.outageComps) : (p.sheet.comp c).isEnabled = true :=
  (Bool.and_eq_true_iff.mp (List.mem_filter.mp h).2).1

/-- The contexts of a route that resumes, with the outage charged (R93, R96). -/
theorem Part.resumedContexts_eq (p : Part) (secs : Nat) :
    p.initContexts.ctxs.mapIdx (Ctx.charged secs p.outageComps) = (List.range 8).map (fun c =>
      if (p.sheet.comp c).enabled = 1 then
        { Ctx.initial (p.classOfComp c) p.clock.now (p.anyContactOpen c) with
          gapSecs := if p.outageComps.contains c then min secs 4294967295 else 0 }
      else Ctx.cold) := by
  have enabled (c : Nat) : (p.sheet.comp c).isEnabled = true ↔ (p.sheet.comp c).enabled = 1 := by simp [CompEntry.isEnabled]
  refine List.ext_getElem (by simp [Part.initContexts]) fun c _ _ => ?_
  simp only [Part.initContexts, List.getElem_mapIdx, List.getElem_map, List.getElem_range, enabled]
  by_cases h : (p.sheet.comp c).enabled = 1
  · rw [if_pos h, if_pos h, Ctx.charged_initial]
  · have outside : c ∉ p.outageComps := fun hc => h ((enabled c).mp (Part.isEnabled_of_mem_outageComps hc))
    rw [if_neg h, if_neg h]
    exact if_neg (by simp [outside])

/-- What a route that leaves HALTED does: its outage runs from the restart mark to `v` (R93). -/
theorem Part.resumeRoute_eq {p : Part} {mark : Nat} (hm : p.clock.mark = some mark) (hq : p.queue.length ≤ 11) (v : Nat) :
    p.resumeRoute v = { p with
      route := { p.route with
        state := .loaded
        outageRecord := some (outageBody mark v (v - mark) 1 (compSet p.outageComps)
          (p.countLoaded (fun k => p.outageComps.contains k.comp))) }
      clock := { p.clock with mark := none }
      ctxs := (List.range 8).map (fun c =>
        if (p.sheet.comp c).enabled = 1 then
          { Ctx.initial (p.classOfComp c) p.clock.now (p.anyContactOpen c) with
            gapSecs := if p.outageComps.contains c then min (v - mark) 4294967295 else 0 }
        else Ctx.cold)
      cons := p.cons.map (fun o => o.map (Consignment.charged p.outageComps))
      scan := p.scan.started p.sheet.isExtended p.clock.now } := by
  let loaded : Part := { p with route := { p.route with state := .loaded } }
  have comps : loaded.initContexts.chargedComps = p.outageComps := loaded.chargedComps_initContexts
  have distinct : p.outageComps.Nodup := List.nodup_range.filter _
  have since : p.clock.mark.getD v = mark := by rw [hm]; rfl
  unfold Part.resumeRoute
  dsimp only
  rw [since, show (Part.initContexts { p with route := { p.route with state := .loaded } }).chargedComps = _ from comps,
    Part.chargeOutage_eq _ _ _ distinct, Part.startScanning_room (by exact hq), ← p.resumedContexts_eq]
  rfl

/-- The body of OUTAGE, its compartment set a byte (R202, R212). -/
theorem outageBody_eq {comps : Nat} (h : comps < 256) (fail restart secs merged count : Nat) :
    outageBody fail restart secs merged comps count = words32 fail ++ words32 restart ++ words32 secs
      ++ [BitVec.ofNat 16 merged, BitVec.ofNat 16 (comps + 256 * min 255 count)] := by
  have high : sat8 count % 256 = min 255 count := by
    unfold sat8 satAt
    omega
  unfold outageBody bytesWord wordOf
  rw [Nat.mod_eq_of_lt h, high]

theorem any_and_beq (b : Bool) (a : Nat) (l : List Nat) : l.any (fun c => b && a == c) = (b && l.contains a) := by
  cases b with
  | false => simp
  | true => simp only [Bool.true_and, List.any_beq]

theorem Part.countLoaded_ne_zero (sel : Consignment → Bool) (p : Part) : (p.countLoaded sel != 0)
    = p.cons.any (fun o => match o with | some k => k.isLoaded && sel k | none => false) := by
  unfold Part.countLoaded
  rw [Bool.eq_iff_iff, bne_iff_ne, ne_eq, List.length_eq_zero_iff, List.filter_eq_nil_iff, List.any_eq_true]
  push Not
  rfl

/-! ## The command -/

theorem Part.cmdClockSet_onRoad {p : Part} (v : Nat)
    (h : p.route.state = .loaded ∨ (p.route.state = .halted ∧ p.clock.valid = true)) :
    p.cmdClockSet v = p.refuseCommand .routeState :=
  if_pos (by rcases h with h | ⟨h, hv⟩ <;> simp [*])

section
variable {p : Part} {v : Nat}
  (h : p.route.state = .idle ∨ (p.route.state = .halted ∧ p.clock.valid = false))
include h

theorem Part.cmdClockSet_admitted : p.cmdClockSet v = if v < p.clock.floor then p.refuseCommand .badParameter
    else (if p.route.state = .halted then (p.setClock v).resumeRoute v else p.setClock v).done [] :=
  if_neg (by rcases h with h | ⟨h, hv⟩ <;> simp [*])

theorem Part.cmdClockSet_low (hv : v < p.clock.floor) : p.cmdClockSet v = p.refuseCommand .badParameter :=
  (Part.cmdClockSet_admitted h).trans (if_pos hv)

end

section
variable {p : Part} {v : Nat} (hv : p.clock.floor ≤ v)
include hv

theorem Part.cmdClockSet_sets (h : p.route.state = .idle) : p.cmdClockSet v = (p.setClock v).done [] := by
  rw [Part.cmdClockSet_admitted (.inl h), if_neg (Nat.not_lt.mpr hv), if_neg (by rw [h]; decide)]

theorem Part.cmdClockSet_resumes (h : p.route.state = .halted) (hi : p.clock.valid = false) :
    p.cmdClockSet v = ((p.setClock v).resumeRoute v).done [] := by
  rw [Part.cmdClockSet_admitted (.inr ⟨h, hi⟩), if_neg (Nat.not_lt.mpr hv), if_pos h]

end

/-- When the next scrub step is due: in no store, or with no route fields held, never (R188). -/
theorem Part.scrubDue_eq (p : Part) (t : Nat) : p.scrubInterval.map (t + ·) = match p.route.held with
    | some h => if p.mode = .guarded ∨ p.mode = .service then
        some (t + h.scrubHours.toNat * 3600 / (p.store.nSeg - 1)) else none
    | none => none := by
  cases hh : p.route.held with
  | some h => exact Part.scrubDue_held hh t
  | none =>
    unfold Part.scrubInterval
    rw [hh]
    rfl

/-- CLOCK SET on a free part that holds no foreign store is what it carries out. -/
theorem State.clockSet_completes {s : State} (hs : s.Free) (hm : s.part.mode ≠ .foreign) (a : Addr) (lo hi : Word) {q : Part}
    (hq : (s.part.taken a .clockSet [lo, hi, ~~~lo, ~~~hi, lo, hi] s.part.pins.dock).cmdClockSet
      (hi.toNat * 65536 + lo.toNat) = q) (hr : q.atRest = true) :
    exec (.clockSet a lo hi (~~~lo) (~~~hi) lo hi) s = .next { s with part := q } := by
  have admitted : s.part.mode.admits .clockSet = true := (Mode.admits_iff _ _).mpr (.inr (.inl ⟨rfl, hm⟩))
  have protect : Command.wellProtected .clockSet [lo, hi, ~~~lo, ~~~hi, lo, hi] = true :=
    (protected32_iff _ _ _ _ _ _).mpr ⟨rfl, rfl, rfl, rfl⟩
  exact State.command_completes hs.1 rfl (.inr hs.2) admitted protect hq hr

/-- Settles O28: the two refusals, the clock set with the route IDLE, and the route that leaves HALTED. -/
theorem clockSetSetsTheClockOrResumesTheRoute : Obligations.ClockSetSetsTheClockOrResumesTheRoute := by
  refine ⟨?_, ?_⟩
  · intro a lo hi s hs hm p ps v due
    have hrest : s.part.atRest = true := hs.1.2.2
    have completes {q : Part} := State.clockSet_completes (q := q) hs hm a lo hi
    have rest (st : CmdState) (o : CmdOutcome) := Part.atRest_presents a .clockSet ps st o [] hrest
    refine ⟨fun h => completes (Part.cmdClockSet_onRoad v h) (rest _ _),
      fun h hv => completes (Part.cmdClockSet_low h hv) (rest _ _), fun h hv => ?_⟩
    have scheduled : p.scrubInterval.map (v + ·) = due := p.scrubDue_eq v
    rw [← scheduled]
    refine completes (Part.cmdClockSet_sets (p := p.taken a .clockSet ps p.pins.dock) hv h) ?_
    exact (Part.atRest_congr (p := p.answered a .clockSet ps []) rfl rfl rfl rfl rfl rfl rfl rfl rfl).trans (rest _ _)
  · intro a lo hi mark s hs hh hi' hmark hq p v carries charged affected hv
    have hrest : s.part.atRest = true := hs.1.1.2.2
    have hm : s.part.mode ≠ .foreign := by rcases hs.2 with h | h <;> rw [h] <;> decide
    let ps : List Word := [lo, hi, ~~~lo, ~~~hi, lo, hi]
    let t : Part := p.taken a .clockSet ps p.pins.dock
    have comps : (t.setClock v).outageComps = charged :=
      List.filter_congr fun c _ => congrArg ((p.sheet.comp c).isEnabled && ·) (Part.countLoaded_ne_zero _ _)
    have loads (o : Option Consignment) :
        affected o = match o with | some k => k.isLoaded && charged.contains k.comp | none => false := by
      cases o with
      | none => simp [affected, carries]
      | some k => exact any_and_beq k.isLoaded k.comp charged
    have counted : (t.setClock v).countLoaded (fun k => charged.contains k.comp) = (p.cons.filter affected).length :=
      congrArg List.length (List.filter_congr fun o _ => (loads o).symm)
    have entry (k : Consignment) : Consignment.charged charged k
        = if affected (some k) then { k with flags := { k.flags with gapSeen := true } } else k :=
      if_congr (Bool.eq_iff_iff.mp (loads (some k)).symm) rfl rfl
    have resumed := Part.resumeRoute_eq (p := t.setClock v) hmark hq v
    rw [comps, outageBody_eq (compSet_lt _), compSet_filter, counted, funext entry] at resumed
    have carried := Part.cmdClockSet_resumes (p := t) hv hh hi'
    rw [resumed] at carried
    refine State.clockSet_completes hs.1 hm a lo hi carried ?_
    exact (Part.atRest_congr (p := p.answered a .clockSet ps []) rfl rfl rfl rfl rfl rfl rfl rfl rfl).trans
      (Part.atRest_presents _ _ _ _ _ _ hrest)

end Sys2Proof.Machine

/-! # Proofs: the exposure records of a compartment, queued or withheld (R106, R111, R112) -/

namespace Sys2Proof.Machine

/-! ## The counts that saturate -/

theorem sat8_eq_min (n : Nat) : sat8 n = min 255 n := Nat.min_comm n 255
theorem sat16_eq_min (n : Nat) : sat16 n = min 65535 n := Nat.min_comm n 65535
theorem sat32_eq_min (n : Nat) : sat32 n = min 4294967295 n := Nat.min_comm n 4294967295

theorem sat32_mono {m n : Nat} (h : m ≤ n) : sat32 m ≤ sat32 n := min_le_min_right max32 h

/-! ## Contexts and entries of the tables -/

theorem Part.ctx_of_getElem? {p : Part} {c : Nat} {x : Ctx} (h : p.ctxs[c]? = some x) : p.ctx c = x :=
  List.getD_eq_getElem?_getD.trans (by rw [h]; rfl)

theorem Part.consAt_of_getElem? {p : Part} {i : Nat} {k : Consignment} (h : p.cons[i]? = some (some k)) :
    p.consAt i = some k := by
  unfold Part.consAt
  rw [h]
  rfl

theorem Part.modCtx_eq_set {p : Part} {c : Nat} {x : Ctx} (h : p.ctxs[c]? = some x) (f : Ctx → Ctx) :
    p.modCtx c f = { p with ctxs := p.ctxs.set c (f x) } := by
  unfold Part.modCtx
  rw [modify_eq_set_getD _ _ _ Ctx.cold, show p.ctxs.getD c Ctx.cold = x from Part.ctx_of_getElem? h]

theorem Part.modCons_eq_set {p : Part} {i : Nat} {k : Consignment} (h : p.cons[i]? = some (some k))
    (f : Consignment → Consignment) : p.modCons i f = { p with cons := p.cons.set i (some (f k)) } := by
  unfold Part.modCons
  rw [modify_eq_set_getD _ _ _ none,
    show p.cons.getD i none = some k from List.getD_eq_getElem?_getD.trans (by rw [h]; rfl)]
  rfl

theorem Consignment.isLoaded_iff (k : Consignment) : k.isLoaded = true ↔ k.state = .loaded := beq_iff_eq

theorem Consignment.loadedIn_iff (k : Consignment) (c : Nat) :
    (k.isLoaded && k.comp == c) = true ↔ k.state = .loaded ∧ k.comp = c := by
  rw [Bool.and_eq_true, k.isLoaded_iff, beq_iff_eq]

/-- A change of the LOADED consignments of one compartment. -/
theorem Part.mapLoaded_comp (p : Part) (c : Nat) (f : Consignment → Consignment) :
    p.mapLoaded (fun k => k.comp == c) f = { p with
      cons := p.cons.map (fun o => o.map (fun k => if k.state = .loaded ∧ k.comp = c then f k else k)) } := by
  simp only [Part.mapLoaded, Consignment.loadedIn_iff]

/-! ## A record that is queued or withheld -/

theorem Part.withhold_eq (c : Nat) (p : Part) : p.withhold c = { p with
    ctxs := p.ctxs.modify c (fun x => { x with withheld := min 255 (x.withheld + 1), summaryOwed := true })
    cons := p.cons.map (fun o => o.map (fun k =>
      if k.state = .loaded ∧ k.comp = c then { k with flags := { k.flags with eventsWithheld := true } } else k)) } := by
  unfold Part.withhold
  rw [Part.mapLoaded_comp]
  simp only [Part.modCtx, sat8_eq_min]

theorem Part.one_le_freeEntries (p : Part) : 1 ≤ p.freeEntries ↔ p.queue.length ≤ 15 := by
  unfold Part.freeEntries
  omega

/-- What `addExposure` does is what `Part.recorded` says (R111, R112). -/
theorem Part.addExposure_eq_recorded (c : Nat) (k : Kind) (body : List Word) (p : Part) :
    p.addExposure c k body = p.recorded c k body := by
  unfold Part.addExposure Part.recorded
  rw [Part.addRecord_eq_joined, Part.withhold_eq]
  exact if_congr p.one_le_freeEntries rfl rfl

theorem Part.raise_joined (p : Part) (st : Stream) (k : Kind) (body : List Word) (cause : Word) :
    (p.joined st k body).raise cause = (p.raise cause).joined st k body := by
  by_cases full : p.scan.run = .running ∧ 11 ≤ p.queue.length
  · have swap : p.attention ||| causeScanFrozen ||| cause = p.attention ||| cause ||| causeScanFrozen := by
      rw [BitVec.or_assoc, BitVec.or_comm causeScanFrozen, BitVec.or_assoc]
    simp only [Part.joined, Part.raise, full, and_self, if_true, swap]
  · simp only [Part.joined, Part.raise, full, if_false]

/-- A cause may be raised before the record joins or after it. -/
theorem Part.raise_recorded (p : Part) (c : Nat) (k : Kind) (body : List Word) (cause : Word) :
    (p.recorded c k body).raise cause = (p.raise cause).recorded c k body := by
  by_cases room : p.queue.length ≤ 15
  · simp only [Part.recorded, if_pos room, Part.raise_joined, Part.raise_queue]
  · simp only [Part.recorded, Part.raise, if_neg room]

/-- Two changes of the flags of a compartment's LOADED consignments may be made in either order when the changes commute. -/
theorem Part.mapLoaded_flags_comm (p : Part) (c : Nat) (f g : Flags → Flags) (hfg : ∀ l, g (f l) = f (g l)) :
    (p.mapLoaded (fun k => k.comp == c) (fun k => { k with flags := f k.flags })).mapLoaded (fun k => k.comp == c)
        (fun k => { k with flags := g k.flags })
      = (p.mapLoaded (fun k => k.comp == c) (fun k => { k with flags := g k.flags })).mapLoaded (fun k => k.comp == c)
        (fun k => { k with flags := f k.flags }) := by
  simp only [Part.mapLoaded_comp, List.map_map]
  refine congrArg (fun cons => { p with cons := cons }) (List.map_congr_left fun o _ => ?_)
  cases o with
  | none => rfl
  | some k => by_cases here : k.state = .loaded ∧ k.comp = c <;> simp [here, hfg]

/-- The gap may be marked on the LOADED consignments before the record joins or after it. -/
theorem Part.gapSeen_addExposure (p : Part) (c : Nat) (k : Kind) (body : List Word) :
    (p.addExposure c k body).mapLoaded (fun k => k.comp == c) (fun k => { k with flags := { k.flags with gapSeen := true } })
      = (p.mapLoaded (fun k => k.comp == c) (fun k => { k with flags := { k.flags with gapSeen := true } })).addExposure
        c k body := by
  by_cases room : p.queue.length ≤ 15
  · simp only [Part.addExposure_eq_recorded, Part.recorded, Part.mapLoaded_queue, if_pos room]
    rfl
  · simp only [Part.addExposure, Part.one_le_freeEntries, Part.mapLoaded_queue, if_neg room]
    exact Part.mapLoaded_flags_comm (p.modCtx c _) c (fun l => { l with eventsWithheld := true })
      (fun l => { l with gapSeen := true }) fun _ => rfl

/-! ## Alerts -/

/-- An alert is a record like the others, with CONSIGNMENT_ALERT raised (R106, R111). -/
theorem Part.alert_eq_recorded {p : Part} {k : Consignment} {x : Ctx} (h : p.ctxs[k.comp]? = some x)
    (condemned breached : Bool) (triggers reading : Word) :
    p.alert k condemned breached triggers reading = (p.raise causeConsignmentAlert).recorded k.comp .alert
      (alertBody k.id k.comp condemned breached triggers reading
        (wordOf (min 65535 ((x.excess - k.base.excess) / 60))) x.withheld) := by
  unfold Part.alert
  dsimp only
  rw [Part.addExposure_eq_recorded, Part.raise_recorded, Part.ctx_of_getElem? h, sat16_eq_min]
  rfl

end Sys2Proof.Machine

/-! # Proofs: the gap timer and the continuous-excursion deadline (R107, R108; logs 1 and 41) -/

namespace Sys2Proof.Machine

/-! ## The gap timer -/

theorem Part.gapTimerDue_iff {p : Part} {c : Nat} {x : Ctx} (h : p.ctxs[c]? = some x) :
    p.gapTimerDue c = true ↔ x.thermal ≠ .idle ∧ x.gap = false ∧ ∃ e, x.gapExpiry = some e ∧ e ≤ p.clock.now := by
  unfold Part.gapTimerDue
  rw [Part.ctx_of_getElem? h]
  cases timer : x.gapExpiry <;> simp [timer, and_assoc]

theorem Part.expireGapTimer_eq {p : Part} {c e : Nat} {x : Ctx} (h : p.ctxs[c]? = some x) (he : x.gapExpiry = some e) :
    p.expireGapTimer c = Part.recorded { p with
        ctxs := p.ctxs.set c { x with gap := true, gapMark := some e, gapExpiry := none }
        attention := p.attention ||| causeExposureChange
        cons := p.cons.map (fun o => o.map (fun k =>
          if k.state = .loaded ∧ k.comp = c then { k with flags := { k.flags with gapSeen := true } } else k)) }
      c .gapStart ([wordOf c] ++ words32? x.lastTime ++ words32 e ++ [wordOf x.invalid, wordOf x.skewed]) := by
  unfold Part.expireGapTimer
  dsimp only
  rw [Part.gapSeen_addExposure, Part.addExposure_eq_recorded, Part.raise_recorded, Part.mapLoaded_comp,
    Part.modCtx_eq_set h, Part.ctx_of_getElem? h, he]
  rfl

/-! ## The deadline -/

theorem Part.deadlineDue_iff {p : Part} {i : Nat} {k : Consignment} {x : Ctx} (hk : p.cons[i]? = some (some k))
    (h : p.ctxs[k.comp]? = some x) :
    p.deadlineDue i = true ↔ k.state = .loaded ∧ k.flags.breached = false ∧ x.thermal = .excursion
      ∧ ∃ start, x.episodeStart = some start
        ∧ max start k.loadTime + (p.classOfComp k.comp).maxExcursion.toNat * 60 ≤ p.clock.now := by
  unfold Part.deadlineDue Part.deadline
  rw [Part.consAt_of_getElem? hk]
  dsimp only
  rw [Part.ctx_of_getElem? h]
  by_cases loaded : k.state = .loaded <;> by_cases warm : x.thermal = .excursion
  · cases x.episodeStart <;> simp [Consignment.isLoaded, loaded, warm, ClassEntry.maxExcursionSecs]
  all_goals simp [Consignment.isLoaded, loaded, warm]

theorem Part.expireDeadline_eq {p : Part} {i : Nat} {k : Consignment} {x : Ctx} (hk : p.cons[i]? = some (some k))
    (h : p.ctxs[k.comp]? = some x) :
    p.expireDeadline i = Part.recorded { p with
        cons := p.cons.set i (some { k with flags := { k.flags with breached := true } })
        attention := p.attention ||| causeConsignmentAlert } k.comp .alert
      (dwords k.id ++ [wordOf k.comp, 0x0802, blank,
        wordOf (min 65535 ((x.excess - k.base.excess) / 60)), wordOf x.withheld]) := by
  unfold Part.expireDeadline
  rw [Part.consAt_of_getElem? hk]
  dsimp only
  rw [Part.alert_eq_recorded (p := p.modCons i _) h, Part.modCons_eq_set hk]
  rfl

/-- Settles O41: each timer acts when it is due, and changes nothing before. -/
theorem timersExpire : Obligations.TimersExpire := by
  refine ⟨?_, ?_⟩
  · intro c e x s hr hc hx p marked body
    have row : exec (.gapTimerExpiry c) s
        = .next { s with part := if c < 8 ∧ p.gapTimerDue c then p.expireGapTimer c else p } := State.onRunning_next hr
    have due := Part.gapTimerDue_iff hx
    refine ⟨fun active closed timer reached => ?_, fun early => ?_⟩
    · rw [row, if_pos ⟨hc, due.mpr ⟨active, closed, e, timer, reached⟩⟩, Part.expireGapTimer_eq hx timer, words32?_eq]
      rfl
    · rw [row, if_neg]
      rintro ⟨-, hd⟩
      obtain ⟨active, closed, e', timer, reached⟩ := due.mp hd
      rcases early with idle | gap | unset | ⟨timer', before⟩
      · exact active idle
      · exact absurd (closed.symm.trans gap) Bool.false_ne_true
      · exact absurd (unset.symm.trans timer) (Option.some_ne_none e').symm
      · obtain rfl := Option.some.inj (timer'.symm.trans timer)
        exact absurd reached (Nat.not_le.mpr before)
  · intro i start k x s hr hk hx p deadline hit
    have row : exec (.continuousExcursionDeadline i) s
        = .next { s with part := if p.deadlineDue i then p.expireDeadline i else p } := State.onRunning_next hr
    have due := Part.deadlineDue_iff hk hx
    refine ⟨fun loaded sound warm began reached => ?_, fun early => ?_⟩
    · rw [row, if_pos (due.mpr ⟨loaded, sound, warm, start, began, reached⟩), Part.expireDeadline_eq hk hx]
      rfl
    · rw [row, if_neg]
      intro hd
      obtain ⟨loaded, sound, warm, start', began, reached⟩ := due.mp hd
      rcases early with away | breached | cold | unset | ⟨began', before⟩
      · exact away loaded
      · exact absurd (sound.symm.trans breached) Bool.false_ne_true
      · exact cold warm
      · exact absurd (unset.symm.trans began) (Option.some_ne_none start').symm
      · obtain rfl := Option.some.inj (began'.symm.trans began)
        exact absurd reached (Nat.not_le.mpr before)

end Sys2Proof.Machine

/-! # Proofs: interval accounting, the thermal state and the four figures (R100, R101, R151; log 53) -/

namespace Sys2Proof.Machine

/-! ## Intervals -/

/-- The interval from its start to `t`: up to the gap limit at the rate of the last reading, beyond it gap (R100). -/
theorem Ctx.account_eq {x : Ctx} {start : Nat} (h : x.intervalStart = some start) (k : ClassEntry) (t : Nat) :
    x.account k t = { x with
      excess := min 4294967295 (x.excess + x.rate k * min (t - start) (k.gap.toNat * 60))
      doorExcess := min 4294967295 (x.doorExcess + x.rate k * min x.doorSecs (min (t - start) (k.gap.toNat * 60)))
      excursionSecs := if x.lastAboveHold k then
        min 4294967295 (x.excursionSecs + min (t - start) (k.gap.toNat * 60)) else x.excursionSecs
      gapSecs := min 4294967295 (x.gapSecs + (t - start - k.gap.toNat * 60)) } := by
  unfold Ctx.account
  simp only [h, Option.getD_some, sat32_eq_min]
  rfl

theorem Ctx.account_doorExcess_le (k : ClassEntry) (t : Nat) {x : Ctx} (h : x.doorExcess ≤ x.excess) :
    (x.account k t).doorExcess ≤ (x.account k t).excess :=
  sat32_mono (Nat.add_le_add h (Nat.mul_le_mul_left _ (Nat.min_le_right _ _)))

/-! ## The thermal state at a valid sample -/

theorem worstOf_eq (w : Option Int) (r : Int) : worstOf w r = some (match w with | some v => max v r | none => r) := by
  cases w <;> rfl

section ThermalState

variable {p : Part} {c : Nat} {x : Ctx} (hx : p.ctxs[c]? = some x) (r : Int) (t : Nat) (unit : Word)
include hx

theorem Part.evaluateThermal_begins (spec : x.thermal = .inSpec) (warm : (p.classOfComp c).hold.toInt < r) :
    p.evaluateThermal c r t unit = Part.recorded { p with
        ctxs := p.ctxs.set c { x with
          thermal := .excursion, episodeStart := some t, episodePeak := some r, episodes := min 65535 (x.episodes + 1) }
        attention := p.attention ||| causeExposureChange }
      c .excursionStart ([p.compClassWord c, wordOf (min 65535 (x.episodes + 1))] ++ words32 t
        ++ [tempWord r, (p.classOfComp c).hold, unit]) := by
  unfold Part.evaluateThermal
  rw [Part.ctx_of_getElem? hx]
  simp only [spec, if_pos warm]
  rw [Part.addExposure_eq_recorded, Part.raise_recorded, Part.modCtx_eq_set hx, sat16_eq_min]
  rfl

theorem Part.evaluateThermal_inSpec (spec : x.thermal = .inSpec) (cool : r ≤ (p.classOfComp c).hold.toInt) :
    p.evaluateThermal c r t unit = p := by
  unfold Part.evaluateThermal
  rw [Part.ctx_of_getElem? hx]
  simp only [spec, if_neg (Int.not_lt.mpr cool)]

theorem Part.evaluateThermal_continues (warm : x.thermal = .excursion) (above : (p.classOfComp c).hold.toInt < r) :
    p.evaluateThermal c r t unit = { p with
      ctxs := p.ctxs.set c { x with episodePeak := some (match x.episodePeak with | some v => max v r | none => r) } } := by
  unfold Part.evaluateThermal
  rw [Part.ctx_of_getElem? hx]
  simp only [warm, if_pos above]
  rw [Part.modCtx_eq_set hx, warm, worstOf_eq]

theorem Part.evaluateThermal_ends (warm : x.thermal = .excursion) (cool : r ≤ (p.classOfComp c).hold.toInt) :
    p.evaluateThermal c r t unit = Part.recorded { p with
        ctxs := p.ctxs.set c { x with thermal := .inSpec, episodeStart := none, episodePeak := none }
        attention := p.attention ||| causeExposureChange }
      c .excursionEnd ([p.compClassWord c, wordOf x.episodes] ++ words32 (x.episodeStart.getD t) ++ words32 t
        ++ [wordOf (min 65535 ((t - x.episodeStart.getD t) / 60)), tempWord? x.episodePeak, unit]) := by
  unfold Part.evaluateThermal
  rw [Part.ctx_of_getElem? hx]
  simp only [warm, if_neg (Int.not_lt.mpr cool)]
  rw [Part.addExposure_eq_recorded, Part.raise_recorded, Part.modCtx_eq_set hx, minutes, sat16_eq_min]
  rfl

end ThermalState

/-! ## The four figures -/

theorem Part.figures_closed {k : Consignment} {f : Figures} (h : k.closing = some f) (p : Part) : p.figures k = f := by
  unfold Part.figures
  simp only [h]

theorem Part.figures_open {p : Part} {k : Consignment} {x : Ctx} (h : k.closing = none) (hx : p.ctxs[k.comp]? = some x) :
    p.figures k = {
      excursion := x.excursionSecs - k.base.excursion
      excess := x.excess - k.base.excess
      door := min (x.doorExcess - k.base.door) (x.excess - k.base.excess)
      gap := x.gapSecs - k.base.gap + x.openGap p.clock.now } := by
  unfold Part.figures
  simp only [h, Part.ctx_of_getElem? hx]

/-- Settles O42: an interval's charge, the four turns of the thermal state, and the figures closed or open. -/
theorem intervalsThermalStateAndFigures : Obligations.IntervalsThermalStateAndFigures := by
  refine ⟨⟨fun k start t x hs => Ctx.account_eq hs k t, fun k t x h => Ctx.account_doorExcess_le k t h⟩, ?_, ?_⟩
  · intro c t r unit x p hx hold cls n start peak
    refine ⟨Part.evaluateThermal_begins hx r t unit, Part.evaluateThermal_inSpec hx r t unit,
      Part.evaluateThermal_continues hx r t unit, fun warm cool => ?_⟩
    rw [Part.evaluateThermal_ends hx r t unit warm cool]
    cases x.episodePeak <;> rfl
  · exact fun k f x p => ⟨fun closed => Part.figures_closed closed p, Part.figures_open⟩

end Sys2Proof.Machine

/-! # Proofs: a committed SAMPLE and the exposure engine (R97 to R99, R103 to R107) -/

namespace Sys2Proof.Machine

/-! ## The alert's word of flags and triggers -/

/-- The bits of the word are distinct, so that their union is their sum. -/
theorem alertFlags_eq_sum (condemns breaches melt refreeze budget : Bool) :
    bit condemns 0 ||| bit breaches 1 ||| ((if melt && (condemns || breaches) then triggerMelt else 0)
        ||| (if refreeze && condemns then triggerRefreeze else 0) ||| (if budget && breaches then triggerBudget else 0))
      = BitVec.ofNat 16 ((if condemns then 1 else 0) + (if breaches then 2 else 0)
        + (if melt && (condemns || breaches) then 256 else 0) + (if refreeze && condemns then 512 else 0)
        + (if budget && breaches then 1024 else 0)) := by
  revert condemns breaches melt refreeze budget
  decide

/-! ## Judging a consignment (R103 to R106) -/

section Evaluate

variable {p : Part} {c i : Nat} {k : Consignment} {x : Ctx}

theorem Part.evaluate_elsewhere (hk : p.cons[i]? = some (some k)) (r : Int) (away : k.state ≠ .loaded ∨ k.comp ≠ c) :
    p.evaluate c r i = p := by
  have other : ¬(k.isLoaded && k.comp == c) = true := by
    rw [k.loadedIn_iff]
    rintro ⟨loaded, here⟩
    exact away.elim (· loaded) (· here)
  unfold Part.evaluate
  rw [Part.consAt_of_getElem? hk]
  exact if_neg other

/-- A reading newly condemns a consignment (R103, R104). -/
def Consignment.newlyCondemned (k : Consignment) (j : Judgement) : Bool := (j.melt || j.refreeze) && !k.flags.condemned

/-- A reading, or the totals at it, newly breach a consignment (R103, R105). -/
def Consignment.newlyBreached (k : Consignment) (j : Judgement) : Bool := (j.melt || j.budget) && !k.flags.breached

/-- A LOADED consignment of the compartment takes the reading in, and alerts when that newly condemns or breaches it. -/
theorem Part.evaluate_here (hk : p.cons[i]? = some (some k)) (hx : p.ctxs[c]? = some x) (r : Int)
    (loaded : k.state = .loaded) (here : k.comp = c) :
    p.evaluate c r i =
      let cls := p.classOfComp c
      let j := k.judge cls x r
      let condemns := k.newlyCondemned j
      let breaches := k.newlyBreached j
      let put : Part := { p with cons := p.cons.set i (some (k.afterReading cls x r)) }
      if condemns || breaches then
        Part.recorded { put with attention := p.attention ||| causeConsignmentAlert } c .alert
          (dwords k.id ++ [wordOf c, BitVec.ofNat 16 ((if condemns then 1 else 0) + (if breaches then 2 else 0)
              + (if j.melt && (condemns || breaches) then 256 else 0) + (if j.refreeze && condemns then 512 else 0)
              + (if j.budget && breaches then 1024 else 0)),
            tempWord r, wordOf (min 65535 ((x.excess - k.base.excess) / 60)), wordOf x.withheld])
      else put := by
  unfold Part.evaluate
  rw [Part.consAt_of_getElem? hk]
  dsimp only
  rw [if_pos ((k.loadedIn_iff c).mpr ⟨loaded, here⟩), Part.ctx_of_getElem? hx, ← alertFlags_eq_sum]
  subst here
  rw [Part.alert_eq_recorded (p := p.modCons i _) hx, Part.modCons_eq_set hk]
  rfl

end Evaluate

/-! ## The reading (R97) -/

/-- The valid reading of a SAMPLE's compartment, by the sheet's designated probe; none when the SAMPLE is invalid. -/
def Part.sampleReading (p : Part) (b : SampleBody) : Option Int :=
  if listedUnit b.unit then validTemp (b.reading (p.sheet.comp b.comp).probe.toNat) else none

theorem SampleBody.reading_eq (ws : List Word) {probe : Nat} (h : 1 ≤ probe) (h' : probe ≤ 4) :
    (SampleBody.ofWords ws).reading probe = ws.getD (4 + probe) blank := by
  interval_cases probe <;> rfl

/-- The unit state and the word of the designated probe decide whether a SAMPLE is valid. -/
theorem Part.sampleReading_eq (p : Part) (ws : List Word) {probe : Nat}
    (hp : (p.sheet.comp (wordAt ws 3).toNat).probe.toNat = probe) (h : 1 ≤ probe) (h' : probe ≤ 4) :
    p.sampleReading (SampleBody.ofWords ws) =
      if (wordAt ws 4).toNat ≤ 2 ∧ -600 ≤ (ws.getD (4 + probe) blank).toInt ∧ (ws.getD (4 + probe) blank).toInt ≤ 600
        then some (ws.getD (4 + probe) blank).toInt else none := by
  unfold Part.sampleReading
  rw [show (p.sheet.comp (SampleBody.ofWords ws).comp).probe.toNat = probe from hp, SampleBody.reading_eq ws h h', validTemp,
    listedUnit, show (SampleBody.ofWords ws).unit = wordAt ws 4 from rfl]
  simp only [decide_eq_true_eq, ite_and]

/-- The skew of R98, the difference of two times either way round. -/
theorem skewed_eq (limit stamp t : Nat) :
    skewed limit stamp t = (limit != 0 && decide (limit < max (stamp - t) (t - stamp))) := by
  unfold skewed
  rw [show (stamp - t) + (t - stamp) = max (stamp - t) (t - stamp) by omega]

/-! ## A valid sample (R98, R99) -/

theorem set_self_of_getElem? {α : Type} {l : List α} {n : Nat} {a : α} (h : l[n]? = some a) : l.set n a = l := by
  obtain ⟨hn, rfl⟩ := List.getElem?_eq_some_iff.mp h
  exact List.set_getElem_self hn

theorem getElem?_set_self_of_getElem? {α : Type} {l : List α} {n : Nat} {a : α} (h : l[n]? = some a) (b : α) :
    (l.set n b)[n]? = some b := by
  obtain ⟨hn, -⟩ := List.getElem?_eq_some_iff.mp h
  exact List.getElem?_set_self hn

/-- A context after the skew test (R98). -/
def Ctx.skewTested (off : Bool) (x : Ctx) : Ctx := { x with skewed := if off then min 65535 (x.skewed + 1) else x.skewed }

/-- The part once the interval of compartment `c` is charged, its context then being `y`, and its gap has ended (R99, R107). -/
def Part.gapEnded (p : Part) (c t : Nat) (y : Ctx) : Part :=
  if y.gap = true then
    Part.recorded { p with ctxs := p.ctxs.set c { y with gap := false, gapMark := none } } c .gapEnd
      ([wordOf c] ++ words32? y.gapMark ++ words32 t ++ [wordOf y.invalid, wordOf y.skewed])
  else { p with ctxs := p.ctxs.set c y }

theorem Part.gapEnded_set (p : Part) (c t : Nat) (x y : Ctx) :
    Part.gapEnded { p with ctxs := p.ctxs.set c x } c t y = p.gapEnded c t y := by
  unfold Part.gapEnded
  simp only [List.set_set]

section ValidSample

variable {p : Part} {c : Nat} {x : Ctx} (hx : p.ctxs[c]? = some x)
include hx

theorem Part.skewTest_eq_set (off : Bool) :
    (if off then p.modCtx c (fun x => { x with skewed := sat16 (x.skewed + 1) }) else p)
      = { p with ctxs := p.ctxs.set c (x.skewTested off) } := by
  cases off
  · exact congrArg (fun ctxs => { p with ctxs := ctxs }) (set_self_of_getElem? hx).symm
  · rw [if_pos rfl, Part.modCtx_eq_set hx, sat16_eq_min]
    rfl

theorem Part.endGap_eq_gapEnded (t : Nat) : p.endGap c t = p.gapEnded c t x := by
  unfold Part.endGap Part.gapEnded
  rw [Part.ctx_of_getElem? hx, set_self_of_getElem? hx]
  dsimp only
  rw [Part.addExposure_eq_recorded, Part.modCtx_eq_set hx]

/-- A valid sample in the order of R99: the interval, the gap, the thermal state, the consignments, the timer. -/
theorem Part.takeSample_eq (r : Int) (t : Nat) (unit : Word) : p.takeSample c r t unit =
    Part.modCtx c (fun y => { y with
        lastTime := some t, lastReading := some r, intervalStart := some t, doorSecs := 0
        gapExpiry := some (t + (p.classOfComp c).gapCap) })
      (((p.gapEnded c t (x.account (p.classOfComp c) t)).evaluateThermal c r t unit).evaluateAll c r) := by
  have ended : (p.modCtx c (Ctx.account (p.classOfComp c) t)).endGap c t
      = p.gapEnded c t (x.account (p.classOfComp c) t) := by
    rw [Part.modCtx_eq_set hx, Part.endGap_eq_gapEnded (p := { p with ctxs := p.ctxs.set c _ })
      (getElem?_set_self_of_getElem? hx _), Part.gapEnded_set]
  unfold Part.takeSample
  dsimp only
  rw [ended]

end ValidSample

/-! ## The sample -/

theorem Part.consumeSample_ignored {ws : List Word} {p : Part}
    (h : p.route.state ≠ .loaded ∨ 8 ≤ (wordAt ws 3).toNat ∨ (p.ctx (wordAt ws 3).toNat).thermal = .idle) (t : Nat) :
    p.consumeSample ws t = p := by
  by_cases away : (!p.routeLoaded) = true
  · exact if_pos away
  refine (if_neg away).trans ?_
  by_cases high : 8 ≤ (wordAt ws 3).toNat
  · exact if_pos high
  refine (if_neg high).trans (if_pos ((h.resolve_left ?_).resolve_left high))
  simpa [Part.routeLoaded] using away

section NotIgnored

variable {ws : List Word} {p : Part} {x : Ctx} (route : p.route.state = .loaded) (low : (wordAt ws 3).toNat < 8)
  (hx : p.ctxs[(wordAt ws 3).toNat]? = some x) (active : x.thermal ≠ .idle)
include route low hx active

/-- A SAMPLE that is not ignored: an invalid one is counted, a valid one tested for skew and taken. -/
theorem Part.consumeSample_sorted (t : Nat) :
    p.consumeSample ws t = (p.sampleReading (SampleBody.ofWords ws)).elim
      (p.modCtx (wordAt ws 3).toNat (fun x => { x with invalid := sat16 (x.invalid + 1) }))
      (fun r => Part.takeSample (wordAt ws 3).toNat r t (wordAt ws 4)
        (if skewed p.sheet.skew.toNat (num32At ws 1) t
          then p.modCtx (wordAt ws 3).toNat (fun x => { x with skewed := sat16 (x.skewed + 1) }) else p)) := by
  have loaded : ¬(!p.routeLoaded) = true := by simp [Part.routeLoaded, route]
  have inUse : ¬(p.ctx (wordAt ws 3).toNat).thermal = .idle := by
    rw [Part.ctx_of_getElem? hx]
    exact active
  refine (if_neg loaded).trans ((if_neg (Nat.not_le.mpr low)).trans ((if_neg inUse).trans ?_))
  dsimp only
  cases read : p.sampleReading (SampleBody.ofWords ws) <;>
  · unfold Part.sampleReading at read
    rw [read]
    rfl

theorem Part.consumeSample_invalid (read : p.sampleReading (SampleBody.ofWords ws) = none) (t : Nat) :
    p.consumeSample ws t =
      { p with ctxs := p.ctxs.set (wordAt ws 3).toNat { x with invalid := min 65535 (x.invalid + 1) } } := by
  rw [Part.consumeSample_sorted route low hx active, read, Option.elim_none, Part.modCtx_eq_set hx, sat16_eq_min]

theorem Part.consumeSample_valid {r : Int} (read : p.sampleReading (SampleBody.ofWords ws) = some r) (t : Nat) :
    let c := (wordAt ws 3).toNat
    let cls := p.classOfComp c
    let seen := x.skewTested (skewed p.sheet.skew.toNat (num32At ws 1) t)
    p.consumeSample ws t =
      Part.modCtx c (fun y => { y with
          lastTime := some t, lastReading := some r, intervalStart := some t, doorSecs := 0
          gapExpiry := some (t + cls.gapCap) })
        (((p.gapEnded c t (seen.account cls t)).evaluateThermal c r t (wordAt ws 4)).evaluateAll c r) := by
  intro c cls seen
  rw [Part.consumeSample_sorted route low hx active, read, Option.elim_some, Part.skewTest_eq_set hx,
    Part.takeSample_eq (p := { p with ctxs := p.ctxs.set c _ }) (getElem?_set_self_of_getElem? hx _), Part.gapEnded_set]
  rfl

end NotIgnored

/-- Settles O43: the sorting of a SAMPLE, what a valid one does in order, and the judging of one consignment. -/
theorem aSampleIsTaken : Obligations.ASampleIsTaken := by
  refine ⟨?_, ?_⟩
  · intro ws t x p c stamp unit probe word valid r limit off cls seen charged body ended judged
    refine ⟨fun h => Part.consumeSample_ignored (h.imp_right .inl) t,
      fun hx idle => Part.consumeSample_ignored (.inr (.inr ?_)) t, fun route low hx active h1 h4 invalid => ?_,
      fun route low hx active h1 h4 hv => ?_⟩
    · exact (congrArg Ctx.thermal (Part.ctx_of_getElem? hx)).trans idle
    · exact Part.consumeSample_invalid route low hx active
        ((Part.sampleReading_eq p ws rfl h1 h4).trans (if_neg invalid)) t
    · have gapOver : p.gapEnded c t charged = ended := by
        unfold Part.gapEnded
        rw [words32?_eq]
        rfl
      rw [Part.consumeSample_valid route low hx active ((Part.sampleReading_eq p ws rfl h1 h4).trans (if_pos hv)), skewed_eq]
      show Part.modCtx c _ (((p.gapEnded c t charged).evaluateThermal c r t unit).evaluateAll c r) = _
      rw [gapOver]
      rfl
  · intro c i r k x p hk hx cls excess melt refreeze budget condemns breaches after put word4
    have taken : k.afterReading (p.classOfComp c) x r = after := by
      unfold Consignment.afterReading
      rw [worstOf_eq]
      rfl
    have judged := Part.evaluate_here hk hx r
    dsimp only at judged
    rw [taken] at judged
    refine ⟨Part.evaluate_elsewhere hk r, fun loaded here quiet calm => ?_, fun loaded here news => ?_⟩
    · exact (judged loaded here).trans (if_neg (show ¬(condemns || breaches) = true by rw [quiet, calm]; decide))
    · exact (judged loaded here).trans (if_pos (show (condemns || breaches) = true from Bool.or_eq_true_iff.mpr news))

end Sys2Proof.Machine

/-! # Laws: the words of the scanner's records, and the slots and compartments behind them (R81, R118, R210, R212) -/

namespace Sys2Proof.Machine

/-! ## Fields of a word side by side -/

/-- A field laid above the bits in use adds to them. -/
theorem ofNat_or_shiftLeft {m n : Nat} (h : m < 2 ^ n) (a : Nat) :
    BitVec.ofNat 16 m ||| (BitVec.ofNat 16 a <<< n) = BitVec.ofNat 16 (m + 2 ^ n * a) := by
  have shifted : BitVec.ofNat 16 a <<< n = BitVec.ofNat 16 (2 ^ n * a) := by
    apply BitVec.eq_of_toNat_eq
    simp [Nat.shiftLeft_eq, Nat.mul_comm]
  rw [shifted, ← BitVec.ofNat_or, Nat.lor_comm, ← Nat.two_pow_add_eq_or_of_lt h, Nat.add_comm]

/-- A flag laid above the bits in use adds its bit to them. -/
theorem ofNat_or_bit {m n : Nat} (h : m < 2 ^ n) (b : Bool) :
    BitVec.ofNat 16 m ||| bit b n = BitVec.ofNat 16 (m + if b then 2 ^ n else 0) := by
  cases b with
  | false => exact BitVec.or_zero
  | true => exact (ofNat_or_shiftLeft h 1).trans (by rw [Nat.mul_one]; rfl)

theorem bytesWord_sat8 {comps : Nat} (h : comps < 256) (n : Nat) :
    bytesWord comps (sat8 n) = BitVec.ofNat 16 (comps + 256 * min 255 n) := by
  have high : sat8 n % 256 = min 255 n := by
    rw [sat8_eq_min]
    omega
  unfold bytesWord
  rw [Nat.mod_eq_of_lt h, high]

theorem add_flag_lt {m n : Nat} (h : m < 2 ^ n) (b : Bool) : (m + if b then 2 ^ n else 0) < 2 ^ (n + 1) := by
  rw [Nat.pow_succ]
  split <;> omega

theorem changeWord_eq {k : Nat} (hk : k < 24) (state late : Bool) :
    wordOf k ||| bit state 8 ||| bit late 9
      = BitVec.ofNat 16 (k + (if state then 256 else 0) + (if late then 512 else 0)) := by
  have slot : k < 2 ^ 8 := by omega
  unfold wordOf
  rw [ofNat_or_bit slot, ofNat_or_bit (add_flag_lt slot state)]
  rfl

theorem doorStatusWord_eq {k agree : Nat} (hk : k < 24) (ha : agree < 4) (accepted raw rescan audit unsure : Bool) :
    wordOf k ||| bit accepted 8 ||| bit raw 9 ||| (wordOf agree <<< 10) ||| bit rescan 12 ||| bit audit 13 ||| bit unsure 14
      = BitVec.ofNat 16 (k + (if accepted then 256 else 0) + (if raw then 512 else 0) + 1024 * agree
          + (if rescan then 4096 else 0) + (if audit then 8192 else 0) + (if unsure then 16384 else 0)) := by
  have slot : k < 2 ^ 8 := by omega
  have levels : (k + if accepted then 2 ^ 8 else 0) + (if raw then 2 ^ 9 else 0) < 2 ^ 10 :=
    add_flag_lt (add_flag_lt slot accepted) raw
  have counted : (k + if accepted then 2 ^ 8 else 0) + (if raw then 2 ^ 9 else 0) + 2 ^ 10 * agree < 2 ^ 12 := by omega
  unfold wordOf
  rw [ofNat_or_bit slot, ofNat_or_bit (add_flag_lt slot accepted), ofNat_or_shiftLeft levels, ofNat_or_bit counted,
    ofNat_or_bit (add_flag_lt counted rescan), ofNat_or_bit (add_flag_lt (add_flag_lt counted rescan) audit)]
  rfl

/-! ## The compartments that hold a slot -/

/-- The enabled compartments that hold a slot, by one test of each (R81). -/
theorem Sheet.compsHolding_eq (s : Sheet) (k : Nat) : s.compsHolding k = (List.range 8).filter (fun c =>
    (s.comp c).enabled == 1
      && (if k < 16 then (s.comp c).contacts.getLsbD k else (s.comp c).seals.getLsbD (k - 16))) := by
  unfold Sheet.compsHolding Sheet.enabledComps
  rw [List.filter_filter]
  exact List.filter_congr fun c _ => Bool.and_comm _ _

theorem Sheet.compsHolding_contact (s : Sheet) {k : Nat} (hk : k < 16) : s.compsHolding k =
    (List.range 8).filter (fun c => (s.comp c).enabled == 1 && (s.comp c).contacts.getLsbD k) := by
  rw [s.compsHolding_eq]
  simp only [hk, if_true]

/-! ## The bodies of DOOR_CHANGE, SEAL_CHANGE, DOOR_STATUS and DWELL -/

theorem changeBody_eq {k comps : Nat} (hk : k < 24) (hc : comps < 256) (state late : Bool) (changed : Nat)
    (previous detection : Option Nat) (openings count : Nat) :
    changeBody k state late changed previous detection openings comps count =
      [BitVec.ofNat 16 (k + (if state then 256 else 0) + (if late then 512 else 0))] ++ words32 changed
        ++ (match previous with | some t => words32 t | none => [blank, blank])
        ++ (match detection with | some t => words32 t | none => [blank, blank])
        ++ [BitVec.ofNat 16 openings, BitVec.ofNat 16 (comps + 256 * min 255 count)] := by
  unfold changeBody
  rw [changeWord_eq hk, bytesWord_sat8 hc, words32?_eq, words32?_eq]
  rfl

theorem statusBody_eq {k : Nat} {x : Slot} (hk : k < 24) (ha : x.agree < 4) (raw rescan audit unsure : Bool)
    (settled : Option Nat) :
    statusBody k x raw rescan audit unsure settled =
      [BitVec.ofNat 16 (k + (if x.accepted then 256 else 0) + (if raw then 512 else 0) + 1024 * x.agree
          + (if rescan then 4096 else 0) + (if audit then 8192 else 0) + (if unsure then 16384 else 0))]
        ++ (match x.changedAt with | some t => words32 t | none => [blank, blank])
        ++ [BitVec.ofNat 16 x.openings, BitVec.ofNat 16 (min 65535 (x.openSecs / 60))]
        ++ (match settled with | some t => words32 t | none => [blank, blank]) := by
  unfold statusBody minutes
  rw [doorStatusWord_eq hk ha, words32?_eq, words32?_eq, sat16_eq_min]
  rfl

theorem dwellBody_eq {comps : Nat} (hc : comps < 256) (k changed limit count : Nat) :
    dwellBody k changed limit comps count = [BitVec.ofNat 16 k] ++ words32 changed ++ [BitVec.ofNat 16 limit]
      ++ words32 (changed + limit + 1) ++ [BitVec.ofNat 16 (comps + 256 * min 255 count)] := by
  unfold dwellBody
  rw [bytesWord_sat8 hc]
  rfl

/-! ## Slots of the contact table -/

theorem Part.slot_of_getElem? {p : Part} {k : Nat} {x : Slot} (h : p.scan.slots[k]? = some x) : p.slot k = x :=
  List.getD_eq_getElem?_getD.trans (by rw [h]; rfl)

theorem Part.modSlot_eq_set {p : Part} {k : Nat} {x : Slot} (h : p.scan.slots[k]? = some x) (f : Slot → Slot) :
    p.modSlot k f = { p with scan := { p.scan with slots := p.scan.slots.set k (f x) } } := by
  unfold Part.modSlot
  rw [modify_eq_set_getD _ _ _ Slot.cold, show p.scan.slots.getD k Slot.cold = x from Part.slot_of_getElem? h]

theorem Part.slot_modSlot {p : Part} {k : Nat} {x : Slot} (h : p.scan.slots[k]? = some x) (f : Slot → Slot) :
    (p.modSlot k f).slot k = f x := by
  rw [Part.modSlot_eq_set h]
  exact Part.slot_of_getElem? (getElem?_set_self_of_getElem? h _)

theorem Part.slotAccepted_modSlot {p : Part} {k : Nat} {x : Slot} (h : p.scan.slots[k]? = some x) (f : Slot → Slot) (j : Nat) :
    (p.modSlot k f).slotAccepted j = if j = k then (f x).accepted else p.slotAccepted j := by
  rw [Part.modSlot_eq_set h]
  unfold Part.slotAccepted
  by_cases here : j = k
  · subst here
    rw [if_pos rfl, getElem?_set_self_of_getElem? h]
  · rw [if_neg here]
    simp only [List.getElem?_set_ne (Ne.symm here)]

/-! ## What a record that joins the queue leaves of the scanner (R25, R127) -/

theorem Part.joined_slots (p : Part) (st : Stream) (k : Kind) (body : List Word) :
    (p.joined st k body).scan.slots = p.scan.slots
      ∨ (p.joined st k body).scan.slots = p.scan.slots.map (fun x => { x with agree := 0 }) := by
  unfold Part.joined
  dsimp only
  split
  · exact .inr rfl
  · exact .inl rfl

/-- A freeze clears the pending counts and nothing else of a slot. -/
theorem Part.slot_joined {p : Part} {n : Nat} (h : (p.slot n).agree = 0) (st : Stream) (k : Kind) (body : List Word) :
    (p.joined st k body).slot n = p.slot n := by
  unfold Part.slot at *
  obtain kept | cleared := p.joined_slots st k body
  · rw [kept]
  · rw [cleared, List.getD_eq_getElem?_getD, List.getElem?_map]
    rw [List.getD_eq_getElem?_getD] at h ⊢
    cases hx : p.scan.slots[n]? with
    | none => rfl
    | some x =>
      rw [hx] at h
      have unpending : { x with agree := 0 } = x := by rw [← show x.agree = 0 from h]
      exact unpending

theorem Part.slotAccepted_joined (p : Part) (st : Stream) (k : Kind) (body : List Word) :
    (p.joined st k body).slotAccepted = p.slotAccepted := by
  funext n
  unfold Part.slotAccepted
  obtain kept | cleared := p.joined_slots st k body
  · rw [kept]
  · rw [cleared, List.getElem?_map]
    cases p.scan.slots[n]? <;> rfl

/-- The exposure engine may be told of a door before the record joins or after it. -/
theorem Part.tellDoor_joined (p : Part) (n : Nat) (st : Stream) (k : Kind) (body : List Word) :
    (p.joined st k body).tellDoor n = (p.tellDoor n).joined st k body := by
  have doors : (p.joined st k body).anyContactOpen = p.anyContactOpen := by
    funext c
    unfold Part.anyContactOpen
    rw [Part.slotAccepted_joined]
    rfl
  unfold Part.tellDoor
  rw [doors]
  rfl

/-- The LOADED consignments may be marked before a record joins or after it. -/
theorem Part.mapLoaded_joined (p : Part) (sel : Consignment → Bool) (f : Consignment → Consignment) (st : Stream) (k : Kind)
    (body : List Word) : (p.joined st k body).mapLoaded sel f = (p.mapLoaded sel f).joined st k body := rfl

end Sys2Proof.Machine

/-! # Proofs: the line watch and the dwell test (R125, R126, R128; log 33) -/

namespace Sys2Proof.Machine

/-- A slot's dwell limit is the least of its compartments' (R125). -/
theorem Part.dwellLimit_eq {p : Part} {k least : Nat} (hk : k < 16)
    (hm : least ∈ (p.sheet.compsHolding k).map (fun c => (p.classOfComp c).dwell.toNat))
    (hl : ∀ l ∈ (p.sheet.compsHolding k).map (fun c => (p.classOfComp c).dwell.toNat), least ≤ l) :
    p.dwellLimit k = some least :=
  (if_pos hk).trans (List.min?_eq_some_iff.mpr ⟨hm, hl⟩)

/-- An open slot past its limit and not yet reported is due (R125). -/
theorem Part.dwellDue_eq {p : Part} {k c least : Nat} {x : Slot} (hx : p.scan.slots[k]? = some x)
    (hlimit : p.dwellLimit k = some least) (ha : x.accepted = true) (hr : x.dwellReported = false)
    (hc : x.changedAt = some c) (hd : least < p.clock.now - c) : p.dwellDue k = some least := by
  unfold Part.dwellDue
  rw [hlimit, Part.slot_of_getElem? hx]
  simp only [hc, ha, hr, hd, Bool.not_false, Bool.and_self, decide_true, if_true]

/-- The dwell test from slot `n` on finds the lowest slot that is due (R125). -/
theorem Part.nextDwell_lowest {p : Part} {n k least : Nat} (hk : k < 16) (hn : n ≤ k) (hd : p.dwellDue k = some least)
    (hbelow : (List.range k).all (fun j => decide (j < n) || (p.dwellDue j).isNone) = true) :
    p.nextDwell n = some (k, least) := by
  have split : List.range 16 = List.range k ++ k :: (List.range 16).drop (k + 1) := by
    have parts := List.take_append_drop k (List.range 16)
    rw [List.drop_eq_getElem_cons (by simpa using hk), List.getElem_range, List.take_range, min_eq_left hk.le] at parts
    exact parts.symm
  refine List.findSome?_eq_some_iff.mpr ⟨_, k, _, split, by rw [if_pos hn, hd]; rfl, fun j hj => ?_⟩
  obtain early | idle := Bool.or_eq_true_iff.mp (List.all_eq_true.mp hbelow j hj)
  · exact if_neg (Nat.not_le.mpr (of_decide_eq_true early))
  · rw [Option.isNone_iff_eq_none.mp idle]
    exact ite_self none

/-- The report of a due slot: the flag, the record, the cause and the consignments behind the slot (R126). -/
theorem Part.reportDwell_eq {p : Part} {k c : Nat} {x : Slot} {behind : List Nat} (hx : p.scan.slots[k]? = some x)
    (hc : x.changedAt = some c) (hb : p.sheet.compsHolding k = behind) (limit : Nat) :
    p.reportDwell k limit = Part.joined
      { p with
        scan := { p.scan with slots := p.scan.slots.set k { x with dwellReported := true } }
        attention := p.attention ||| causeDoorDwell
        cons := p.cons.map (fun o => o.map (fun g =>
          if g.isLoaded && behind.contains g.comp then { g with dwells := min 65535 (g.dwells + 1) } else g)) }
      .event .dwell (dwellBody k c limit (compSet behind) (p.countLoaded (fun g => behind.contains g.comp))) := by
  subst hb
  have since : (p.slot k).changedAt.getD 0 = c := by
    rw [Part.slot_of_getElem? hx, hc]
    rfl
  unfold Part.reportDwell
  rw [since, Part.addRecord_eq_joined, Part.raise_joined, Part.mapLoaded_joined, Part.modSlot_eq_set hx]
  simp only [sat16_eq_min]
  rfl

/-- The dwell test reports the lowest slot that is due and goes on behind it (log 33). -/
theorem Part.dwellStep_reports {p : Part} {n k limit : Nat} (ht : p.scan.dwellTest = some n)
    (hd : p.nextDwell n = some (k, limit)) :
    p.dwellStep = Part.reportDwell k limit { p with scan := { p.scan with dwellTest := some (k + 1) } } := by
  unfold Part.dwellStep
  simp only [ht, hd]

/-- Settles O48: the watch sample slot by slot, and the report of the lowest slot that is due. -/
theorem lineWatchAndDwell : Obligations.LineWatchAndDwell := by
  intro lines n k c least x s hr p slots behind aboard limits
  refine ⟨fun hf => ?_, fun hrun hq ht hn hk hbelow hx ha hrep hc hmem hleast hd => ?_⟩
  · exact (State.onRunning_next hr).trans (by rw [if_pos hf]; rfl)
  · have holding : p.sheet.compsHolding k = behind := p.sheet.compsHolding_contact hk
    rw [show limits = (p.sheet.compsHolding k).map (fun c => (p.classOfComp c).dwell.toNat) by rw [holding]] at hmem hleast
    have due := Part.dwellDue_eq hx (Part.dwellLimit_eq hk hmem hleast) ha hrep hc hd
    have reported := (Part.dwellStep_reports ht (Part.nextDwell_lowest hk hn due hbelow)).trans
      (Part.reportDwell_eq (p := { p with scan := { p.scan with dwellTest := some (k + 1) } }) hx hc holding least)
    rw [dwellBody_eq (compSet_lt _), compSet_filter] at reported
    refine (State.onRunning_next hr).trans ?_
    rw [if_pos ⟨hrun, p.five_le_freeEntries.mpr hq⟩, reported]
    rfl

end Sys2Proof.Machine

/-! # Proofs: a visit of the scan (R120 to R123, R130 to R134; log 48) -/

namespace Sys2Proof.Machine

/-! ## The slot after a visit (R121 to R123, R130) -/

theorem Slot.accept_eq (t : Nat) (x : Slot) : x.accept t = { x with
    accepted := !x.accepted, agree := 0, changedAt := some t, dwellReported := false, watch := none
    openings := if x.accepted then x.openings else min 65535 (x.openings + 1) } := by
  unfold Slot.accept
  rw [sat16_eq_min]

/-- A visit that accepts nothing, by whether the level agrees. -/
theorem Slot.visited_eq (raw : Bool) (x : Slot) : x.visited (raw != x.accepted)
    = if raw = x.accepted then { x with agree := 0, watch := none } else { x with agree := x.agree + 1 } := by
  unfold Slot.visited
  by_cases same : raw = x.accepted
  · rw [if_pos same, if_neg (by simp [same])]
  · rw [if_neg same, if_pos (bne_iff_ne.mpr same)]

theorem Slot.visited_agree_lt {raw : Bool} {x : Slot} (ha : ¬(raw ≠ x.accepted ∧ 2 ≤ x.agree)) :
    (x.visited (raw != x.accepted)).agree < 4 := by
  rw [Slot.visited_eq]
  split
  · exact Nat.zero_lt_succ 3
  · have early : ¬2 ≤ x.agree := fun late => ha ⟨‹_›, late⟩
    exact show x.agree + 1 < 4 by omega

/-! ## An accepted change (R122, R123) -/

/-- The body of a change's record; the consignments behind the slot are counted when it opens or breaks (R212). -/
theorem changeBody_behind {k : Nat} (hk : k < 24) (holds : Nat → Bool) (raw late : Bool) (changed : Nat)
    (previous detection : Option Nat) (openings n : Nat) :
    changeBody k raw late changed previous detection openings (compSet ((List.range 8).filter holds))
        (if raw then n else 0) =
      [BitVec.ofNat 16 (k + (if raw then 256 else 0) + (if late then 512 else 0))] ++ words32 changed
        ++ (match previous with | some t => words32 t | none => [blank, blank])
        ++ (match detection with | some t => words32 t | none => [blank, blank])
        ++ [BitVec.ofNat 16 openings, BitVec.ofNat 16 ((((List.range 8).filter holds).map (fun c => 2 ^ c)).sum
              + 256 * if raw then min 255 n else 0)] := by
  rw [changeBody_eq hk (compSet_lt _), compSet_filter]
  cases raw <;> rfl

theorem Part.countLoaded_and (p : Part) (sel also : Consignment → Bool) : p.countLoaded (fun g => sel g && also g)
    = (p.cons.filter (fun o => match o with | some g => g.isLoaded && sel g && also g | none => false)).length :=
  congrArg List.length (List.filter_congr fun o _ => match o with
    | some _ => (Bool.and_assoc _ _ _).symm
    | none => rfl)

/-- A change of the LOADED consignments behind a slot, made only when the slot opens or breaks. -/
theorem Part.mapLoaded_when (b : Bool) (sel : Consignment → Bool) (f : Consignment → Consignment) (p : Part) :
    (if b then p.mapLoaded sel f else p) = { p with
      cons := p.cons.map (fun o => o.map (fun g => if b && (g.isLoaded && sel g) then f g else g)) } := by
  cases b with
  | true => rfl
  | false =>
    have same : p.cons.map (fun o => o.map (fun g => g)) = p.cons := by simp
    exact congrArg (fun cons => { p with cons := cons }) same.symm

/-- The same with a cause raised, before a record joins or after it. -/
theorem Part.raise_mapLoaded_joined_when (b : Bool) (cause : Word) (sel : Consignment → Bool) (f : Consignment → Consignment)
    (p : Part) (st : Stream) (k : Kind) (body : List Word) :
    (if b then ((p.joined st k body).mapLoaded sel f).raise cause else p.joined st k body) = Part.joined
      { p with
        attention := if b then p.attention ||| cause else p.attention
        cons := p.cons.map (fun o => o.map (fun g => if b && (g.isLoaded && sel g) then f g else g)) } st k body := by
  cases b with
  | true => exact Part.raise_joined (p.mapLoaded sel f) st k body cause
  | false => exact congrArg (Part.joined · st k body) (Part.mapLoaded_when false sel f p)

/-- DOOR_OPEN of the compartments that hold a contact slot whose accepted state has become `raw` (R109). -/
theorem Part.tellDoor_modSlot {p : Part} {k : Nat} {x : Slot} {raw : Bool} (hx : p.scan.slots[k]? = some x) {f : Slot → Slot}
    (hf : (f x).accepted = raw) : (p.modSlot k f).tellDoor k = { p with
      scan := { p.scan with slots := p.scan.slots.set k (f x) }
      ctxs := p.ctxs.mapIdx (fun c z =>
        if z.thermal ≠ .idle ∧ (p.sheet.comp c).contacts.getLsbD k then
          { z with doorOpen := (List.range 16).any (fun j => (p.sheet.comp c).contacts.getLsbD j
                                && (if j = k then raw else p.slotAccepted j)) }
        else z) } := by
  have doors : (p.modSlot k f).anyContactOpen = fun c => (List.range 16).any (fun j =>
      (p.sheet.comp c).contacts.getLsbD j && (if j = k then raw else p.slotAccepted j)) := by
    funext c
    unfold Part.anyContactOpen
    simp only [Part.slotAccepted_modSlot hx, hf]
    rfl
  unfold Part.tellDoor
  rw [doors, Part.modSlot_eq_set hx]
  simp only [Bool.and_eq_true, bne_iff_ne]
  rfl

section Accepts

variable {p : Part} {k : Nat} {x : Slot} {raw : Bool} {behind : List Nat} (hx : p.scan.slots[k]? = some x)
  (hraw : (!x.accepted) = raw) (hb : p.sheet.compsHolding k = behind)
include hx hraw hb

/-- An accepted change on a contact slot (R122). -/
theorem Part.acceptContact_eq : p.acceptContact k = Part.joined
    { p with
      scan := { p.scan with slots := p.scan.slots.set k (x.accept p.clock.now) }
      ctxs := p.ctxs.mapIdx (fun c z =>
        if z.thermal ≠ .idle ∧ (p.sheet.comp c).contacts.getLsbD k then
          { z with doorOpen := (List.range 16).any (fun j => (p.sheet.comp c).contacts.getLsbD j
                                && (if j = k then raw else p.slotAccepted j)) }
        else z)
      cons := p.cons.map (fun o => o.map (fun g =>
        if raw && (g.isLoaded && behind.contains g.comp) then { g with openings := min 65535 (g.openings + 1) } else g)) }
    .event .doorChange (changeBody k raw x.watch.isSome p.clock.now x.changedAt x.watch (x.accept p.clock.now).openings
      (compSet behind) (if raw then p.countLoaded (fun g => behind.contains g.comp) else 0)) := by
  subst hraw hb
  unfold Part.acceptContact
  rw [Part.slot_of_getElem? hx, Part.mapLoaded_when, Part.addRecord_eq_joined, Part.tellDoor_joined,
    Part.tellDoor_modSlot hx rfl]
  simp only [sat16_eq_min]
  rfl

/-- An accepted change on a seal slot (R123). -/
theorem Part.acceptSeal_eq : p.acceptSeal k = Part.joined
    { p with
      scan := { p.scan with slots := p.scan.slots.set k (x.accept p.clock.now) }
      attention := if raw then p.attention ||| causeSealBroken else p.attention
      cons := p.cons.map (fun o => o.map (fun g =>
        if raw && (g.isLoaded && behind.contains g.comp) then { g with flags := { g.flags with sealBroken := true } } else g)) }
    .event .sealChange (changeBody k raw x.watch.isSome p.clock.now x.changedAt x.watch (x.accept p.clock.now).openings
      (compSet behind) (if raw then p.countLoaded (fun g => behind.contains g.comp && !g.flags.sealBroken) else 0)) := by
  subst hraw hb
  unfold Part.acceptSeal
  rw [Part.slot_of_getElem? hx]
  dsimp only
  rw [Part.addRecord_eq_joined, Part.raise_mapLoaded_joined_when, Part.modSlot_eq_set hx]
  rfl

end Accepts

/-! ## The judgement of a visit and its DOOR_STATUS (R121, R130 to R134) -/

/-- Behind a record that has just joined, a DOOR_STATUS joins too when at most ten entries were queued; else it is owed (R133). -/
theorem Part.addStatus_joined (p : Part) (st : Stream) (k : Kind) (body status : List Word) :
    (p.joined st k body).addStatus status =
      if p.queue.length ≤ 10 then (p.joined st k body).joined .event .doorStatus status
      else { p.joined st k body with scan := { (p.joined st k body).scan with owed := some status } } := by
  unfold Part.addStatus
  rw [Part.addRecord_eq_joined]
  refine if_congr ?_ rfl rfl
  rw [Part.five_le_freeEntries, Part.joined_queue_length]
  omega

section Visit

variable {p : Part} {k : Nat} {x : Slot} {raw : Bool} (hx : p.scan.slots[k]? = some x)
include hx

/-- A visit that accepts nothing counts or clears (R121, R130). -/
theorem Part.judgeVisit_counts (ha : ¬(raw ≠ x.accepted ∧ 2 ≤ x.agree)) :
    p.judgeVisit k raw = p.modSlot k (Slot.visited (raw != x.accepted)) := by
  unfold Part.judgeVisit
  rw [Part.slot_of_getElem? hx]
  exact if_neg (by simpa using ha)

/-- A third differing visit in a row accepts the change (R121). -/
theorem Part.judgeVisit_accepts (ha : raw ≠ x.accepted ∧ 2 ≤ x.agree) :
    p.judgeVisit k raw = if k < 16 then p.acceptContact k else p.acceptSeal k := by
  unfold Part.judgeVisit
  rw [Part.slot_of_getElem? hx]
  exact if_pos (by simpa using ha)

/-- An ordinary visit with no watch time to settle leaves it at the judgement. -/
theorem Part.visit_ordinary (hu : (x.watch.isSome && raw == x.accepted) = false) :
    p.visit k raw false false = p.judgeVisit k raw := by
  unfold Part.visit
  rw [Part.slot_of_getElem? hx]
  exact if_neg (by simpa [bne] using hu)

/-- A visit that accepts nothing and has something to report queues its DOOR_STATUS (R130, R131, R132). -/
theorem Part.visit_reports {rescan audit : Bool} (hq : p.queue.length ≤ 11) (ha : ¬(raw ≠ x.accepted ∧ 2 ≤ x.agree))
    (hreport : (rescan || audit || (x.watch.isSome && raw == x.accepted)) = true) :
    p.visit k raw rescan audit = Part.joined
      { p with scan := { p.scan with slots := p.scan.slots.set k (x.visited (raw != x.accepted)) } }
      .event .doorStatus (statusBody k (x.visited (raw != x.accepted)) raw rescan audit
        (x.watch.isSome && raw == x.accepted) (if x.watch.isSome && raw == x.accepted then x.watch else none)) := by
  have unconfirmed : (x.watch.isSome && !(raw != x.accepted)) = (x.watch.isSome && raw == x.accepted) := by
    rw [bne, Bool.not_not]
  have settled : (if raw != x.accepted && decide (x.agree < 2) then none else x.watch)
      = if x.watch.isSome && raw == x.accepted then x.watch else none := by
    by_cases same : raw = x.accepted
    · cases hw : x.watch <;> simp [same]
    · have early : x.agree < 2 := Nat.not_le.mp fun late => ha ⟨same, late⟩
      simp [same, early]
  unfold Part.visit
  rw [Part.slot_of_getElem? hx]
  dsimp only
  rw [Part.judgeVisit_counts hx ha, Part.slot_modSlot hx, unconfirmed, settled, if_pos hreport, Part.modSlot_eq_set hx]
  exact (if_pos ((Part.five_le_freeEntries _).mpr hq)).trans (Part.addRecord_eq_joined _ _ _ _)

/-- A visit of a RESCAN or an AUDIT pass that accepts a change queues the DOOR_STATUS behind the change, or owes it (R133;
log 48). -/
theorem Part.visit_accepts {rescan audit : Bool} {r : Part} {kind : Kind} {body : List Word}
    (ha : raw ≠ x.accepted ∧ 2 ≤ x.agree) (hreport : (rescan || audit) = true)
    (hj : p.judgeVisit k raw = r.joined .event kind body) (hr : r.scan.slots[k]? = some (x.accept p.clock.now)) :
    p.visit k raw rescan audit = (r.joined .event kind body).addStatus
      (statusBody k (x.accept p.clock.now) raw rescan audit false x.watch) := by
  have slot : r.slot k = x.accept p.clock.now := Part.slot_of_getElem? hr
  have after : (r.joined .event kind body).slot k = x.accept p.clock.now :=
    (Part.slot_joined (by rw [slot]; rfl) _ _ _).trans slot
  have differs : (raw != x.accepted) = true := bne_iff_ne.mpr ha.1
  have settled : (if raw != x.accepted && decide (x.agree < 2) then none else x.watch) = x.watch :=
    if_neg (by rw [decide_eq_false (Nat.not_lt.mpr ha.2), Bool.and_false]; decide)
  unfold Part.visit
  rw [Part.slot_of_getElem? hx]
  dsimp only
  rw [settled, differs, hj, after, hreport, Bool.not_true, Bool.and_false]
  rfl

end Visit

/-! ## Which slot is visited (R120, R131, R132) -/

/-- The part as a visit finds it: the lines sampled, and the scanner already moved on to `sc`, its slots untouched. -/
def Part.atVisit (p : Part) (lines : BitVec 24) (sc : Scanner) : Part :=
  { p with pins := { p.pins with lines := lines }, scan := { sc with slots := p.scan.slots } }

/-- The scan position behind slot `k`, in the order of the scan mode (R120). -/
def Scanner.movedPast (sc : Scanner) (k : Nat) : Scanner :=
  { sc with position := if sc.slotCount ≤ k + 1 then 0 else k + 1 }

/-- The same in an AUDIT pass, which ends with the last slot (R132). -/
def Scanner.auditedPast (sc : Scanner) (k : Nat) : Scanner :=
  { sc.movedPast k with audit := if sc.slotCount ≤ k + 1 then .none else .inProgress }

section WhichSlot

variable {p : Part} {k : Nat} (lines : BitVec 24)

theorem Part.scanVisit_rescan (h : p.scan.rescan = some k) : p.scanVisit lines =
    (p.atVisit lines { p.scan with rescan := none }).visit k (lines.getLsbD k) true false := by
  unfold Part.scanVisit
  simp only [h]
  rfl

theorem Part.scanVisit_ordinary (hr : p.scan.rescan = none) (ha : p.scan.audit = .none) (hk : p.scan.position = k) :
    p.scanVisit lines = (p.atVisit lines (p.scan.movedPast k)).visit k (lines.getLsbD k) false false := by
  subst hk
  have outside : (p.scan.audit == .inProgress || (p.scan.audit == .waiting && p.scan.position == 0)) = false := by
    rw [ha]
    rfl
  unfold Part.scanVisit Part.atVisit Scanner.movedPast
  simp only [hr, outside, decide_eq_true_eq, Bool.false_eq_true, if_false]

/-- The visit of an AUDIT pass that goes on, or begins at slot 0 (R132). -/
theorem Part.scanVisit_audit (hr : p.scan.rescan = none) (hk : p.scan.position = k)
    (ha : p.scan.audit = .inProgress ∨ (p.scan.audit = .waiting ∧ k = 0)) :
    p.scanVisit lines = (p.atVisit lines (p.scan.auditedPast k)).visit k (lines.getLsbD k) false true := by
  subst hk
  have inPass : (p.scan.audit == .inProgress || (p.scan.audit == .waiting && p.scan.position == 0)) = true := by
    obtain going | ⟨waiting, first⟩ := ha
    · rw [going]
      rfl
    · rw [waiting, first]
      rfl
  unfold Part.scanVisit Part.atVisit Scanner.auditedPast Scanner.movedPast
  simp only [hr, inPass, decide_eq_true_eq, if_true]

end WhichSlot

/-! ## The row SCAN_VISIT -/

theorem State.scanVisit_next {s : State} (hr : s.part.running = true) (hrun : s.part.scan.run = .running)
    (hq : s.part.queue.length ≤ 11) {lines : BitVec 24} {q : Part} (h : s.part.scanVisit lines = q) :
    exec (.scanVisit lines) s = .next { s with part := q } :=
  (State.onRunning_next hr).trans (by rw [if_pos ⟨hrun, s.part.five_le_freeEntries.mpr hq⟩, h])

/-- Settles O47: which slot the visit goes to, what its judgement makes of the slot, and the DOOR_STATUS that follows. -/
theorem aScanVisitJudgesItsSlot : Obligations.AScanVisitJudgesItsSlot := by
  intro lines k x s hr hrun hq hx hk p now raw holds behind aboard at_ last moved y count change ordinary z unsure status
    called pass passed contact sealing accepts withStatus
  have found (sc : Scanner) : (p.atVisit lines sc).scan.slots[k]? = some x := hx
  have holding : p.sheet.compsHolding k = behind := p.sheet.compsHolding_eq k
  have flips (ha : accepts) : (!x.accepted) = raw := (Bool.eq_not.mpr ha.1).symm
  have certain (ha : accepts) : unsure = false := by simp [unsure, ha.1]
  have opens (sc : Scanner) (ha : accepts) (h16 : k < 16) :
      (p.atVisit lines sc).judgeVisit k raw = contact { sc with slots := p.scan.slots.set k y } := by
    have whole := Part.acceptContact_eq (found sc) (flips ha) holding
    rw [changeBody_behind hk, Slot.accept_eq] at whole
    exact (Part.judgeVisit_accepts (found sc) ha).trans ((if_pos h16).trans whole)
  have breaks (sc : Scanner) (ha : accepts) (h16 : 16 ≤ k) :
      (p.atVisit lines sc).judgeVisit k raw = sealing { sc with slots := p.scan.slots.set k y } := by
    have whole := Part.acceptSeal_eq (found sc) (flips ha) holding
    rw [changeBody_behind hk, Part.countLoaded_and, Slot.accept_eq] at whole
    exact (Part.judgeVisit_accepts (found sc) ha).trans ((if_neg (Nat.not_lt.mpr h16)).trans whole)
  have counts (sc : Scanner) (ha : ¬accepts) :
      (p.atVisit lines sc).judgeVisit k raw = { at_ with scan := { sc with slots := p.scan.slots.set k z } } := by
    rw [Part.judgeVisit_counts (found sc) ha, Part.modSlot_eq_set (found sc), Slot.visited_eq]
    rfl
  have reports (sc : Scanner) {rescan audit : Bool} (ha : ¬accepts) (h : (rescan || audit || unsure) = true) :
      (p.atVisit lines sc).visit k raw rescan audit =
        Part.joined { at_ with scan := { sc with slots := p.scan.slots.set k z } } .event .doorStatus
          (status z rescan audit unsure (if unsure then x.watch else none)) := by
    have whole := Part.visit_reports (found sc) hq ha h
    rw [statusBody_eq hk (Slot.visited_agree_lt ha), Slot.visited_eq] at whole
    exact whole
  have acceptsAndReports (sc : Scanner) {rescan audit : Bool} {r : Part} {kind : Kind} {body : List Word} (ha : accepts)
      (h : (rescan || audit) = true) (hj : (p.atVisit lines sc).judgeVisit k raw = r.joined .event kind body)
      (hs : r.scan.slots = p.scan.slots.set k y) (hl : r.queue = p.queue) :
      (p.atVisit lines sc).visit k raw rescan audit
        = withStatus (r.joined .event kind body) (status y rescan audit false x.watch) := by
    have slot : r.scan.slots[k]? = some (x.accept now) := by
      rw [hs, Slot.accept_eq]
      exact getElem?_set_self_of_getElem? hx y
    have whole := Part.visit_accepts (found sc) ha h hj slot
    rw [statusBody_eq hk (Nat.zero_lt_succ 3), Part.addStatus_joined, hl, Slot.accept_eq] at whole
    exact whole
  have row {q : Part} := State.scanVisit_next (lines := lines) (q := q) hr hrun hq
  have inOrder (h : ordinary) {q : Part} (hv : (p.atVisit lines (p.scan.movedPast k)).visit k raw false false = q) :
      p.scanVisit lines = q := by
    obtain ⟨noRescan, noAudit, here⟩ := h
    exact (Part.scanVisit_ordinary lines noRescan noAudit here).trans hv
  have inAudit (h : pass) {q : Part} (hv : (p.atVisit lines (p.scan.auditedPast k)).visit k raw false true = q) :
      p.scanVisit lines = q := by
    obtain ⟨noRescan, here, audit⟩ := h
    exact (Part.scanVisit_audit lines noRescan here audit).trans hv
  have onRescan (h : p.scan.rescan = some k) {q : Part}
      (hv : (p.atVisit lines { p.scan with rescan := none }).visit k raw true false = q) : p.scanVisit lines = q :=
    (Part.scanVisit_rescan lines h).trans hv
  refine ⟨fun ho ha hu => ?_, fun ho ha h16 => ?_, fun ho ha h16 => ?_, fun ho hu => ?_, fun hc ha => ?_, fun hp ha => ?_,
    fun hc ha h16 => ?_, fun hc ha h16 => ?_, fun hp ha h16 => ?_, fun hp ha h16 => ?_⟩
  · exact row (inOrder ho ((Part.visit_ordinary (found _) hu).trans (counts _ ha)))
  · exact row (inOrder ho ((Part.visit_ordinary (found _) (certain ha)).trans (opens _ ha h16)))
  · exact row (inOrder ho ((Part.visit_ordinary (found _) (certain ha)).trans (breaks _ ha h16)))
  · have reported := reports (p.scan.movedPast k) (rescan := false) (audit := false)
      (fun ha => Bool.false_ne_true ((certain ha).symm.trans hu)) hu
    rw [hu] at reported
    exact row (inOrder ho reported)
  · exact row (onRescan hc (reports _ ha rfl))
  · exact row (inAudit hp (reports _ ha rfl))
  · exact row (onRescan hc (acceptsAndReports _ ha rfl (opens _ ha h16) rfl rfl))
  · exact row (onRescan hc (acceptsAndReports _ ha rfl (breaks _ ha h16) rfl rfl))
  · exact row (inAudit hp (acceptsAndReports _ ha rfl (opens _ ha h16) rfl rfl))
  · exact row (inAudit hp (acceptsAndReports _ ha rfl (breaks _ ha h16) rfl rfl))

end Sys2Proof.Machine

/-! # Proofs: the verdict of a proof (R152) -/

namespace Sys2Proof.Machine

/-- Settles O44: the two conditions made of several signs are read off them, and then the tests stand in the order of R152. -/
theorem theVerdictIsTheHighestThatHolds : Obligations.TheVerdictIsTheHighestThatHolds := by
  intro k f hold g v incomplete above minor
  have tainted : (k.flags.gapSeen || k.flags.eventsWithheld || k.flags.evidenceFault || k.flags.evidenceReset) = true
      ↔ incomplete := by
    simp [incomplete, g, or_assoc]
  have disturbed : (decide (0 < f.excursion) || k.worstAbove hold || k.flags.softCrossed || k.flags.handoverWarm) = true
      ↔ minor := by
    simp only [Bool.or_eq_true, decide_eq_true_eq, or_assoc]
    exact Iff.rfl
  have order : v = if g.condemned then .condemned else if g.sealBroken then .sealBroken
      else if g.breached then (if f.excess < 2 * f.door then .breachHandling else .breachRefrigeration)
      else if incomplete then .evidenceIncomplete else if minor then .minorExcursion else .clean := by
    simp only [← tainted, ← disturbed]
    rfl
  rw [order]
  refine ⟨fun hc => ?_, fun hc hs => ?_, fun hc hs hb hd => ?_, fun hc hs hb hd => ?_, fun hc hs hb hi => ?_,
    fun hc hs hb hi hm => ?_, fun hc hs hb hi hm => ?_⟩
  · simp [hc]
  · simp [hc, hs]
  · simp [hc, hs, hb, hd]
  · simp [hc, hs, hb, Nat.not_lt.mpr hd]
  · simp [hc, hs, hb, hi]
  · simp [hc, hs, hb, hi, hm]
  · simp [hc, hs, hb, hi, hm]

end Sys2Proof.Machine

/-! # Proofs: the consignment table, and LOAD (R139, R140, R144, R145) -/

namespace Sys2Proof.Machine

/-! ## The table of 32 entries -/

/-- The entry is in use and holds the id (R139). -/
def entryHolds (id : DWord) (o : Option Consignment) : Bool :=
  match o with
  | some k => k.id == id
  | none => false

theorem Part.consAt_eq_getElem {p : Part} {i : Nat} (hi : i < p.cons.length) : p.consAt i = p.cons[i] := by
  unfold Part.consAt
  rw [List.getElem?_eq_getElem hi]
  rfl

theorem Part.consAt_of_free {p : Part} {i : Nat} (h : p.cons[i]? = some none) : p.consAt i = none := by
  unfold Part.consAt
  rw [h]
  rfl

/-- The walk over the table stops at the first index that gives something. -/
theorem findSome?_range_first {α : Type} {f : Nat → Option α} {i n : Nat} {a : α} (hi : i < n) (hf : f i = some a)
    (hbelow : ∀ j < i, f j = none) : (List.range n).findSome? f = some a := by
  have split : List.range n = List.range i ++ i :: (List.range n).drop (i + 1) := by
    have parts := List.take_append_drop i (List.range n)
    rw [List.drop_eq_getElem_cons (by simpa using hi), List.getElem_range, List.take_range, min_eq_left hi.le] at parts
    exact parts.symm
  exact List.findSome?_eq_some_iff.mpr ⟨_, i, _, split, hf, fun j hj => hbelow j (List.mem_range.mp hj)⟩

/-- The search for an id, entry by entry. -/
theorem Part.consById_eq (p : Part) (id : DWord) : p.consById id = (List.range 32).findSome? (fun i =>
    if entryHolds id (p.consAt i) then (p.consAt i).map (fun k => (i, k)) else none) := by
  unfold Part.consById
  congr 1
  funext i
  cases p.consAt i with
  | none => rfl
  | some k => by_cases h : k.id = id <;> simp [entryHolds, h]

section Table

variable {p : Part} (size : p.cons.length = 32)
include size

theorem Part.consById_first {i : Nat} {k : Consignment} {id : DWord} (hk : p.cons[i]? = some (some k)) (hid : k.id = id)
    (hfirst : (p.cons.take i).any (entryHolds id) = false) : p.consById id = some (i, k) := by
  obtain ⟨hi, -⟩ := List.getElem?_eq_some_iff.mp hk
  rw [Part.consById_eq]
  refine findSome?_range_first (i := i) (by omega) ?_ fun j hj => ?_
  · rw [Part.consAt_of_getElem? hk]
    exact if_pos (beq_iff_eq.mpr hid)
  · have other : entryHolds id (p.cons[j]'(by omega)) = false := by
      simpa using List.any_eq_false.mp hfirst _ (List.mem_take_iff_getElem.mpr ⟨j, by omega, rfl⟩)
    rw [Part.consAt_eq_getElem (by omega), other]
    rfl

theorem Part.consById_eq_none_iff (id : DWord) : p.consById id = none ↔ p.cons.any (entryHolds id) = false := by
  rw [Part.consById_eq, List.findSome?_eq_none_iff, List.any_eq_false]
  constructor
  · intro h o ho
    obtain ⟨i, hi, rfl⟩ := List.getElem_of_mem ho
    have away := h i (List.mem_range.mpr (by omega))
    rw [Part.consAt_eq_getElem hi] at away
    cases he : p.cons[i] with
    | none => simp [entryHolds]
    | some k => simpa [he] using away
  · intro h i hi
    have hi : i < p.cons.length := by rw [size]; exact List.mem_range.mp hi
    rw [Part.consAt_eq_getElem hi]
    exact if_neg (h _ (List.getElem_mem hi))

theorem Part.consById_isSome (id : DWord) : (p.consById id).isSome = p.cons.any (entryHolds id) := by
  have none_ := Part.consById_eq_none_iff size id
  cases hc : p.consById id with
  | none => exact (none_.mp hc).symm
  | some x =>
    have found : p.cons.any (entryHolds id) ≠ false := fun h => by simp [none_.mpr h] at hc
    exact (Bool.eq_true_of_not_eq_false found).symm

theorem Part.freeCons_lowest {i : Nat} (hi : p.cons[i]? = some none) (hbelow : (p.cons.take i).all Option.isSome = true) :
    p.freeCons = some i := by
  obtain ⟨hlt, -⟩ := List.getElem?_eq_some_iff.mp hi
  refine List.find?_range_eq_some.mpr ⟨?_, List.mem_range.mpr (by omega), fun j hj => ?_⟩
  · rw [Part.consAt_of_free hi]
    rfl
  · have used := List.all_eq_true.mp hbelow _ (List.mem_take_iff_getElem.mpr ⟨j, by omega, rfl⟩)
    rw [Part.consAt_eq_getElem (by omega)]
    simpa using used

theorem Part.freeCons_full (hall : p.cons.all Option.isSome = true) : p.freeCons = none := by
  refine List.find?_eq_none.mpr fun j hj => ?_
  have hj : j < p.cons.length := by rw [size]; exact List.mem_range.mp hj
  have used := List.all_eq_true.mp hall _ (List.getElem_mem hj)
  rw [Part.consAt_eq_getElem hj, Bool.not_eq_true, Option.isNone_eq_false_iff]
  exact used

end Table

/-! ## LOAD -/

/-- A compartment takes part in the route (R27; log 31). -/
theorem Part.compEnabled_iff (p : Part) (c : Nat) : p.compEnabled c = true ↔
    p.route.state ≠ .idle ∧ p.route.sheet ≠ none ∧ c < 8 ∧ (p.sheet.comp c).enabled = 1 := by
  simp [Part.compEnabled, CompEntry.isEnabled, Option.isSome_iff_ne_none, and_assoc]

theorem Part.classWords_eq (b : LoadBody) (p : Part) : p.classWords b =
    (if p.compEnabled b.comp.toNat then (p.sheet.comp b.comp.toNat).cls else blank,
      if p.compEnabled b.comp.toNat then (p.classOfComp b.comp.toNat).code else blank) := by
  unfold Part.classWords
  dsimp only
  split <;> rfl

/-- The LOAD_ACK to a LOAD with words `ws` (R144): the request's own fields, and the class of its compartment. -/
def Part.loadAck (p : Part) (ws : List Word) (outcome : LoadOutcome) (index : Word) : Answer :=
  { kind := .loadAck
    body := loadAckBody (LoadBody.ofWords ws) outcome index (p.classWords (LoadBody.ofWords ws)).1
      (p.classWords (LoadBody.ofWords ws)).2 }

theorem Part.loadRequest_refused {p : Part} {ws : List Word} {outcome : LoadOutcome}
    (h : p.loadFailure (LoadBody.ofWords ws) = some outcome) (t : Nat) :
    p.loadRequest ws t = (p.loadAck ws outcome blank, p) := by
  unfold Part.loadRequest
  simp only [h]
  rfl

theorem Part.loadRequest_accepted {p : Part} {ws : List Word} {i : Nat}
    (h : p.loadFailure (LoadBody.ofWords ws) = none) (hi : p.freeCons = some i) (t : Nat) :
    p.loadRequest ws t = (p.loadAck ws .accepted (wordOf i),
      { p with cons := p.cons.set i (some (p.newConsignment (LoadBody.ofWords ws) t)) }) := by
  unfold Part.loadRequest
  simp only [h, hi]
  rfl

theorem Part.loadAck_body (p : Part) (ws : List Word) (outcome : LoadOutcome) (index : Word) :
    p.loadAck ws outcome index = { kind := .loadAck, body := [wordAt ws 3, wordAt ws 4, outcome.code, index, wordAt ws 5,
      if p.compEnabled (wordAt ws 5).toNat then (p.sheet.comp (wordAt ws 5).toNat).cls else blank,
      if p.compEnabled (wordAt ws 5).toNat then (p.classOfComp (wordAt ws 5).toNat).code else blank,
      wordAt ws 6, wordAt ws 7] } := by
  unfold Part.loadAck loadAckBody LoadBody.ofWords dwordAt
  rw [Part.classWords_eq, words_joinD, wordOf_toNat]
  rfl

/-- Settles O45: the checks of R144 in their order, and the entry of R145 where none fails. -/
theorem loadsAreJudged : Obligations.LoadsAreJudged := by
  intro ws t i x outcome p size id c quantity enabled present cls ack why
  have enabled_iff : p.compEnabled c = true ↔ enabled := p.compEnabled_iff c
  have acks (o : LoadOutcome) (index : Word) : p.loadAck ws o index = ack o index := by
    rw [Part.loadAck_body]
    simp only [ack, ← enabled_iff]
    rfl
  have held : (p.consById id).isSome = present := Part.consById_isSome size id
  have judged : p.loadFailure (LoadBody.ofWords ws) =
      if p.route.state ≠ .loaded then some .routeNotLoaded else if id = 0 then some .idZero
      else if quantity = 0 then some .quantityZero else if present then some .idPresent
      else if ¬enabled then some .compartmentDisabled else if p.freeCons.isNone then some .tableFull else none := by
    simp only [← held, ← enabled_iff, Part.loadFailure, Part.routeLoaded, Bool.not_eq_true', Bool.not_eq_true,
      beq_eq_false_iff_ne]
    rfl
  constructor
  · intro hwhy
    rw [← acks]
    refine Part.loadRequest_refused ?_ t
    rw [judged]
    obtain ⟨rfl, hr⟩ | ⟨rfl, hr, hid⟩ | ⟨rfl, hr, hid, hq⟩ | ⟨rfl, hr, hid, hq, hp⟩ | ⟨rfl, hr, hid, hq, hp, he⟩
      | ⟨rfl, hr, hid, hq, hp, he, hfull⟩ := hwhy
    · exact if_pos hr
    · rw [if_neg (not_not_intro hr), if_pos hid]
    · rw [if_neg (not_not_intro hr), if_neg hid, if_pos hq]
    · rw [if_neg (not_not_intro hr), if_neg hid, if_neg hq, if_pos hp]
    · rw [if_neg (not_not_intro hr), if_neg hid, if_neg hq, if_neg (Bool.eq_false_iff.mp hp), if_pos he]
    · rw [if_neg (not_not_intro hr), if_neg hid, if_neg hq, if_neg (Bool.eq_false_iff.mp hp), if_neg (not_not_intro he),
        Part.freeCons_full size hfull]
      rfl
  · intro hr hid hq hp he hx hi hbelow
    have free := Part.freeCons_lowest size hi hbelow
    have passed : p.loadFailure (LoadBody.ofWords ws) = none := by
      rw [judged, if_neg (not_not_intro hr), if_neg hid, if_neg hq, if_neg (Bool.eq_false_iff.mp hp), if_neg (not_not_intro he),
        free]
      rfl
    have ctx : p.ctx c = x := Part.ctx_of_getElem? hx
    rw [← acks, ← ctx]
    exact Part.loadRequest_accepted passed free t

end Sys2Proof.Machine

/-! # Proofs: DELIVERY and UNLOAD, and their PROOFs (R146 to R150, R153, R154) -/

namespace Sys2Proof.Machine

/-! ## The PROOF -/

/-- The words of a PROOF for the id in a request's words 3 and 4 (R154, R212). -/
theorem proofBody_eq (ws : List Word) (stop : Word) (v : Verdict) (flags : Flags) (drops quantity : Nat) (worst : Option Int)
    (f : Figures) (openings dwells : Nat) :
    proofBody (dwordAt ws 3) stop v flags drops quantity worst f openings dwells =
      [wordAt ws 3, wordAt ws 4, stop, flags.word ||| (BitVec.ofNat 16 (min 7 drops) <<< 9) ||| (v.code <<< 12),
          BitVec.ofNat 16 quantity, tempWord? worst]
        ++ [f.excursion, f.excess, f.door, f.gap].map (fun n => BitVec.ofNat 16 (min 65535 (n / 60)))
        ++ [BitVec.ofNat 16 (min 255 openings + 256 * min 255 dwells)] := by
  have byte : sat8 openings < 256 := by
    rw [sat8_eq_min]
    omega
  unfold proofBody dwordAt
  rw [words_joinD, bytesWord_sat8 byte, sat8_eq_min, satAt, Nat.min_comm]
  simp only [minutes, sat16_eq_min]
  rfl

/-- The PROOF where no entry holds the id (R153). -/
theorem proofBody_empty (ws : List Word) (stop : Word) (v : Verdict) (quantity : Nat) :
    proofBody (dwordAt ws 3) stop v Flags.clear 0 quantity none Figures.zero 0 0 =
      [wordAt ws 3, wordAt ws 4, stop, v.code <<< 12, BitVec.ofNat 16 quantity, 0x8000, 0, 0, 0, 0, 0] := by
  have noFlags : Flags.clear.word ||| (BitVec.ofNat 16 (min 7 0) <<< 9) = 0#16 := by decide
  rw [proofBody_eq, noFlags, BitVec.zero_or]
  rfl

theorem Part.errorProof_known {p : Part} {id : DWord} {i : Nat} {k : Consignment} (h : p.consById id = some (i, k))
    (stop : Word) (v : Verdict) (n : Nat) : p.errorProof id stop v n = p.proofOf id stop v n k := by
  unfold Part.errorProof
  rw [h]

theorem Part.errorProof_unknown {p : Part} {id : DWord} (h : p.consById id = none) (stop : Word) (v : Verdict) (n : Nat) :
    p.errorProof id stop v n = { kind := .proof, body := proofBody id stop v Flags.clear 0 n none Figures.zero 0 0 } := by
  unfold Part.errorProof
  rw [h]

theorem Part.acceptedProof_of {p : Part} {i : Nat} {k : Consignment} (hk : p.cons[i]? = some (some k)) (id : DWord)
    (stop : Word) (n : Nat) :
    p.acceptedProof id stop n i = p.proofOf id stop (k.verdict (p.figures k) (p.sheet.cls k.cls).hold) n k := by
  unfold Part.acceptedProof
  rw [Part.consAt_of_getElem? hk]

theorem bit_getElem (b : Bool) (n : Nat) {i : Nat} (hi : i < 16) : (bit b n)[i] = (b && decide (i = n)) := by
  cases b with
  | false => simp [bit]
  | true => exact (BitVec.getElem_twoPow hi).trans (Bool.true_and _).symm

/-- The flags of a PROOF's word 4 are bits 0 to 8 (R214). -/
theorem Flags.word_bits (f : Flags) : (List.range 16).map f.word.getLsbD
    = [f.softCrossed, f.condemned, f.breached, f.sealBroken, f.gapSeen, f.eventsWithheld, f.evidenceFault, f.evidenceReset,
        f.handoverWarm] ++ List.replicate 7 false := by
  simp [Flags.word, List.range, List.range.loop, bit_getElem]

/-! ## The checks -/

theorem DeliveryBody.quantityAgrees_iff (b : DeliveryBody) (k : Consignment) : b.quantityAgrees k = true ↔
    (b.kind.toNat = 0 ∧ b.quantity = k.remaining) ∨ (1 ≤ b.kind.toNat ∧ 1 ≤ b.quantity ∧ b.quantity ≤ k.remaining) := by
  have full : b.kind = deliveryFull ↔ b.kind.toNat = 0 := BitVec.toNat_eq
  unfold DeliveryBody.quantityAgrees
  by_cases h : b.kind.toNat = 0
  · simp [full, h]
  · simp [full, h, Nat.one_le_iff_ne_zero]

section Checks

variable {p : Part}

theorem Part.deliveryTarget_halted (h : p.route.state = .halted) (b : DeliveryBody) :
    p.deliveryTarget b = .error .routeHalted := if_pos h

theorem Part.unloadTarget_halted (h : p.route.state = .halted) (id : DWord) :
    p.unloadTarget id = .error .routeHalted := if_pos h

variable (goes : p.route.state ≠ .halted)
include goes

theorem Part.deliveryTarget_unknown {b : DeliveryBody} (h : p.consById b.id = none) :
    p.deliveryTarget b = .error .unknownConsignment := by
  unfold Part.deliveryTarget
  rw [if_neg goes, h]

theorem Part.unloadTarget_unknown {id : DWord} (h : p.consById id = none) :
    p.unloadTarget id = .error .unknownConsignment := by
  unfold Part.unloadTarget
  rw [if_neg goes, h]

/-- Checks 3 to 5 of R146, on the entry that holds the id. -/
theorem Part.deliveryTarget_known {b : DeliveryBody} {i : Nat} {k : Consignment} (h : p.consById b.id = some (i, k)) :
    p.deliveryTarget b = if k.state ≠ .loaded then .error .notOnBoard
      else if 2 < b.kind.toNat ∨ b.stop = 0 then .error .badRequest
      else if ¬b.quantityAgrees k then .error .quantityMismatch else .ok (i, k) := by
  unfold Part.deliveryTarget
  rw [if_neg goes, h]
  simp [Consignment.isLoaded]

/-- Check 3 of R149, on the entry that holds the id. -/
theorem Part.unloadTarget_known {id : DWord} {i : Nat} {k : Consignment} (h : p.consById id = some (i, k)) :
    p.unloadTarget id = if k.state = .loaded then .ok (i, k) else .error .notOnBoard := by
  unfold Part.unloadTarget
  rw [if_neg goes, h]
  simp [Consignment.isLoaded]

end Checks

theorem Part.deliveryRequest_refused {p : Part} {ws : List Word} {v : Verdict}
    (h : p.deliveryTarget (DeliveryBody.ofWords ws) = .error v) :
    p.deliveryRequest ws = (p.errorProof (dwordAt ws 3) (wordAt ws 5) v (wordAt ws 6).toNat, p) := by
  unfold Part.deliveryRequest
  simp only [h]
  rfl

theorem Part.deliveryRequest_accepted {p q : Part} {ws : List Word} {i : Nat} {k : Consignment}
    (h : p.deliveryTarget (DeliveryBody.ofWords ws) = .ok (i, k))
    (hq : (p.judgeHandover (wordAt ws 7) i k).applyDelivery (DeliveryBody.ofWords ws) i = q) :
    p.deliveryRequest ws = (q.acceptedProof (dwordAt ws 3) (wordAt ws 5) (wordAt ws 6).toNat i, q) := by
  subst hq
  unfold Part.deliveryRequest
  simp only [h]
  rfl

theorem Part.unloadRequest_refused {p : Part} {ws : List Word} {v : Verdict} (h : p.unloadTarget (dwordAt ws 3) = .error v) :
    p.unloadRequest ws = (p.errorProof (dwordAt ws 3) 0 v 0, p) := by
  unfold Part.unloadRequest unloadId
  simp only [h]

theorem Part.unloadRequest_accepted {p : Part} {ws : List Word} {i : Nat} {k : Consignment}
    (h : p.unloadTarget (dwordAt ws 3) = .ok (i, k)) :
    p.unloadRequest ws =
      ((p.leaveLoaded i .returned).acceptedProof (dwordAt ws 3) 0 k.remaining i, p.leaveLoaded i .returned) := by
  unfold Part.unloadRequest unloadId
  simp only [h]

/-! ## The hand-over reading (R147) -/

/-- A hand-over reading is valid and above a limit. -/
def readingAbove (limit reading : Word) : Bool :=
  decide (-600 ≤ reading.toInt ∧ reading.toInt ≤ 600) && decide (limit.toInt < reading.toInt)

/-- A consignment after its hand-over reading. -/
def Consignment.handedOver (cls : ClassEntry) (reading : Word) (k : Consignment) : Consignment :=
  { k with flags := { k.flags with
      handoverWarm := k.flags.handoverWarm || readingAbove cls.hold reading
      condemned := k.flags.condemned || readingAbove cls.soft reading } }

theorem readingAbove_valid {reading : Word} (h : -600 ≤ reading.toInt ∧ reading.toInt ≤ 600) (limit : Word) :
    readingAbove limit reading = decide (limit.toInt < reading.toInt) := by
  simp [readingAbove, h]

theorem readingAbove_invalid {reading : Word} (h : ¬(-600 ≤ reading.toInt ∧ reading.toInt ≤ 600)) (limit : Word) :
    readingAbove limit reading = false := by
  simp only [readingAbove, h, decide_false, Bool.false_and]

/-- An invalid reading leaves the flags as they are. -/
theorem Consignment.handedOver_invalid {reading : Word} (h : ¬(-600 ≤ reading.toInt ∧ reading.toInt ≤ 600)) (cls : ClassEntry)
    (k : Consignment) : k.handedOver cls reading = k := by
  simp [Consignment.handedOver, readingAbove_invalid h]

theorem Part.recorded_only (p : Part) (c : Nat) (kind : Kind) (body : List Word) :
    Part.EvidenceOnly p (p.recorded c kind body) := by
  rw [← Part.addExposure_eq_recorded]
  exact Part.addExposure_only c kind body p

section Delivery

variable {p : Part} {i : Nat} {k : Consignment} (hk : p.cons[i]? = some (some k))
include hk

/-- The reading sets its flags, and alerts when it newly condemns the consignment (R147). -/
theorem Part.judgeHandover_eq {x : Ctx} (hx : p.ctxs[k.comp]? = some x) (reading : Word) :
    p.judgeHandover reading i k =
      let cls := p.sheet.cls k.cls
      let handed : Part := { p with cons := p.cons.set i (some (k.handedOver cls reading)) }
      if readingAbove cls.soft reading && !k.flags.condemned then
        Part.recorded { handed with attention := p.attention ||| causeConsignmentAlert } k.comp .alert
          (dwords k.id ++ [wordOf k.comp, 0x1001, reading, wordOf (min 65535 ((x.excess - k.base.excess) / 60)),
            wordOf x.withheld])
      else handed := by
  unfold Part.judgeHandover validTemp
  dsimp only
  by_cases valid : -600 ≤ reading.toInt ∧ reading.toInt ≤ 600
  · simp only [if_pos valid, Part.modCons_eq_set hk, Consignment.handedOver, readingAbove_valid valid]
    rw [Part.alert_eq_recorded (by exact hx)]
    rfl
  · simp only [if_neg valid, Consignment.handedOver_invalid valid, readingAbove_invalid valid, set_self_of_getElem? hk]
    rfl

/-- A record queued or withheld leaves an entry of the table in use, and its class. -/
theorem Part.recorded_entry (c : Nat) (kind : Kind) (body : List Word) :
    ∃ g, (p.recorded c kind body).cons[i]? = some (some g) ∧ g.cls = k.cls := by
  by_cases room : p.queue.length ≤ 15
  · exact ⟨k, by simp [Part.recorded, room, Part.joined, hk], rfl⟩
  · refine ⟨if k.state = .loaded ∧ k.comp = c then { k with flags := { k.flags with eventsWithheld := true } } else k, ?_,
      by split <;> rfl⟩
    rw [Part.recorded, if_neg room, List.getElem?_map, hk]
    rfl

theorem Part.judgeHandover_entry {x : Ctx} (hx : p.ctxs[k.comp]? = some x) (reading : Word) :
    ∃ g, (p.judgeHandover reading i k).cons[i]? = some (some g) ∧ g.cls = k.cls
      ∧ (p.judgeHandover reading i k).sheet = p.sheet := by
  let handed := k.handedOver (p.sheet.cls k.cls) reading
  have put := getElem?_set_self_of_getElem? hk (some handed)
  rw [Part.judgeHandover_eq hk hx]
  dsimp only
  split
  · obtain ⟨g, entry, sameClass⟩ := Part.recorded_entry (p := { p with
      cons := p.cons.set i (some handed), attention := p.attention ||| causeConsignmentAlert }) put k.comp .alert _
    refine ⟨g, entry, sameClass, ?_⟩
    unfold Part.sheet
    rw [(Part.recorded_only _ _ _ _).route]
  · exact ⟨handed, put, rfl, rfl⟩

/-! ## The effects (R148, R150) -/

theorem Part.leaveLoaded_eq (st : ConsState) :
    p.leaveLoaded i st = { p with cons := p.cons.set i (some { k with closing := some (p.figures k), state := st }) } :=
  Part.modCons_eq_set hk _

/-- A DELIVERY refused at the stop counts a drop; any other takes its quantity, and with nothing remaining the entry is DONE. -/
theorem Part.applyDelivery_eq (b : DeliveryBody) : p.applyDelivery b i = { p with cons := p.cons.set i (some (
    if b.kind.toNat = 2 then { k with drops := min 65535 (k.drops + 1) }
    else if k.remaining - b.quantity = 0 then { k with remaining := 0, closing := some (p.figures k), state := .done }
    else { k with remaining := k.remaining - b.quantity })) } := by
  have refused : b.kind = deliveryRefused ↔ b.kind.toNat = 2 := BitVec.toNat_eq
  have taken := getElem?_set_self_of_getElem? hk (some { k with remaining := k.remaining - b.quantity })
  unfold Part.applyDelivery
  by_cases stop : b.kind.toNat = 2
  · rw [if_pos (refused.mpr stop), if_pos stop, Part.modCons_eq_set hk, sat16_eq_min]
  · rw [if_neg (mt refused.mp stop), if_neg stop, Part.modCons_eq_set hk]
    dsimp only
    rw [Part.consAt_of_getElem? taken]
    dsimp only
    by_cases empty : k.remaining - b.quantity = 0
    · rw [if_pos empty, if_pos empty, Part.leaveLoaded_eq (p := { p with cons := _ }) taken, List.set_set, empty]
      rfl
    · rw [if_neg empty, if_neg empty]

end Delivery

/-- Settles O46: the checks on the entry that holds the id, the effects of an accepted request, and the flags' bits. -/
theorem deliveriesAndUnloadsAreJudged : Obligations.DeliveriesAndUnloadsAreJudged := by
  refine ⟨?_, Flags.word_bits⟩
  intro ws t i k x verdict p size id isId unknown mine stop quantity reading kind proof empty quantityFits fails unloadFails cls
    valid warm soft handed alerted g left h after back unloaded
  have proofs (q : Part) (s : Word) (v : Verdict) (n : Nat) (g : Consignment) : q.proofOf id s v n g = proof q s v n g :=
    congrArg (Answer.mk .proof) (proofBody_eq ws s v g.flags g.drops n g.worst (q.figures g) g.openings g.dwells)
  have found (hm : mine) : p.consById id = some (i, k) := by
    obtain ⟨hk, hid, hfirst⟩ := hm
    exact Part.consById_first size hk hid hfirst
  have missing : p.consById id = none ↔ unknown := Part.consById_eq_none_iff size id
  have known (hm : mine) (s : Word) (v : Verdict) (n : Nat) : p.errorProof id s v n = proof p s v n k :=
    (Part.errorProof_known (found hm) s v n).trans (proofs p s v n k)
  have nobody (hu : unknown) (s : Word) (v : Verdict) (n : Nat) : p.errorProof id s v n = empty s v n :=
    (Part.errorProof_unknown (missing.mpr hu) s v n).trans (congrArg (Answer.mk .proof) (proofBody_empty ws s v n))
  have contradicts (hm : mine) (hu : unknown) : False := by
    have := (found hm).symm.trans (missing.mpr hu)
    cases this
  have agrees : (DeliveryBody.ofWords ws).quantityAgrees k = true ↔ quantityFits := DeliveryBody.quantityAgrees_iff _ k
  have judged (goes : p.route.state ≠ .halted) (hm : mine) : p.deliveryTarget (DeliveryBody.ofWords ws) =
      if k.state ≠ .loaded then .error .notOnBoard else if 2 < kind ∨ stop = 0 then .error .badRequest
      else if ¬quantityFits then .error .quantityMismatch else .ok (i, k) := by
    simp only [← agrees]
    exact Part.deliveryTarget_known goes (found hm)
  have refused (v : Verdict) (hv : p.deliveryTarget (DeliveryBody.ofWords ws) = .error v) :
      p.answerRequest .delivery ws t = (p.errorProof id stop v quantity, p) := Part.deliveryRequest_refused hv
  have kept (v : Verdict) (hv : p.unloadTarget id = .error v) :
      p.answerRequest .unload ws t = (p.errorProof id 0 v 0, p) := Part.unloadRequest_refused hv
  refine ⟨fun hf hm => ?_, fun hf hu hv => ?_, fun hm goes loaded hkind hstop fits hx => ?_, fun hf hm => ?_, fun hf hu hv => ?_,
    fun hm goes loaded => ?_⟩
  · rw [← known hm]
    refine refused verdict ?_
    obtain ⟨rfl, hr⟩ | ⟨rfl, hr, hu⟩ | ⟨rfl, hr, hl⟩ | ⟨rfl, hr, hl, hb⟩ | ⟨rfl, hr, hl, hkind, hstop, hq⟩ := hf
    · exact Part.deliveryTarget_halted hr _
    · exact (contradicts hm hu).elim
    · rw [judged hr hm, if_pos hl]
    · rw [judged hr hm, if_neg (not_not_intro hl), if_pos hb]
    · rw [judged hr hm, if_neg (not_not_intro hl), if_neg (not_or.mpr ⟨Nat.not_lt.mpr hkind, hstop⟩), if_pos hq]
  · rw [← nobody hu]
    refine refused verdict ?_
    obtain ⟨rfl, hr⟩ | ⟨rfl, hr, -⟩ | ⟨rfl, -⟩ | ⟨rfl, -⟩ | ⟨rfl, -⟩ := hf
    · exact Part.deliveryTarget_halted hr _
    · exact Part.deliveryTarget_unknown hr (missing.mpr hu)
    all_goals exact absurd hv (by decide)
  · have entered : p.cons[i]? = some (some k) := hm.1
    have handover : p.judgeHandover reading i k = alerted := Part.judgeHandover_eq entered hx reading
    obtain ⟨g', entry, sameClass, sheet⟩ := Part.judgeHandover_entry entered hx reading
    rw [handover] at entry sheet
    obtain rfl : g = g' := by simp only [g, entry, Option.getD_some]
    have theirClass : h.cls = k.cls := by
      rw [← sameClass]
      simp only [h]
      split_ifs <;> rfl
    have effect : alerted.applyDelivery (DeliveryBody.ofWords ws) i = after := Part.applyDelivery_eq entry _
    have accepted : p.deliveryTarget (DeliveryBody.ofWords ws) = .ok (i, k) := by
      rw [judged goes hm, if_neg (not_not_intro loaded), if_neg (not_or.mpr ⟨Nat.not_lt.mpr hkind, hstop⟩),
        if_neg (not_not_intro fits)]
    have stands : after.cons[i]? = some (some h) := getElem?_set_self_of_getElem? entry (some h)
    have answer := Part.acceptedProof_of stands id stop quantity
    rw [show after.sheet = p.sheet from sheet, theirClass] at answer
    have whole := Part.deliveryRequest_accepted accepted ((congrArg (Part.applyDelivery _ i) handover).trans effect)
    exact whole.trans (congrArg (·, after) (answer.trans (proofs _ _ _ _ _)))
  · rw [← known hm]
    refine kept verdict ?_
    obtain ⟨rfl, hr⟩ | ⟨rfl, hr, hu⟩ | ⟨rfl, hr, hl⟩ := hf
    · exact Part.unloadTarget_halted hr _
    · exact (contradicts hm hu).elim
    · rw [Part.unloadTarget_known hr (found hm), if_neg hl]
  · rw [← nobody hu]
    refine kept verdict ?_
    obtain ⟨rfl, hr⟩ | ⟨rfl, hr, -⟩ | ⟨rfl, -⟩ := hf
    · exact Part.unloadTarget_halted hr _
    · exact Part.unloadTarget_unknown hr (missing.mpr hu)
    · exact absurd hv (by decide)
  · have entered : p.cons[i]? = some (some k) := hm.1
    have accepted : p.unloadTarget id = .ok (i, k) := by
      rw [Part.unloadTarget_known goes (found hm), if_pos loaded]
    have effect : p.leaveLoaded i .returned = unloaded := Part.leaveLoaded_eq entered .returned
    have stands : unloaded.cons[i]? = some (some back) := getElem?_set_self_of_getElem? entered (some back)
    have answer := Part.acceptedProof_of stands id 0 k.remaining
    have whole := Part.unloadRequest_accepted accepted
    rw [effect] at whole
    exact whole.trans (congrArg (·, unloaded) (answer.trans (proofs _ _ _ _ _)))

end Sys2Proof.Machine

/-! # Proofs: the newest request of a mount, and its answer (R206; logs 27, 29, 56, 64) -/

namespace Sys2Proof.Machine

/-! ## The last record of the DELIVERY stream -/

/-- Behind segments that hold only a header, each the predecessor of the one before it, the walk comes to `x`. -/
theorem lastRecord_walks {hs : List Found} {x : Found} (fuel : Nat) (l : List Found) :
    ∀ h : Found, (∀ y ∈ (h :: l).zip (l ++ [x]), y.1.last = 0 ∧ y.1.predecessor hs = some y.2) →
      lastRecord hs (l.length + 1 + fuel) h = lastRecord hs fuel x := by
  induction l with
  | nil =>
    intro h chain
    obtain ⟨empty, before⟩ := chain (h, x) (by simp)
    rw [List.length_nil, Nat.zero_add, Nat.add_comm]
    exact lastRecord_of_header empty before fuel
  | cons g l ih =>
    intro h chain
    obtain ⟨empty, before⟩ := chain (h, g) (by simp)
    have step : (g :: l).length + 1 + fuel = l.length + 1 + fuel + 1 := by simp only [List.length_cons]; omega
    rw [step, lastRecord_of_header empty before]
    exact ih g fun y hy => chain y (List.mem_cons_of_mem _ hy)

/-- Where that walk ends in a segment without a record and without a predecessor, there is no last record. -/
theorem lastRecord_walks_none {hs : List Found} {x : Found} (hx : x.last = 0) (hp : x.predecessor hs = none) (l : List Found) :
    ∀ (fuel : Nat) (h : Found), (∀ y ∈ (h :: l).zip (l ++ [x]), y.1.last = 0 ∧ y.1.predecessor hs = some y.2) →
      lastRecord hs fuel h = none := by
  induction l with
  | nil =>
    intro fuel h chain
    obtain ⟨empty, before⟩ := chain (h, x) (by simp)
    cases fuel with
    | zero => rfl
    | succ fuel => rw [lastRecord_of_header empty before, lastRecord_missing hx hp]
  | cons g l ih =>
    intro fuel h chain
    obtain ⟨empty, before⟩ := chain (h, g) (by simp)
    cases fuel with
    | zero => rfl
    | succ fuel =>
      rw [lastRecord_of_header empty before]
      exact ih fuel g fun y hy => chain y (List.mem_cons_of_mem _ hy)

section LastDelivery

variable {hs : List Found}

theorem lastDelivery_none (h : newestOf (ofStream hs .delivery) = none) : lastDelivery hs = none := by
  unfold lastDelivery
  rw [h]
  rfl

variable {h : Found} (newest : newestOf (ofStream hs .delivery) = some h)
include newest

theorem lastDelivery_eq : lastDelivery hs = lastRecord hs hs.length h := by
  unfold lastDelivery
  rw [newest]
  rfl

theorem lastDelivery_of_record (hl : h.last ≠ 0) : lastDelivery hs = some (h.number, h.last) := by
  have mem : h ∈ hs := List.mem_of_mem_filter (newestOf_mem newest)
  obtain ⟨fuel, hfuel⟩ := Nat.exists_eq_add_one.mpr (List.length_pos_of_mem mem)
  rw [lastDelivery_eq newest, hfuel]
  exact lastRecord_of_record hl fuel

theorem lastDelivery_walks {l : List Found} {x : Found}
    (chain : ∀ y ∈ (h :: l).zip (l ++ [x]), y.1.last = 0 ∧ y.1.predecessor hs = some y.2) (hx : x.last ≠ 0)
    (room : l.length + 2 ≤ hs.length) : lastDelivery hs = some (x.number, x.last) := by
  obtain ⟨fuel, hfuel⟩ := Nat.exists_eq_add_of_le room
  rw [lastDelivery_eq newest, hfuel, show l.length + 2 + fuel = l.length + 1 + (fuel + 1) by omega,
    lastRecord_walks (fuel + 1) l h chain]
  exact lastRecord_of_record hx fuel

end LastDelivery

/-! ## The answer -/

/-- The answer in a slot below the last of the stream's open segment (R206). -/
theorem Part.mountAnswer_below {p : Part} {n s : Nat} (hn : 1 ≤ n) (ho : p.store.streams.delivery.openSeg = some n)
    (hs : s < 1023) (ans : Answer) (t : Nat) : p.mountAnswer ans t n s =
      let x := p.store.streams.delivery
      let words := recordWords ans.kind ans.body t x.running
      { p with store := { p.store with
        direct := p.store.direct ++ [{ kind := .answer, seg := n, slot := s, words := words }]
        segs := p.store.segs.modify (n - 1) (fun e => { e with
          count := some (e.count.getD 0 + 1), owed := .none, closeTime := if e.state = .opened then none else some t })
        streams := { p.store.streams with delivery := { x with
          append := some (s + 1), nextRec := x.nextRec + 1, running := recordChainField words } } } } := by
  unfold Part.mountAnswer
  dsimp only
  rw [Part.advanceStream_eq hn, Part.slotConsumed_below (st := .delivery) (by exact ho) hs, Part.modSeg_pos hn]
  simp only [Part.modStream, Part.pushDirect, List.modify_modify_eq]
  rfl

theorem Part.answerSpot_next {s : Nat} (hs : s < 1023) (n : Nat) (p : Part) : p.answerSpot n s = (p, some (n, s + 1)) :=
  if_pos hs

theorem Part.answerSpot_opens {p : Part} {s : Nat} (hs : 1023 ≤ s) (ho : p.store.streams.delivery.openSeg = none) (n : Nat) :
    p.answerSpot n s = (p.openSegment .delivery, ((p.openSegment .delivery).stream .delivery).openSeg.map (fun m => (m, 1))) := by
  have none_ : (p.stream .delivery).openSeg = none := ho
  unfold Part.answerSpot
  rw [if_neg (Nat.not_lt.mpr hs), none_]

section CompleteNewest

variable {hs : List Found} {m : Memory}

theorem Part.completeNewest_nothing (h : lastDelivery hs = none) (p : Part) : p.completeNewest hs m = (p, false) := by
  unfold Part.completeNewest
  rw [h]

variable {n s : Nat} (last : lastDelivery hs = some (n, s))
include last

theorem Part.completeNewest_otherRecord (hr : isRequest (m.slot n s) = false) (p : Part) :
    p.completeNewest hs m = (p, false) := by
  unfold Part.completeNewest
  rw [last]
  simp only [hr]
  rfl

theorem Part.completeNewest_answers (hr : isRequest (m.slot n s) = true) {p q : Part} {a b : Nat}
    (spot : p.answerSpot n s = (q, some (a, b))) : p.completeNewest hs m =
      (q.mountAnswer (unanswered (m.slot n s)) (recordReceipt (m.slot n s)) a b, true) := by
  unfold Part.completeNewest
  rw [last]
  simp only [hr, spot, if_true]

theorem Part.completeNewest_noRoom (hr : isRequest (m.slot n s) = true) {p q : Part}
    (spot : p.answerSpot n s = (q, none)) : p.completeNewest hs m = (q, false) := by
  unfold Part.completeNewest
  rw [last]
  simp only [hr, spot, if_true]

end CompleteNewest

theorem Part.openSegment_empty {p : Part} (h : p.store.pool = []) (st : Stream) : p.openSegment st = p := by
  unfold Part.openSegment
  rw [h]

/-- A request in slot 1,023 with no BLANK segment stays without an answer (log 27). -/
theorem Part.answerSpot_noRoom {p : Part} (ho : p.store.streams.delivery.openSeg = none) (hpool : p.store.pool = []) (n : Nat) :
    p.answerSpot n 1023 = (p, none) := by
  have none_ : (p.stream .delivery).openSeg = none := ho
  rw [Part.answerSpot_opens (le_refl _) ho, Part.openSegment_empty hpool, none_]
  rfl

/-- A request in slot 1,023 has its answer in slot 1 of the lowest BLANK segment, on the chain of that segment's header
(logs 27 and 56). -/
theorem Part.answerSpot_newSegment {p : Part} {b : Nat} {rest : List Nat} (ho : p.store.streams.delivery.openSeg = none)
    (hpool : p.store.pool = (b + 1) :: rest) (n : Nat) : ∃ q w, p.answerSpot n 1023 = (q, some (b + 1, 1))
      ∧ q.store.pool = rest ∧ q.store.streams.delivery.openSeg = some (b + 1)
      ∧ q.store.streams.delivery.running = recordChainField w
      ∧ q.store.direct = p.store.direct ++ [{ kind := .header, seg := b + 1, slot := 0, words := w }] := by
  let x := p.store.streams.delivery
  let w := recordWords .header (headerBody .delivery x.nextSeq x.nextRec x.running p.clock.now) p.clock.now x.running
  have opened := Part.openSegment_openSeg hpool .delivery
  refine ⟨p.openSegment .delivery, w, ?_, ?_⟩
  · rw [Part.answerSpot_opens (le_refl _) ho]
    exact congrArg (fun o => (_, Option.map _ o)) opened
  · rw [Part.openSegment_cons hpool, Part.raiseStoreLow_eq] at opened ⊢
    have chained : recordChainField w = recordChain x.running w :=
      (recordChainField_recordWords _ _ _ _).trans (recordChain_recordWords _ _ _ _ _).symm
    exact ⟨rfl, opened, chained.symm, rfl⟩

end Sys2Proof.Machine

/-! # Proofs: the walks backward, the unfinished route and the rebuilt consignments (R160, R207, R208) -/

namespace Sys2Proof.Machine

/-! ## The walk backward -/

theorem Memory.slotsDown_eq (m : Memory) (n k : Nat) :
    m.slotsDown n k = (List.range k).map (fun j => m.slot n (k - j)) := by
  induction k with
  | zero => rfl
  | succ k ih =>
    rw [List.range_succ_eq_map, List.map_cons, List.map_map]
    refine congrArg (m.slot n (k + 1) :: ·) (ih.trans (List.map_congr_left fun j _ => ?_))
    rw [Function.comp_apply, Nat.succ_eq_add_one, Nat.add_sub_add_right]

/-- The segment belongs to the stream with the number, and is OPEN, CLOSED or FAULTED (R166). -/
def SegEntry.readableAs (st : Stream) (number : BitVec 16) (e : SegEntry) : Bool :=
  e.stream == some st && e.segSeq == some number && e.state.readable

theorem SegState.readable_eq (x : SegState) : x.readable = (x == .opened || x == .closed || x == .faulted) := by
  cases x <;> rfl

theorem Part.streamSeg_eq (p : Part) (st : Stream) (number : BitVec 16) : p.streamSeg st number =
    ((List.range p.store.segs.length).find? (fun n => p.store.segs[n]?.any (SegEntry.readableAs st number))).map (· + 1) := by
  unfold Part.streamSeg Part.recordSegs
  rw [List.find?_map]
  refine congrArg (fun f => Option.map (· + 1) (List.find? f _)) (funext fun n => ?_)
  rw [Function.comp_apply, Part.seg_pos (by omega), Nat.add_sub_cancel]
  cases p.store.segs[n]? <;> rfl

theorem Part.streamSeg_none {p : Part} {st : Stream} {number : BitVec 16}
    (h : p.store.segs.all (fun e => !e.readableAs st number) = true) : p.streamSeg st number = none := by
  rw [Part.streamSeg_eq, Option.map_eq_none_iff, List.find?_eq_none]
  intro n hn
  have hn := List.mem_range.mp hn
  have other := List.all_eq_true.mp h _ (List.getElem_mem hn)
  rw [List.getElem?_eq_getElem hn]
  simpa using other

theorem Part.streamSeg_lowest {p : Part} {st : Stream} {number : BitVec 16} {n : Nat} {e : SegEntry}
    (he : p.store.segs[n]? = some e) (h : e.readableAs st number = true)
    (hbelow : (p.store.segs.take n).all (fun e => !e.readableAs st number) = true) :
    p.streamSeg st number = some (n + 1) := by
  obtain ⟨hn, -⟩ := List.getElem?_eq_some_iff.mp he
  rw [Part.streamSeg_eq, Option.map_eq_some_iff]
  refine ⟨n, List.find?_range_eq_some.mpr ⟨?_, List.mem_range.mpr hn, fun k hk => ?_⟩, rfl⟩
  · rw [he]
    exact h
  · have other := List.all_eq_true.mp hbelow _ (List.mem_take_iff_getElem.mpr ⟨k, by omega, rfl⟩)
    rw [List.getElem?_eq_getElem (by omega)]
    simpa using other

section WalkBack

variable {p : Part} {st : Stream} {number : BitVec 16} (m : Memory) (fuel : Nat)

/-- Where the stream has no segment of the number, its records end (R207). -/
theorem Part.walkBack_ends (h : p.store.segs.all (fun e => !e.readableAs st number) = true) :
    p.walkBack st m (fuel + 1) number = [] := by
  rw [Part.walkBack, Part.streamSeg_none h]

/-- A segment of the stream gives its records, the newest first, and the walk goes on with the number below (R207). -/
theorem Part.walkBack_segment {n : Nat} {e : SegEntry} (he : p.store.segs[n]? = some e)
    (h : e.readableAs st number = true) (hbelow : (p.store.segs.take n).all (fun e => !e.readableAs st number) = true) :
    p.walkBack st m (fuel + 1) number = (List.range (e.count.getD 0)).map (fun j => m.slot (n + 1) (e.count.getD 0 - j))
      ++ p.walkBack st m fuel (number - 1) := by
  have entry : p.seg (n + 1) = some e := he
  rw [Part.walkBack, Part.streamSeg_lowest he h hbelow]
  dsimp only
  rw [entry, Option.bind_some, Memory.slotsDown_eq]

end WalkBack

/-! ## The unfinished route (R207) -/

section UnfinishedRoute

variable {a d : List (List Word)} (neither : a.all (fun ws => !isKind .routeStart ws && !isKind .routeEnd ws) = true)
include neither

theorem unfinishedRoute_none : unfinishedRoute a = none := by
  have skipped : a.dropWhile (fun ws => !(isKind .routeStart ws || isKind .routeEnd ws)) = [] :=
    List.dropWhile_eq_nil_iff.mpr fun ws hws => by simpa using List.all_eq_true.mp neither ws hws
  unfold unfinishedRoute
  rw [skipped]

/-- The newest ROUTE_START or ROUTE_END decides; the rebuild bound is the newest ROUTE_END before it. -/
theorem unfinishedRoute_newest {r : List Word} (hr : isKind .routeStart r = true ∨ isKind .routeEnd r = true) :
    unfinishedRoute (a ++ r :: d) =
      if isKind .routeStart r then some (r, (d.find? (isKind .routeEnd)).map recordReceipt) else none := by
  have skipped : (a ++ r :: d).dropWhile (fun ws => !(isKind .routeStart ws || isKind .routeEnd ws)) = r :: d := by
    rw [List.dropWhile_append_of_pos fun ws hws => by simpa using List.all_eq_true.mp neither ws hws,
      List.dropWhile_cons_of_neg (by rw [Bool.or_eq_true_iff.mpr hr]; exact Bool.false_ne_true)]
  unfold unfinishedRoute
  rw [skipped]

end UnfinishedRoute

/-- A record has one kind. -/
theorem isKind_unique {k j : Kind} {ws : List Word} (h : isKind k ws = true) (hne : k.headerWord ≠ j.headerWord) :
    isKind j ws = false :=
  beq_eq_false_iff_ne.mpr fun e => hne ((beq_iff_eq.mp h).symm.trans e)

section RecoverRoute

variable {p : Part} {m : Memory}

theorem Part.recoverRoute_none (h : unfinishedRoute (p.recordsOf .event m) = none) : p.recoverRoute m = (p, .none) := by
  unfold Part.recoverRoute
  rw [h]

variable {start : List Word} {bound : Option Nat} (unfinished : unfinishedRoute (p.recordsOf .event m) = some (start, bound))
include unfinished

theorem Part.recoverRoute_stands (hcheck : crcWords 0 (m.readWords 16 2032) = dwordAt start 4)
    (hsheet : (Sheet.ofWords (m.readWords 16 2032)).failure (wordAt start 1) = none) :
    p.recoverRoute m = (Part.putCons (rebuildCons bound (p.recordsOf .delivery m)) { p with
      route := { p.route with
        state := .halted, sheet := some (Sheet.ofWords (m.readWords 16 2032))
        held := some (Sheet.ofWords (m.readWords 16 2032)).held, check := some (dwordAt start 4)
        start := some (recordReceipt start) }
      clock := { p.clock with mark := some p.clock.now } }, .halted) := by
  unfold Part.recoverRoute
  rw [unfinished]
  dsimp only
  rw [if_pos ⟨hcheck, hsheet⟩, hcheck]

theorem Part.recoverRoute_falls (h : ¬(crcWords 0 (m.readWords 16 2032) = dwordAt start 4
      ∧ (Sheet.ofWords (m.readWords 16 2032)).failure (wordAt start 1) = none)) :
    p.recoverRoute m = (p, .unrecovered (wordAt start 1)) := by
  unfold Part.recoverRoute
  rw [unfinished]
  exact if_neg h

end RecoverRoute

/-! ## The rebuild's walk (R208) -/

theorem isKind_iff (k : Kind) (ws : List Word) : isKind k ws = true ↔ wordAt ws 0 = k.headerWord := beq_iff_eq

/-- The record was given before the rebuild bound. -/
def beforeBound (bound : Option Nat) (ws : List Word) : Bool := bound.any (fun b => decide (num32At ws 12 < b))

/-- An accepted PROOF: its verdict is not an error (R154, R160). -/
def provesDelivery (ws : List Word) : Bool :=
  decide (wordAt ws 0 = Kind.proof.headerWord ∧ (wordAt ws 4).toNat / 4096 ≤ 6)

/-- An accepted LOAD_ACK (R160). -/
def acksLoad (ws : List Word) : Bool := decide (wordAt ws 0 = Kind.loadAck.headerWord ∧ wordAt ws 3 = 0)

/-- The index of a LOAD_ACK is below the last one taken, if one was. -/
def belowLast (last : Option Nat) (ws : List Word) : Bool := last.all (fun j => decide ((wordAt ws 4).toNat < j))

theorem beforeBound_iff (bound : Option Nat) (ws : List Word) :
    beforeBound bound ws = true ↔ ∃ b, bound = some b ∧ num32At ws 12 < b := by
  cases bound <;> simp [beforeBound]

theorem belowLast_iff (last : Option Nat) (ws : List Word) :
    belowLast last ws = true ↔ ∀ j, last = some j → (wordAt ws 4).toNat < j := by
  cases last <;> simp [belowLast]

/-- No record is both. -/
theorem provesDelivery_false_of_load {ws : List Word} (h : wordAt ws 0 = Kind.loadAck.headerWord ∧ wordAt ws 3 = 0) :
    provesDelivery ws = false :=
  decide_eq_false fun hp => absurd (h.1.symm.trans hp.1) (by decide)

/-- The turns of the walk, in the order of R208. -/
theorem Rebuild.take_eq (bound : Option Nat) (x : Rebuild) (ws req : List Word) : x.take bound (ws, req) =
    if x.ended then x
    else if beforeBound bound ws then { x with ended := true }
    else if provesDelivery ws then { x with proofs := x.proofs ++ [(ws, req)] }
    else if acksLoad ws then
      if belowLast x.last ws then
        { x with
          last := some (wordAt ws 4).toNat
          entries := ((wordAt ws 4).toNat, rebuildEntry ws x.proofs) :: x.entries
          ended := decide ((wordAt ws 4).toNat = 0) }
      else { x with ended := true }
    else x := by
  have proves : (isKind .proof ws && decide ((wordAt ws 4 >>> 12).toNat ≤ 6)) = provesDelivery ws := by
    rw [Bool.eq_iff_iff, Bool.and_eq_true, isKind_iff, decide_eq_true_eq, BitVec.toNat_ushiftRight, Nat.shiftRight_eq_div_pow]
    exact decide_eq_true_iff.symm
  have acks : (isKind .loadAck ws && wordAt ws 3 == LoadOutcome.accepted.code) = acksLoad ws := by
    rw [Bool.eq_iff_iff, Bool.and_eq_true, isKind_iff, beq_iff_eq]
    exact decide_eq_true_iff.symm
  unfold Rebuild.take
  dsimp only
  rw [proves, acks]
  cases bound <;> cases x.last <;> rfl

/-! ## The rebuilt entry (R160) -/

theorem num32At_lt (ws : List Word) (i : Nat) : num32At ws i < 2 ^ 32 := by
  have lo := (wordAt ws i).isLt
  have hi := (wordAt ws (i + 1)).isLt
  unfold num32At join32
  omega

theorem dwordAt_eq_iff (a b : List Word) (i j : Nat) : dwordAt a i = dwordAt b j ↔ num32At a i = num32At b j := by
  have num (ws : List Word) (i : Nat) : (dwordAt ws i).toNat = num32At ws i :=
    (BitVec.toNat_ofNat _ _).trans (Nat.mod_eq_of_lt (num32At_lt ws i))
  rw [BitVec.toNat_eq, num, num]

theorem deliveredBy_eq (req : List Word) : deliveredBy req =
    if wordAt req 0 = Kind.delivery.headerWord ∧ (wordAt req 9 = 0 ∨ wordAt req 9 = 1) then (wordAt req 6).toNat else 0 := by
  unfold deliveredBy
  refine if_congr ?_ rfl rfl
  rw [Bool.and_eq_true, isKind_iff, Bool.or_eq_true, beq_iff_eq, beq_iff_eq]
  rfl

/-- The entry, with its own PROOFs found by the id's number and the quantities they delivered spelled out. -/
theorem rebuildEntry_eq (ack : List Word) (proofs : List (List Word × List Word)) :
    let own := proofs.filter (fun x => num32At x.1 1 == num32At ack 1)
    let gone (x : List Word × List Word) : Nat :=
      if wordAt x.2 0 = Kind.delivery.headerWord ∧ (wordAt x.2 9 = 0 ∨ wordAt x.2 9 = 1) then (wordAt x.2 6).toNat else 0
    let left := (wordAt ack 8).toNat - (own.map gone).sum
    let state : ConsState := if own.any (fun x => isKind .unload x.2) then .returned else if left = 0 then .done else .loaded
    let newest : Option (List Word) := own.head?.map Prod.fst
    let word4 := (newest.map (fun ws => wordAt ws 4)).getD 0
    let counts := (newest.map (fun ws => wordAt ws 11)).getD 0
    rebuildEntry ack proofs =
      { id := dwordAt ack 1, comp := (wordAt ack 5).toNat, cls := (wordAt ack 6).toNat, loaded := (wordAt ack 8).toNat
        remaining := left, loadTime := num32At ack 12, base := Figures.zero
        closing := if state = .loaded then none else some ((newest.map proofFigures).getD Figures.zero)
        worst := newest.bind (fun ws => validTemp (wordAt ws 6)), flags := { Flags.ofWord word4 with evidenceReset := true }
        openings := lowByte counts, dwells := highByte counts, drops := (word4 >>> 9).toNat % 8, state := state } := by
  intro own gone
  have mine : proofs.filter (fun x => dwordAt x.1 1 == dwordAt ack 1) = own :=
    List.filter_congr fun x _ => by rw [Bool.eq_iff_iff, beq_iff_eq, beq_iff_eq, dwordAt_eq_iff]
  have delivered : (fun x : List Word × List Word => deliveredBy x.2) = gone := funext fun x => deliveredBy_eq x.2
  unfold rebuildEntry
  rw [mine, delivered]
  rfl

section RebuiltEntry

variable {ack : List Word} {proofs : List (List Word × List Word)}

/-- Without a PROOF of its own the entry is as its LOAD_ACK gave it, its evidence reset (R160). -/
theorem rebuildEntry_unproved (h : proofs.filter (fun x => num32At x.1 1 == num32At ack 1) = []) :
    let k := rebuildEntry ack proofs
    k.flags = { Flags.clear with evidenceReset := true } ∧ k.worst = none ∧ k.openings = 0 ∧ k.dwells = 0 ∧ k.drops = 0 := by
  have entry := rebuildEntry_eq ack proofs
  dsimp only at entry
  rw [h] at entry
  rw [entry]
  exact ⟨rfl, rfl, rfl, rfl, rfl⟩

/-- The newest PROOF of its own gives the entry its flags, worst reading, counts and figures (R160). -/
theorem rebuildEntry_proved {x : List Word × List Word} {more : List (List Word × List Word)}
    (h : proofs.filter (fun x => num32At x.1 1 == num32At ack 1) = x :: more) :
    let k := rebuildEntry ack proofs
    k.flags = { Flags.ofWord (wordAt x.1 4) with evidenceReset := true } ∧ k.worst = validTemp (wordAt x.1 6)
      ∧ k.openings = (wordAt x.1 11).toNat % 256 ∧ k.dwells = (wordAt x.1 11).toNat / 256
      ∧ k.drops = (wordAt x.1 4).toNat / 512 % 8
      ∧ k.closing = if k.state = .loaded then none else some (proofFigures x.1) := by
  have dropped : (wordAt x.1 4 >>> 9).toNat = (wordAt x.1 4).toNat / 512 := by
    rw [BitVec.toNat_ushiftRight, Nat.shiftRight_eq_div_pow]
  have entry := rebuildEntry_eq ack proofs
  dsimp only at entry
  rw [h] at entry
  rw [entry, ← dropped]
  exact ⟨rfl, rfl, rfl, rfl, rfl, rfl⟩

end RebuiltEntry

end Sys2Proof.Machine

/-! # Proofs: the end of the mount, and what it recovers (R160, R161, R206 to R209) -/

namespace Sys2Proof.Machine

/-! ## Its writes -/

theorem Memory.writeAll_append (m : Memory) (ws us : List (Nat × Word)) :
    m.writeAll (ws ++ us) = (m.writeAll ws).writeAll us := List.foldl_append

/-- A burst is its words, one write for each. -/
theorem Memory.writeAll_wordsAt (ws : List Word) :
    ∀ (m : Memory) (base : Nat), m.writeAll (wordsAt base ws) = m.writeWords base ws := by
  induction ws with
  | nil => exact fun _ _ => rfl
  | cons w ws ih =>
    intro m base
    have shift : wordsAt base (w :: ws) = (base, w) :: wordsAt (base + 1) ws := by
      simp [wordsAt, List.mapIdx_cons, Nat.add_right_comm, ← Nat.add_assoc]
    rw [shift]
    exact ih (m.write base w) (base + 1)

/-- The direct writes, entry by entry (R22, R206). -/
theorem Part.writeAll_directWrites (p : Part) (m : Memory) : m.writeAll p.directWrites =
    p.store.direct.foldl (fun m e => m.writeWords (e.seg * 16384 + 16 * e.slot) e.words) m := by
  unfold Part.directWrites
  induction p.store.direct generalizing m with
  | nil => rfl
  | cons e l ih =>
    rw [List.map_cons, List.flatten_cons, Memory.writeAll_append, Memory.writeAll_wordsAt, ih]
    rfl

/-- The memory of the mount's work is the memory it began with after the words it wrote. -/
def Settling.WritesAgree (m : Memory) (x : Settling) : Prop := m.writeAll x.writes = x.mem

theorem Settling.put_agrees {m : Memory} {x : Settling} (h : x.WritesAgree m) (n s : Nat) (ws : List Word) :
    (x.put n s ws).WritesAgree m := by
  unfold Settling.WritesAgree Settling.put
  rw [Memory.writeAll_append, h, Memory.writeAll_wordsAt]

theorem Settling.settleSlot_agrees {m : Memory} {x : Settling} (h : x.WritesAgree m) (clock : Nat) (hs : List Found) (g : Found)
    (s : Nat) : (Settling.settleSlot clock hs g x s).WritesAgree m := by
  unfold Settling.settleSlot
  dsimp only
  split <;> exact Settling.put_agrees h _ _ _

theorem settleTails_agrees (clock : Nat) (hs : List Found) (m : Memory) : (settleTails clock hs m).WritesAgree m :=
  List.foldlRecOn hs _ (motive := Settling.WritesAgree m) rfl fun _ h g _ =>
    List.foldlRecOn (g.cutSlots m) _ (motive := Settling.WritesAgree m) h fun _ h s _ =>
      Settling.settleSlot_agrees h clock hs g s

/-! ## Its state -/

theorem Part.recoverRoute_queue (m : Memory) (p : Part) : (p.recoverRoute m).1.queue = p.queue := by
  unfold Part.recoverRoute
  dsimp only
  split
  · rfl
  · split <;> rfl

theorem raised_and (a c : Word) : (a ||| c) &&& c = c := by
  have absorb : ∀ x y : Bool, ((x || y) && y) = y := by decide
  ext i hi
  rw [BitVec.getElem_and, BitVec.getElem_or]
  exact absorb _ _

/-- A cause once pending stays so when another is raised (R72). -/
theorem raised_and_of_pending {a c : Word} (h : a &&& c = c) (d : Word) : (a ||| d) &&& c = c := by
  have absorb : ∀ x y : Bool, (y || (x && y)) = y := by decide
  ext i hi
  have bits := congrArg (fun w : Word => w[i]) h
  rw [BitVec.getElem_and] at bits
  rw [BitVec.getElem_and, BitVec.getElem_or, Bool.and_or_distrib_right, bits]
  exact absorb _ _

/-- The mount's part: STORE_LOW where due, the end of every mount, and the RESTART record (R209; log 30). -/
def Part.mountLeaves (body : List Word) (p : Part) : Part :=
  ((if p.store.pool.length ≤ 4 then p.raise causeStoreLow else p).mountEnds).joined .event .restart body

/-- The mount of the part's own store: the route is sought in the memory with the answer written (R207, R209). -/
theorem Part.mountStore_eq (m : Memory) (p : Part) :
    let hs := ((List.range (p.store.nSeg - 1)).map (· + 1)).filterMap (Memory.header m)
    let clock := mountClock m hs (p.store.formatTime.getD 0)
    let x := settleTails clock hs m
    let q : Part := { p with
      store := p.store.mounted hs x.mem, clock := { now := clock, valid := false, floor := clock, mark := none } }
    let r := (q.completeNewest hs x.mem).1
    let mem := x.mem.writeAll r.directWrites
    (∃ body, (p.mountStore m).part = (r.clearDirect.recoverRoute mem).1.mountLeaves body)
      ∧ m.writeAll (p.mountStore m).writes = mem := by
  intro hs clock x q r mem
  have settled : m.writeAll x.writes = x.mem := settleTails_agrees clock hs m
  exact ⟨⟨_, Part.addRecord_eq_joined _ _ _ _⟩, (Memory.writeAll_append m x.writes r.directWrites).trans (by rw [settled])⟩

/-- The end of the mount raises RESTART and CLOCK_INVALID (R209). -/
theorem Part.mountEnds_attention (p : Part) : p.mountEnds.attention = p.attention ||| causeRestart ||| causeClockInvalid := rfl

/-- A record that joins the queue leaves the pending causes pending. -/
theorem Part.joined_pending {p : Part} {c : Word} (h : p.attention &&& c = c) (st : Stream) (k : Kind) (body : List Word) :
    (p.joined st k body).attention &&& c = c := by
  unfold Part.joined
  dsimp only
  split
  · exact raised_and_of_pending h _
  · exact h

section MountLeaves

variable (body : List Word) (p : Part)

/-- RESTART and CLOCK_INVALID are pending after every mount. -/
theorem Part.mountLeaves_pending : (p.mountLeaves body).attention &&& (causeRestart ||| causeClockInvalid)
    = causeRestart ||| causeClockInvalid := by
  refine Part.joined_pending ?_ _ _ _
  rw [Part.mountEnds_attention, BitVec.or_assoc]
  exact raised_and _ _

theorem Part.mountLeaves_storeLow (h : p.store.pool.length ≤ 4) :
    (p.mountLeaves body).attention &&& causeStoreLow = causeStoreLow := by
  refine Part.joined_pending ?_ _ _ _
  rw [if_pos h, Part.mountEnds_attention]
  exact raised_and_of_pending (raised_and_of_pending (raised_and _ _) _) _

theorem Part.mountLeaves_fields :
    let u := p.mountLeaves body
    u.backup.mounting = false ∧ u.store = p.store ∧ u.route = p.route ∧ u.cons = p.cons ∧ u.clock = p.clock
      ∧ u.queue = p.queue ++ [{ stream := .event, kind := .restart, body := body, taken := none }] := by
  unfold Part.mountLeaves
  split <;> exact ⟨rfl, rfl, rfl, rfl, rfl, rfl⟩

end MountLeaves

/-- MOUNT_END with no access waiting: the mount's writes, its state, and the arbiter's grant. -/
theorem State.mountEnd_next {s : State} (hp : s.part.power = .on) (hm : s.part.backup.mounting = true)
    (hw : s.port.waiting = []) : exec .mountEnd s =
      .next { s with mem := s.mem.writeAll s.mount.writes, part := s.mount.part.grantPort } := by
  have settled : exec .mountEnd s =
      .next (State.settle { s with mem := s.mem.writeAll s.mount.writes, part := s.mount.part }) :=
    congrArg Host.Outcome.next (if_pos ⟨hp, hm⟩)
  exact settled.trans (congrArg Host.Outcome.next
    (State.settle_quiet (s := { s with mem := s.mem.writeAll s.mount.writes, part := s.mount.part }) hw))

theorem State.mount_guarded {s : State} (h : s.part.mode = .guarded) : s.mount = s.part.mountStore s.mem := if_pos h

/-- Settles O60: the newest request, the last record behind empty segments, the walks, the route, the rebuild and the end of
the mount, each by its own lemmas above. -/
theorem theMountRecoversTheRoute : Obligations.TheMountRecoversTheRoute := by
  refine ⟨fun m hs p n k b rest => ?_, fun hs l h x => ?_, fun m p st number fuel n e => ?_, fun m p a d r => ?_,
    fun bound x ws req records => ?_, fun ack proofs => ?_, fun s formatTime hp hmount hw hmode htime => ?_⟩
  · intro ws at_ asks time answer x words answered
    have asked : isRequest (m.slot n k) = true ↔ asks := by
      rw [isRequest_iff, ← Memory.getD_slot (by decide)]
      exact Iff.rfl
    have stamp : recordReceipt (m.slot n k) = time := (Memory.getD_slot_num (by decide) m n k).symm
    have record (seed : DWord) :
        recordWords (unanswered (m.slot n k)).kind (unanswered (m.slot n k)).body time seed = answer seed :=
      recordWords_unanswered (Memory.slot_length m n k) time seed
    refine ⟨fun h => Part.completeNewest_nothing h p,
      fun h ha => Part.completeNewest_otherRecord h (Bool.eq_false_iff.mpr (mt asked.mp ha)) p,
      fun h ha hk hn ho => ?_, fun h ha hk ho hpool => ?_, fun h ha hk ho hpool hb => ?_⟩
    · rw [Part.completeNewest_answers h (asked.mpr ha) (Part.answerSpot_next (by omega) n p), stamp,
        Part.mountAnswer_below hn ho (by omega)]
      simp only [record]
      rfl
    · subst hk
      exact Part.completeNewest_noRoom h (asked.mpr ha) (Part.answerSpot_noRoom ho hpool n)
    · subst hk
      obtain ⟨b, rfl⟩ := Nat.exists_eq_add_one.mpr hb
      obtain ⟨q, w, spot, pool, opened, chain, direct⟩ := Part.answerSpot_newSegment ho hpool n
      refine ⟨_, w, Part.completeNewest_answers h (asked.mpr ha) spot, ?_⟩
      rw [stamp, Part.mountAnswer_below (by omega) opened (by decide)]
      dsimp only
      rw [record, chain, direct, List.append_assoc]
      exact ⟨pool, opened, rfl⟩
  · intro newest before
    exact ⟨lastDelivery_none, fun h hl => lastDelivery_of_record h hl, fun h chain hx room => lastDelivery_walks h chain hx room,
      fun h chain hx hp => (lastDelivery_eq h).trans (lastRecord_walks_none hx hp l hs.length _ chain)⟩
  · intro such
    have readable : such = SegEntry.readableAs st number := funext fun e => by
      unfold SegEntry.readableAs
      rw [SegState.readable_eq]
    rw [readable]
    refine ⟨Part.walkBack_ends m fuel, fun hn he h hbelow => ?_⟩
    obtain ⟨n, rfl⟩ := Nat.exists_eq_add_one.mpr hn
    exact Part.walkBack_segment m fuel he h hbelow
  · intro starts ends read sheet stands bound neither
    have other (h : ends r = true) : isKind .routeStart r = false := isKind_unique h (by decide)
    have newest (hr : starts r = true ∨ ends r = true) := unfinishedRoute_newest (d := d) neither hr
    have started (h : p.recordsOf .event m = a ++ r :: d) (hr : starts r = true) :
        unfinishedRoute (p.recordsOf .event m) = some (r, bound) := by
      rw [h, newest (.inl hr)]
      exact if_pos hr
    refine ⟨fun h => Part.recoverRoute_none ?_, fun h hr => Part.recoverRoute_none ?_,
      fun h hr hs => Part.recoverRoute_falls (started h hr) hs,
      fun h hr ⟨hcheck, hsheet⟩ => Part.recoverRoute_stands (started h hr) hcheck hsheet⟩
    · rw [h, unfinishedRoute_none neither]
    · rw [h, newest (.inr hr), other hr]
      rfl
  · intro early proves loads i lower
    have early_iff : beforeBound bound ws = true ↔ early := beforeBound_iff bound ws
    have proves_iff : provesDelivery ws = true ↔ proves := decide_eq_true_iff
    have loads_iff : acksLoad ws = true ↔ loads := decide_eq_true_iff
    have lower_iff : belowLast x.last ws = true ↔ lower := belowLast_iff x.last ws
    have loading (h : loads) : ¬provesDelivery ws = true := Bool.eq_false_iff.mp (provesDelivery_false_of_load h)
    refine ⟨rfl, ?_⟩
    rw [Rebuild.take_eq]
    refine ⟨fun hx => if_pos hx, fun hx he => ?_, fun hx he hp => ?_, fun hx he hl hlow => ?_, fun hx he hl hlow => ?_,
      fun hx he hp hl => ?_⟩ <;> rw [if_neg (Bool.eq_false_iff.mp hx)]
    · rw [if_pos (early_iff.mpr he)]
    · rw [if_neg (mt early_iff.mp he), if_pos (proves_iff.mpr hp)]
    · rw [if_neg (mt early_iff.mp he), if_neg (loading hl), if_pos (loads_iff.mpr hl), if_pos (lower_iff.mpr hlow)]
    · rw [if_neg (mt early_iff.mp he), if_neg (loading hl), if_pos (loads_iff.mpr hl), if_neg (mt lower_iff.mp hlow)]
    · rw [if_neg (mt early_iff.mp he), if_neg (mt proves_iff.mp hp), if_neg (mt loads_iff.mp hl)]
  · intro own gone left k unit
    have entry : k = _ := rebuildEntry_eq ack proofs
    exact ⟨rfl, rfl, rfl, rfl, congrArg Consignment.remaining entry, rfl, rfl, congrArg Consignment.state entry,
      rebuildEntry_unproved, fun x more => rebuildEntry_proved⟩
  · intro p hs clock x q r mem u
    have written : x.mem.writeAll r.directWrites = mem := r.writeAll_directWrites x.mem
    have mounted := Part.mountStore_eq s.mem p
    rw [htime, Option.getD_some, ← State.mount_guarded hmode] at mounted
    obtain ⟨⟨body, part⟩, memory⟩ := mounted
    replace part : s.mount.part = u.mountLeaves body := by
      rw [part]
      exact congrArg (fun m => (r.clearDirect.recoverRoute m).1.mountLeaves body) written
    have queue : u.queue = p.queue :=
      (Part.recoverRoute_queue mem r.clearDirect).trans (Part.completeNewest_storeOnly hs x.mem q).queue
    have granted := Part.grantPort_grantOnly s.mount.part
    rw [part] at granted
    obtain ⟨ended, store, route, cons, clock_, joins⟩ := u.mountLeaves_fields body
    refine ⟨_, State.mountEnd_next hp hmount hw, memory.trans written, rfl, ?_⟩
    dsimp only
    rw [part, granted.backup, granted.store, granted.route, granted.cons, granted.clock, granted.attention, granted.queue, store]
    exact ⟨ended, rfl, route, cons, clock_, u.mountLeaves_pending body, u.mountLeaves_storeLow body, body,
      joins.trans (congrArg (· ++ _) queue)⟩

end Sys2Proof.Machine

/-! # Proofs: CLAIM OPEN, CLAIM READ and CLAIM CLOSE (R70, R163, R176, R177) -/

namespace Sys2Proof.Machine

/-! ## Entries of the claim table -/

theorem Part.claim_of_getElem? {p : Part} {i : Nat} {c : Claim} (h : p.claims[i]? = some c) : p.claim i = c :=
  List.getD_eq_getElem?_getD.trans (by rw [h]; rfl)

theorem Part.modClaim_eq_set {p : Part} {i : Nat} {c : Claim} (h : p.claims[i]? = some c) (f : Claim → Claim) :
    p.modClaim i f = { p with claims := p.claims.set i (f c) } := by
  unfold Part.modClaim
  rw [modify_eq_set_getD _ _ _ Claim.free, show p.claims.getD i Claim.free = c from Part.claim_of_getElem? h]

theorem Claim.inUse_iff (c : Claim) : c.inUse = true ↔ c.state ≠ .closed := bne_iff_ne

section
variable {p : Part} {w : Word} {c : Claim}

theorem Part.claimIndex_none (h : 8 ≤ w.toNat ∨ (p.claims[w.toNat]? = some c ∧ c.state = .closed)) :
    p.claimIndex w = none := by
  refine if_neg fun ⟨hlt, hu⟩ => ?_
  rcases h with h | ⟨hc, hclosed⟩
  · omega
  · rw [Part.claim_of_getElem? hc, Claim.inUse_iff] at hu
    exact hu hclosed

theorem Part.claimIndex_some (hw : w.toNat < 8) (hc : p.claims[w.toNat]? = some c) (hu : c.state ≠ .closed) :
    p.claimIndex w = some w.toNat :=
  if_pos ⟨hw, by rwa [Part.claim_of_getElem? hc, Claim.inUse_iff]⟩

end

/-! ## CLAIM READ (R176) -/

theorem Part.cmdClaimRead_none {p : Part} {w : Word} (h : p.claimIndex w = none) :
    p.cmdClaimRead w = p.refuseCommand .badParameter := by
  unfold Part.cmdClaimRead
  rw [h]

theorem Part.cmdClaimRead_some {p : Part} {w : Word} {c : Claim} (hw : w.toNat < 8) (hc : p.claims[w.toNat]? = some c)
    (hu : c.state ≠ .closed) : p.cmdClaimRead w = p.done c.readWords := by
  unfold Part.cmdClaimRead
  rw [Part.claimIndex_some hw hc hu]
  dsimp only
  rw [Part.claim_of_getElem? hc]

theorem Claim.readWords_unready {c : Claim} (h : c.state ≠ .ready) : c.readWords = [c.state.code] := if_neg h

/-- Words 11 to 15 of a READY claim's answer: the first mismatch. -/
def Mismatch.words : Option Mismatch → List Word
  | some m => [m.stream.code, wordOf m.seg, wordOf m.slot] ++ dwords? m.seq
  | none => List.replicate 5 blank

theorem Mismatch.words_eq (o : Option Mismatch) :
    [(o.map (fun m => m.stream.code)).getD blank, (o.map (fun m => wordOf m.seg)).getD blank,
        (o.map (fun m => wordOf m.slot)).getD blank] ++ dwords? (o.bind (fun m => m.seq)) = Mismatch.words o := by
  cases o <;> rfl

theorem Claim.readWords_ready {c : Claim} (h : c.state = .ready) :
    c.readWords = [3] ++ dwords? c.id ++ [(c.comp.map wordOf).getD blank] ++ words32? c.windowStart ++ words32? c.windowEnd
      ++ [(c.integrity.map Integrity.code).getD blank, c.flagsWord] ++ Mismatch.words c.mismatch
      ++ [wordOf (c.proofs.getD 0), wordOf (c.samples.getD 0), wordOf (c.gapMinutes.getD 0), wordOf c.held.length] := by
  unfold Claim.readWords
  rw [if_pos h, ← Mismatch.words_eq, h]
  simp only [List.append_assoc, List.cons_append, List.nil_append]
  rfl

/-- Settles O35: the index's test, then the claim's state. -/
theorem claimReadReturnsTheFindings : Obligations.ClaimReadReturnsTheFindings := by
  intro a w s c hs hm findings
  let t := s.part.taken a .claimRead [w] s.part.pins.dock
  have completes {q : Part} (hq : t.cmdClaimRead w = q) (hr : q.atRest = true) :
      exec (.claimRead a w) s = .next { s with part := q } := State.store_completes ⟨hs, hm⟩ rfl (by simp) rfl hq hr
  have rest (st : CmdState) (o : CmdOutcome) (rs : List Word) :=
    Part.atRest_presents a .claimRead [w] st o rs hs.1.2.2
  have reads (hw : w.toNat < 8) (hc : s.part.claims[w.toNat]? = some c) (hu : c.state ≠ .closed) :
      exec (.claimRead a w) s = .next { s with part := s.part.answered a .claimRead [w] c.readWords } :=
    completes (Part.cmdClaimRead_some (p := t) hw hc hu) (rest _ _ _)
  refine ⟨fun h => completes (Part.cmdClaimRead_none (p := t) (Part.claimIndex_none h)) (rest _ _ _),
    fun hw hc hq => ?_, fun hw hc hv => ?_, fun hw hc hr => ?_⟩
  · rw [reads hw hc (by rw [hq]; decide), Claim.readWords_unready (by rw [hq]; decide), hq]
    rfl
  · rw [reads hw hc (by rw [hv]; decide), Claim.readWords_unready (by rw [hv]; decide), hv]
    rfl
  · have words : c.readWords = findings := by
      have comp : (c.comp.map wordOf).getD blank = match c.comp with | some n => wordOf n | none => blank := by
        cases c.comp <;> rfl
      have integrity : (c.integrity.map Integrity.code).getD blank = match c.integrity with | some g => g.code | none => blank := by
        cases c.integrity <;> rfl
      rw [Claim.readWords_ready hr, comp, integrity]
      rfl
    rw [reads hw hc (by rw [hr]; decide), words]

/-! ## CLAIM OPEN (R163) -/

theorem Part.freeClaimSlot_none {p : Part} (h8 : p.claims.length = 8) (h : p.claims.all Claim.inUse = true) :
    p.freeClaimSlot = none := by
  refine List.find?_eq_none.mpr fun i hi => ?_
  have hlt : i < p.claims.length := h8 ▸ List.mem_range.mp hi
  have used := List.all_eq_true.mp h _ (List.getElem_mem hlt)
  rw [Part.claim_of_getElem? (List.getElem?_eq_getElem hlt), used]
  simp

theorem Part.freeClaimSlot_lowest {p : Part} {i : Nat} {c : Claim} (hi : i < 8) (hc : p.claims[i]? = some c)
    (hu : c.inUse = false) (hbelow : (p.claims.take i).all Claim.inUse = true) : p.freeClaimSlot = some i := by
  obtain ⟨hlt, -⟩ := List.getElem?_eq_some_iff.mp hc
  refine List.find?_range_eq_some.mpr ⟨?_, List.mem_range.mpr hi, fun k hk => ?_⟩
  · rw [Part.claim_of_getElem? hc, hu]
    rfl
  · have used := List.all_eq_true.mp hbelow _ (List.mem_take_iff_getElem.mpr ⟨k, by omega, rfl⟩)
    rw [Part.claim_of_getElem? (List.getElem?_eq_getElem (by omega)), used]
    rfl

section
variable {p : Part} {id : DWord}

theorem Part.cmdClaimOpen_zero (h : id = 0) : p.cmdClaimOpen id = p.refuseCommand .badParameter := if_pos h

theorem Part.cmdClaimOpen_named (hid : id ≠ 0) (h : p.claimNamed id = true) :
    p.cmdClaimOpen id = p.refuseCommand .already := (if_neg hid).trans (if_pos h)

theorem Part.cmdClaimOpen_full (hid : id ≠ 0) (hn : p.claimNamed id = false) (h : p.freeClaimSlot = none) :
    p.cmdClaimOpen id = p.refuseCommand .tableFull := by
  unfold Part.cmdClaimOpen
  rw [if_neg hid, if_neg (Bool.eq_false_iff.mp hn), h]

/-- The lowest free entry is QUEUED, and what waits for the slots may start. -/
theorem Part.cmdClaimOpen_opens {i : Nat} {c : Claim} (hid : id ≠ 0) (hn : p.claimNamed id = false)
    (h : p.freeClaimSlot = some i) (hc : p.claims[i]? = some c) :
    p.cmdClaimOpen id = Part.slotsChanged false { p.done [wordOf i] with
      claimQueue := p.claimQueue ++ [i]
      claims := p.claims.set i { Claim.free with state := .queued, id := some id } } := by
  unfold Part.cmdClaimOpen
  rw [if_neg hid, if_neg (Bool.eq_false_iff.mp hn), h]
  dsimp only
  rw [Part.modClaim_eq_set (p := { p with claimQueue := p.claimQueue ++ [i] }) hc]
  exact Part.slotsChanged_conclude _ _ _ _ _

end

/-! ## CLAIM CLOSE (R177) -/

/-- A claim's holds are released and its entry freed. -/
theorem Part.freeClaim_eq {p : Part} {i : Nat} {c : Claim} (hc : p.claims[i]? = some c) : p.freeClaim i = { p with
    store := { p.store with segs := p.store.segs.mapIdx (SegEntry.unheld c.held) }
    claims := p.claims.set i Claim.free } := by
  let released : Part := { p with store := { p.store with segs := p.store.segs.mapIdx (SegEntry.unheld c.held) } }
  unfold Part.freeClaim
  rw [Part.claim_of_getElem? hc, Part.releaseHolds_eq]
  exact Part.modClaim_eq_set (p := released) hc _

/-- The arbiter looks at no holds, and at no claim but the one a VERIFY runs for. -/
theorem Part.atRest_unheld (p : Part) (held : List Nat) (claims : List Claim) (claimQueue : List Nat) :
    ({ p with store := { p.store with segs := p.store.segs.mapIdx (SegEntry.unheld held) }
              claims := claims, claimQueue := claimQueue } : Part).atRest = p.atRest := by
  let q : Part := { p with store := { p.store with segs := p.store.segs.mapIdx (SegEntry.unheld held) }
                           claims := claims, claimQueue := claimQueue }
  have owes : q.owedRewrite = none ↔ p.owedRewrite = none := by
    rw [Part.owedRewrite_eq_none, Part.owedRewrite_eq_none]
    refine forall_congr' fun k => ?_
    have entry : q.store.segs[k]? = p.store.segs[k]?.map (SegEntry.unheld held k) := List.getElem?_mapIdx
    rw [entry]
    cases p.store.segs[k]? <;> simp [SegEntry.unheld]
  have rewrite_ : q.owedRewrite.isSome = p.owedRewrite.isSome := by
    rw [Bool.eq_iff_iff, Option.isSome_iff_ne_none, Option.isSome_iff_ne_none, not_iff_not]
    exact owes
  have waiting : q.req2Waiting = p.req2Waiting := by
    unfold Part.req2Waiting
    rw [rewrite_]
    rfl
  show q.atRest = p.atRest
  unfold Part.atRest
  rw [waiting]
  rfl

theorem Part.cmdClaimClose_none {p : Part} {w : Word} (h : p.claimIndex w = none) :
    p.cmdClaimClose w = p.refuseCommand .badParameter := by
  unfold Part.cmdClaimClose
  rw [h]

section
variable {p : Part} {w : Word} {c : Claim} (hw : w.toNat < 8) (hc : p.claims[w.toNat]? = some c) (hu : c.state ≠ .closed)
include hw hc hu

/-- A claim that no VERIFY is at work on. -/
theorem Part.cmdClaimClose_other (hv : p.verifies w.toNat = false) : p.cmdClaimClose w = { p.done [] with
    store := { p.store with segs := p.store.segs.mapIdx (SegEntry.unheld c.held) }
    claims := p.claims.set w.toNat Claim.free
    claimQueue := p.claimQueue.filter (· != w.toNat) } := by
  unfold Part.cmdClaimClose
  rw [Part.claimIndex_some hw hc hu]
  dsimp only
  rw [if_neg (Bool.eq_false_iff.mp hv),
    Part.freeClaim_eq (p := { p with claimQueue := p.claimQueue.filter (· != w.toNat) }) hc]
  rfl

theorem Part.cmdClaimClose_waits (hv : p.verifies w.toNat = true) (hr : p.verifyRunning = true)
    (hb : p.arb.burst = some .longOperation) : p.cmdClaimClose w = p.startRunning (.claimClose w.toNat) := by
  unfold Part.cmdClaimClose
  rw [Part.claimIndex_some hw hc hu]
  dsimp only
  rw [if_pos hv, if_pos (by simp [hr, p.inLongBurst_iff.mpr hb])]

theorem Part.cmdClaimClose_ends (hv : p.verifies w.toNat = true)
    (hb : p.verifyRunning = false ∨ p.arb.burst ≠ some .longOperation) :
    p.cmdClaimClose w = Part.slotsChanged p.verifyRunning { p.done [] with
      verify := none, attention := p.attention ||| causeOpDone
      store := { p.store with segs := p.store.segs.mapIdx (SegEntry.unheld c.held) }
      claims := p.claims.set w.toNat Claim.free } := by
  obtain ⟨v, hverify⟩ : ∃ v, p.verify = some v := Option.isSome_iff_exists.mp (by
    unfold Part.verifies at hv
    split at hv <;> simp_all)
  have now : ¬ (p.verifyRunning && p.inLongBurst) = true := by
    rw [Bool.and_eq_true, p.inLongBurst_iff]
    rcases hb with hb | hb
    · simp [hb]
    · exact fun h => hb h.2
  unfold Part.cmdClaimClose
  rw [Part.claimIndex_some hw hc hu]
  dsimp only
  rw [if_pos hv, if_neg now, Part.closeVerify_eq hverify hc, Part.verifyRunning_some hverify]
  exact Part.slotsChanged_conclude _ _ _ _ _

end

/-- Settles O34: the tests of R70 in order, then R163 and R177. -/
theorem claimsAreOpenedAndClosed : Obligations.ClaimsAreOpenedAndClosed := by
  refine ⟨?_, ?_⟩
  · intro a lo hi i c s hs p id used named
    let t := p.taken a .claimOpen [lo, hi] p.pins.dock
    have grants {q : Part} (hq : t.cmdClaimOpen id = q) :
        exec (.claimOpen a lo hi) s = .next { s with part := q.grantPort } := State.store_carries hs rfl (by simp) rfl hq
    have refuses {o : CmdOutcome} (hq : t.cmdClaimOpen id = t.refuseCommand o) :
        exec (.claimOpen a lo hi) s = .next { s with part := p.refusedWith a .claimOpen [lo, hi] o } :=
      State.store_completes hs rfl (by simp) rfl hq (Part.atRest_presents _ _ _ _ _ _ hs.1.1.2.2)
    exact ⟨fun h => refuses (Part.cmdClaimOpen_zero h), fun h hn => refuses (Part.cmdClaimOpen_named h hn),
      fun h hn h8 hall => refuses (Part.cmdClaimOpen_full h hn (Part.freeClaimSlot_none (p := t) h8 hall)),
      fun h hn hi hc hu hbelow => grants (Part.cmdClaimOpen_opens (p := t) h hn
        (Part.freeClaimSlot_lowest (p := t) hi hc hu hbelow) hc)⟩
  · intro a w c s hs p i mine released freed
    let t := p.taken a .claimClose [w] p.pins.dock
    have completes {q : Part} (hq : t.cmdClaimClose w = q) (hr : q.atRest = true) :
        exec (.claimClose a w) s = .next { s with part := q } := State.store_completes hs rfl (by simp) rfl hq hr
    have grants {q : Part} (hq : t.cmdClaimClose w = q) :
        exec (.claimClose a w) s = .next { s with part := q.grantPort } := State.store_carries hs rfl (by simp) rfl hq
    have rest (st : CmdState) (o : CmdOutcome) :=
      Part.atRest_presents a .claimClose [w] st o [] hs.1.1.2.2
    have mine_eq : mine = t.verifies i := rfl
    refine ⟨fun h => completes (Part.cmdClaimClose_none (p := t) (Part.claimIndex_none h)) (rest _ _),
      fun hi hc hu hm => completes (Part.cmdClaimClose_other (p := t) hi hc hu (mine_eq ▸ hm)) ?_,
      fun hi hc hu hm hr hb => ?_,
      fun hi hc hu hm hb => grants (Part.cmdClaimClose_ends (p := t) hi hc hu (mine_eq ▸ hm) hb)⟩
    · exact (Part.atRest_unheld (p.answered a .claimClose [w] []) _ _ _).trans (rest _ _)
    · have waits := grants (Part.cmdClaimClose_waits (p := t) hi hc hu (mine_eq ▸ hm) hr hb)
      rwa [Part.grantPort_startRunning (p := t) hb] at waits

end Sys2Proof.Machine

/-! # Proofs: a VERIFY's burst, and a segment faulted by a check (R12, R157, R165, R172, R178, R191) -/

namespace Sys2Proof.Machine

/-- A VERIFY passes its CHECK phase where it has no segment left to check and is not suspended, and nowhere else (R165; log 54). -/
theorem Part.passCheck_stays {p : Part} {v : Verify} (hv : p.verify = some v)
    (h : v.phase ≠ .check ∨ v.todo ≠ [] ∨ v.suspended = true) : p.passCheck = p := by
  refine Part.passCheck_eq fun w hw hphase htodo => ?_
  cases hv.symm.trans hw
  exact (h.resolve_left (not_not.mpr hphase)).resolve_left (not_not.mpr htodo)

/-- A burst of the running VERIFY that no command waits for. -/
theorem State.verify_next {s : State} {v : Verify} {n k : Nat} {q : Part} (hs : s.Quiet) (hrun : s.part.chan.running = none)
    (hb : s.part.arb.burst = some .longOperation) (hv : s.part.verify = some v) (hr : v.suspended = false)
    (ha : v.readAt = (n, k)) (hq : s.part.endBurst.verifySlot v (s.mem.slot n k) = q) (hc : q.chan = s.part.chan) :
    exec .verifyBurst s = .next { s with part := q.passCheck.grantPort } :=
  State.verify_row hs hb hv hr ha (by rw [hq, Part.afterLongBurst_idle (hc ▸ hrun)])

/-! ## The segment is faulted -/

/-- A segment that was OPEN leaves its stream; one that was CLOSED stays as it is but for its state (R12). -/
theorem Part.faultSegment_eq {p : Part} {n : Nat} {e : SegEntry} {st : Stream} (h1 : 1 ≤ n)
    (he : p.store.segs[n - 1]? = some e) (hst : e.stream = some st) (ho : e.state = .opened ∨ e.state = .closed) :
    let own := p.store.streams.get st
    let building := match p.asm with | some a => a.seg == n | none => false
    let wasOpen := e.state == .opened
    p.faultSegment n = { p with store := { p.store with
      segs := p.store.segs.modify (n - 1) (fun g =>
        if wasOpen then { g with state := .faulted, closeTime := some p.clock.now, owed := .faulted
                                 exitChain := if building then none else some own.running }
        else { g with state := .faulted, owed := .faulted })
      streams := if wasOpen then p.store.streams.set st { own with openSeg := none, append := none } else p.store.streams } } := by
  intro own building wasOpen
  unfold Part.faultSegment
  rw [Part.seg_pos h1, he]
  dsimp only
  rcases ho with h | h
  · have opened : wasOpen = true := by simp [wasOpen, h]
    simp only [h, hst, opened, if_true, Part.modSeg_pos h1]
    rfl
  · have closed : wasOpen = false := by simp [wasOpen, h]
    simp only [h, closed, Bool.false_eq_true, if_false, Part.modSeg_pos h1]

/-- What `addFault` does is what `Part.faultReported` says (R27, R112). -/
theorem Part.addFault_eq_faultReported (body : List Word) (p : Part) : p.addFault body = p.faultReported body := by
  have withheld : Part.mapLoaded (fun _ => true) (fun k => { k with flags := { k.flags with eventsWithheld := true } })
        { p with ctxs := p.ctxs.map (fun x =>
          if x.thermal = .idle then x else { x with withheld := sat8 (x.withheld + 1), summaryOwed := true }) }
      = { p with
        ctxs := p.ctxs.map (fun x =>
          if x.thermal = .idle then x else { x with withheld := min 255 (x.withheld + 1), summaryOwed := true })
        cons := p.cons.map (fun o => o.map (fun k =>
          if k.state = .loaded then { k with flags := { k.flags with eventsWithheld := true } } else k)) } := by
    simp only [Part.mapLoaded, Bool.and_true, Consignment.isLoaded_iff, sat8_eq_min]
  unfold Part.addFault Part.faultReported
  rw [Part.addRecord_eq_joined]
  exact if_congr p.one_le_freeEntries rfl withheld

theorem Part.faultReported_verify (body : List Word) (o : Option Verify) (p : Part) :
    Part.faultReported { p with verify := o } body = { p.faultReported body with verify := o } := by
  unfold Part.faultReported
  split <;> rfl

theorem Part.faultReported_only (body : List Word) (p : Part) : Part.EvidenceOnly p (p.faultReported body) :=
  Part.addFault_eq_faultReported body p ▸ Part.addFault_only body p

/-- The consignments that a fault of a segment concerns (R157). -/
theorem Part.evidenceFault_eq {p : Part} {n closeTime : Nat} {e : SegEntry} {st : Stream} (he : p.seg n = some e)
    (hst : e.stream = some st) (ht : e.closeTime.getD p.clock.now = closeTime) : p.evidenceFault n = { p with
      cons := if st = .sample ∨ st = .event then p.cons.map (fun o => o.map (fun g =>
          if g.state = .loaded ∧ g.loadTime ≤ closeTime ∧ p.compEnabled g.comp = true then
            { g with flags := { g.flags with evidenceFault := true } } else g))
        else p.cons } := by
  have stream : (e.stream = some .sample ∨ e.stream = some .event) ↔ (st = .sample ∨ st = .event) := by
    rw [hst, Option.some_inj, Option.some_inj]
  unfold Part.evidenceFault
  rw [he]
  dsimp only
  by_cases h : st = .sample ∨ st = .event
  · rw [if_pos (stream.mpr h), if_pos h, ht]
    simp only [Part.mapLoaded, Bool.and_eq_true, decide_eq_true_eq, Consignment.isLoaded_iff]
  · rw [if_neg (mt stream.mp h), if_neg h]

/-- What a fault of segment `n`, open until `closeTime`, raises and marks when the segment is faulted and reported (R157, R172,
R178): EVIDENCE_FAULT, the LOADED consignments that `enabled` admits, and the claims whose findings a VERIFY at `o` has fixed. -/
def Part.faultTold (n closeTime : Nat) (st : Stream) (enabled : Nat → Bool) (o : Option Verify) (q : Part) : Part :=
  { q with
    attention := q.attention ||| causeEvidenceFault
    cons := if st = .sample ∨ st = .event then q.cons.map (fun o => o.map (fun g =>
        if g.state = .loaded ∧ g.loadTime ≤ closeTime ∧ enabled g.comp = true then
          { g with flags := { g.flags with evidenceFault := true } } else g))
      else q.cons
    claims := q.claims.mapIdx (fun i c =>
      if c.held.contains n && (c.state == .ready || (c.state == .verifying && (match o with
          | some v => v.claim == i && v.phase == .write
          | none => false)))
      then { c with laterFault := true } else c) }

theorem Part.laterFault_evidenceFault {q : Part} {n closeTime : Nat} {e : SegEntry} {st : Stream} (he : q.seg n = some e)
    (hst : e.stream = some st) (ht : e.closeTime.getD q.clock.now = closeTime) :
    ((q.raise causeEvidenceFault).evidenceFault n).laterFault n = q.faultTold n closeTime st q.compEnabled q.verify := by
  rw [Part.evidenceFault_eq (p := q.raise causeEvidenceFault) he hst ht]
  rfl

section
variable {p : Part} {n : Nat} {e : SegEntry} {st : Stream} (h1 : 1 ≤ n) (he : p.store.segs[n - 1]? = some e)
  (hst : e.stream = some st) (ho : e.state = .opened ∨ e.state = .closed)
include h1 he hst ho

/-- The segment, its report, and what is told of it. -/
theorem Part.faultFound_eq (body : List Word) : p.faultFound n e st body =
    Part.faultTold n (if e.state == .opened then p.clock.now else e.closeTime.getD p.clock.now) st p.compEnabled p.verify
      ((p.faultSegment n).faultReported body) := by
  rw [Part.faultSegment_eq h1 he hst ho]
  rfl

/-- The faulted segment's entry: its stream, and when it was last open. -/
theorem Part.faultSegment_seg : ∃ g, (p.faultSegment n).seg n = some g ∧ g.stream = some st
    ∧ g.closeTime.getD p.clock.now = if e.state == .opened then p.clock.now else e.closeTime.getD p.clock.now := by
  rw [Part.seg_pos h1, Part.faultSegment_eq h1 he hst ho]
  simp only [List.getElem?_modify_eq, he]
  refine ⟨_, rfl, ?_, ?_⟩
  · split
    · exact hst
    · exact hst
  · split <;> rfl

/-- The steps of R172 and R191 for a segment OPEN or CLOSED. -/
theorem Part.checkFault_faults (s : Nat) (seq : Option DWord) (cause claim : Word) :
    p.checkFault n s seq cause claim
      = p.faultFound n e st ([wordOf n, st.code, wordOf s] ++ dwords? seq ++ [cause, claim]) := by
  let q : Part := (p.faultSegment n).faultReported ([wordOf n, st.code, wordOf s] ++ dwords? seq ++ [cause, claim])
  have faults : p.checkFault n s seq cause claim = ((q.raise causeEvidenceFault).evidenceFault n).laterFault n := by
    unfold Part.checkFault
    rw [Part.seg_pos h1, he]
    dsimp only
    rw [if_pos ho, hst, Part.addFault_eq_faultReported]
    rfl
  have frame : Part.EvidenceOnly (p.faultSegment n) q := Part.faultReported_only _ _
  have segment := Part.faultSegment_eq h1 he hst ho
  have clock : q.clock = p.clock := frame.clock.trans (by rw [segment])
  have verify : q.verify = p.verify := frame.verify.trans (by rw [segment])
  have enabled : q.compEnabled = p.compEnabled := by
    have route : q.route = p.route := frame.route.trans (by rw [segment])
    funext c
    unfold Part.compEnabled Part.sheet
    rw [route]
  obtain ⟨g, hg, hgst, hgt⟩ := Part.faultSegment_seg h1 he hst ho
  have entry : q.seg n = some g := by
    rw [← hg, Part.seg_pos h1, Part.seg_pos h1, frame.store]
  have closed : g.closeTime.getD q.clock.now = _ := (congrArg (fun c => g.closeTime.getD c.now) clock).trans hgt
  rw [faults, Part.laterFault_evidenceFault entry hgst closed, enabled, verify]
  exact (Part.faultFound_eq h1 he hst ho _).symm

/-- The fault of a segment looks at the VERIFY for its WRITE phase alone. -/
theorem Part.faultFound_verify {v w : Verify} (hv : p.verify = some v) (hvp : v.phase ≠ .write) (hwp : w.phase ≠ .write)
    (body : List Word) :
    { p.faultFound n e st body with verify := some w } = Part.faultFound { p with verify := some w } n e st body := by
  let q : Part := { p with verify := some w }
  have told (t : Nat) (on : Nat → Bool) (r : Part) :
      r.faultTold n t st on (some v) = r.faultTold n t st on (some w) := by
    unfold Part.faultTold
    simp only [beq_eq_false_iff_ne.mpr hvp, beq_eq_false_iff_ne.mpr hwp, Bool.and_false]
  have segment : q.faultSegment n = { p.faultSegment n with verify := some w } := by
    rw [Part.faultSegment_eq h1 he hst ho, Part.faultSegment_eq (p := q) h1 he hst ho]
  have found := Part.faultFound_eq (p := q) h1 he hst ho body
  rw [segment, Part.faultReported_verify] at found
  rw [Part.faultFound_eq h1 he hst ho, hv, told]
  exact found.symm

end

theorem Part.faultFound_chan (p : Part) (n : Nat) (e : SegEntry) (st : Stream) (body : List Word) :
    (p.faultFound n e st body).chan = p.chan := (Part.faultReported_only body _).chan

theorem Part.faultFound_verifies (p : Part) (n : Nat) (e : SegEntry) (st : Stream) (body : List Word) :
    (p.faultFound n e st body).verify = p.verify := (Part.faultReported_only body _).verify

theorem Part.checkFault_faulted {p : Part} {n : Nat} {e : SegEntry} (he : p.seg n = some e) (hf : e.state = .faulted)
    (s : Nat) (seq : Option DWord) (cause claim : Word) : p.checkFault n s seq cause claim = p := by
  unfold Part.checkFault
  rw [he]
  dsimp only
  rw [hf]
  rfl

end Sys2Proof.Machine

/-! # Proofs: the start of a VERIFY, its CHECK phase and its extract (R164, R165, R171, R172, R174, R178) -/

namespace Sys2Proof.Machine

/-! ## The comparison of a slot (R171) -/

/-- Slot 0 agrees with the segment table, a later slot with its kind and its chain. -/
def ChainCheck.agrees (c : ChainCheck) (e : SegEntry) (ws : List Word) : Bool :=
  if c.slot = 0 then headerAgrees e ws else slotAgrees e c.chain ws

section
variable {c : ChainCheck} {e : SegEntry} {ws : List Word} {l : Nat} (hl : c.limit = some l)
include hl

theorem ChainCheck.fix_fixed (e : SegEntry) : c.fix e = c := by
  unfold ChainCheck.fix
  rw [hl]

theorem ChainCheck.advance_more (ha : c.agrees e ws = true) (hlt : c.slot < l) :
    c.advance e ws = .more { c with slot := c.slot + 1, chain := recordChainField ws } := by
  unfold ChainCheck.advance
  rw [hl]
  exact (if_neg (by simpa [ChainCheck.agrees] using ha)).trans (if_pos hlt)

/-- The record at the limit, where its chain meets the exit chain. -/
theorem ChainCheck.advance_passed (ha : c.agrees e ws = true) (hle : l ≤ c.slot)
    (hx : c.exit = none ∨ c.exit = some (recordChainField ws)) : c.advance e ws = .passed := by
  unfold ChainCheck.advance
  rw [hl]
  refine (if_neg (by simpa [ChainCheck.agrees] using ha)).trans ((if_neg (Nat.not_lt.mpr hle)).trans ?_)
  rcases hx with hx | hx <;> simp [hx]

theorem ChainCheck.advance_mismatch (h : c.agrees e ws = false
      ∨ (l ≤ c.slot ∧ c.exit ≠ none ∧ c.exit ≠ some (recordChainField ws))) :
    ∃ exit, c.advance e ws = .mismatch exit := by
  unfold ChainCheck.advance
  by_cases ha : c.agrees e ws = true
  · obtain ⟨hle, hnone, hsome⟩ := h.resolve_left (by simp [ha])
    obtain ⟨x, hx⟩ := Option.ne_none_iff_exists'.mp hnone
    refine ⟨true, (if_neg (by simpa [ChainCheck.agrees] using ha)).trans ((if_neg (by simpa [hl] using hle)).trans ?_)⟩
    rw [hx]
    exact if_neg fun heq => hsome (hx.trans (congrArg some heq))
  · exact ⟨false, if_pos (by simpa [ChainCheck.agrees] using ha)⟩

end

/-- Slot 0's comparison: the stream's code, the three numbers of the entry, and the chain from the entry chain. -/
theorem headerAgrees_eq {e : SegEntry} {st : Stream} (hst : e.stream = some st) (ws : List Word) : headerAgrees e ws =
    (wordAt ws 0 == Kind.header.headerWord && wordAt ws 2 == st.code && e.segSeq == some (wordAt ws 3)
      && e.firstRec == some (dwordAt ws 4) && e.entryChain == some (dwordAt ws 6)
      && recordChain (dwordAt ws 6) ws == recordChainField ws) := by
  unfold headerAgrees
  rw [hst, Option.map_some, Option.some_beq_some, BEq.comm (a := st.code)]
  by_cases hx : e.entryChain = some (dwordAt ws 6)
  · rw [hx, Option.getD_some]
  · simp only [beq_eq_false_iff_ne.mpr hx, Bool.and_false, Bool.false_and]

theorem slotAgrees_eq {e : SegEntry} {st : Stream} (hst : e.stream = some st) (seed : DWord) (ws : List Word) :
    slotAgrees e seed ws = ((match Kind.ofHeader (wordAt ws 0) with | some k => st.carries k | none => false)
      && recordChain seed ws == recordChainField ws) := by
  unfold slotAgrees
  rw [hst]
  cases Kind.ofHeader (wordAt ws 0) <;> rfl

/-! ## A burst of the CHECK phase -/

/-- The VERIFY when a segment's check has ended, its slots to be read up to `last`, and segment `m` is the next to check. -/
def Verify.checkedTo (v : Verify) (last m : Nat) (todo : List Nat) : Verify :=
  { v with todo := m :: todo, checked := v.checked ++ [(v.check.seg, last)], count := v.count + 1, check := .start m }

theorem Part.checkEnded_next {p : Part} {v : Verify} {n m : Nat} {todo : List Nat} (ht : v.todo = n :: m :: todo) (last : Nat) :
    p.checkEnded v last = { p with verify := some (v.checkedTo last m todo) } := by
  unfold Part.checkEnded Part.checkNext
  rw [ht]
  rfl

theorem Part.collectNext_reads {p : Part} {v : Verify} (h : v.collect.todo ≠ []) :
    p.collectNext v = { p with verify := some v } := by
  unfold Part.collectNext
  split
  next h' => exact absurd h' h
  next => rfl

/-- After the last held segment the COLLECT phase begins, where a slot is left to read (R173). -/
theorem Part.checkEnded_collects {p : Part} {v : Verify} {n : Nat} (ht : v.todo = [n]) (last : Nat)
    (hc : (v.checked ++ [(v.check.seg, last)]).filter (fun x => x.2 != 0) ≠ []) :
    p.checkEnded v last = { p with verify := some { v with
      phase := .collect, todo := [], checked := v.checked ++ [(v.check.seg, last)], count := 0
      collect := { Collect.start with todo := (v.checked ++ [(v.check.seg, last)]).filter (fun x => x.2 != 0) } } } := by
  unfold Part.checkEnded Part.checkNext
  rw [ht]
  exact Part.collectNext_reads hc

section
variable {p : Part} {v : Verify} {e : SegEntry} {l : Nat} {ws : List Word} (he : p.seg v.check.seg = some e)
  (hl : v.check.limit = some l)
include he hl

theorem Part.checkSlot_more (ha : v.check.agrees e ws = true) (hlt : v.check.slot < l) :
    p.checkSlot v ws = { p with verify := some { v with
      check := { v.check with slot := v.check.slot + 1, chain := recordChainField ws } } } := by
  unfold Part.checkSlot
  rw [he]
  dsimp only
  rw [ChainCheck.fix_fixed hl, ChainCheck.advance_more hl ha hlt]

theorem Part.checkSlot_passed (ha : v.check.agrees e ws = true) (hle : l ≤ v.check.slot)
    (hx : v.check.exit = none ∨ v.check.exit = some (recordChainField ws)) :
    p.checkSlot v ws = p.checkEnded v v.check.slot := by
  unfold Part.checkSlot
  rw [he]
  dsimp only
  rw [ChainCheck.fix_fixed hl, ChainCheck.advance_passed hl ha hle hx]

theorem Part.checkSlot_mismatch (h : v.check.agrees e ws = false
      ∨ (l ≤ v.check.slot ∧ v.check.exit ≠ none ∧ v.check.exit ≠ some (recordChainField ws))) :
    p.checkSlot v ws = p.checkMismatch v e := by
  obtain ⟨exit, hadv⟩ := ChainCheck.advance_mismatch (c := v.check) (e := e) hl h
  unfold Part.checkSlot
  rw [he]
  dsimp only
  rw [ChainCheck.fix_fixed hl, hadv]

end

/-! ## A mismatch (R172) -/

/-- The first mismatch of a claim stays its mismatch. -/
def Claim.mismatched (m : Mismatch) (c : Claim) : Claim := if c.mismatch.isSome then c else { c with mismatch := some m }

/-- The mismatch that a check finds where it stands. -/
def Verify.mismatch (v : Verify) (e : SegEntry) (st : Stream) : Mismatch :=
  { stream := st, seg := v.check.seg, slot := v.check.slot, seq := e.seqOf v.check.slot }

section
variable {p : Part} {v : Verify} {e : SegEntry} {st : Stream} {c : Claim} {m : Nat} {todo : List Nat}
  (hst : e.stream = some st) (hc : p.claims[v.claim]? = some c) (ht : v.todo = v.check.seg :: m :: todo)
include hst hc ht

/-- The claim's mismatch is noted, the segment judged, and the check goes on with the next one. -/
theorem Part.checkMismatch_eq : p.checkMismatch v e = { Part.checkFault v.check.seg v.check.slot (e.seqOf v.check.slot)
      causeVerify (wordOf v.claim) { p with claims := p.claims.set v.claim (c.mismatched (v.mismatch e st)) } with
    verify := some (v.checkedTo (v.check.slot - 1) m todo) } := by
  unfold Part.checkMismatch
  dsimp only
  rw [Part.modClaim_eq_set hc, hst, Part.checkEnded_next ht]
  rfl

variable (h1 : 1 ≤ v.check.seg) (he : p.store.segs[v.check.seg - 1]? = some e)
include h1 he

theorem Part.checkMismatch_faulted (hf : e.state = .faulted) : p.checkMismatch v e = { p with
    claims := p.claims.set v.claim (c.mismatched (v.mismatch e st))
    verify := some (v.checkedTo (v.check.slot - 1) m todo) } := by
  let q : Part := { p with claims := p.claims.set v.claim (c.mismatched (v.mismatch e st)) }
  rw [Part.checkMismatch_eq hst hc ht, Part.checkFault_faulted (p := q) ((Part.seg_pos h1).trans he) hf]

theorem Part.checkMismatch_faults (ho : e.state = .opened ∨ e.state = .closed) (hv : p.verify = some v)
    (hp : v.phase = .check) : p.checkMismatch v e = Part.faultFound { p with
        claims := p.claims.set v.claim (c.mismatched (v.mismatch e st))
        verify := some (v.checkedTo (v.check.slot - 1) m todo) }
      v.check.seg e st ([wordOf v.check.seg, st.code, wordOf v.check.slot] ++ dwords? (e.seqOf v.check.slot)
        ++ [causeVerify, wordOf v.claim]) := by
  let q : Part := { p with claims := p.claims.set v.claim (c.mismatched (v.mismatch e st)) }
  have notWrite : v.phase ≠ .write := by rw [hp]; decide
  rw [Part.checkMismatch_eq hst hc ht, Part.checkFault_faults (p := q) h1 he hst ho]
  exact Part.faultFound_verify (p := q) (w := v.checkedTo (v.check.slot - 1) m todo) h1 he hst ho hv notWrite notWrite _

end

/-! ## The extract (R174) -/

theorem Part.completeVerify_eq {p : Part} {v : Verify} (hv : p.verify = some v) (hs : v.suspended = false) (i : Nat) :
    p.completeVerify i = Part.slotsChanged true { p with
      verify := none, attention := p.attention ||| causeClaimReady ||| causeOpDone
      claims := p.claims.modify i (fun c => { c with state := .ready }) } := by
  let q : Part := (p.modClaim i (fun c => { c with state := .ready })).raise causeClaimReady
  have running : q.verifyRunning = true := (Part.verifyRunning_some (p := q) hv).trans (by rw [hs]; rfl)
  unfold Part.completeVerify Part.emptyVerify
  rw [running]
  rfl

section
variable {p : Part} {v : Verify} {k : Kind} {body : List Word} {rest : List (Kind × List Word)} (hv : p.verify = some v)
  (hp : v.phase = .write) (hs : v.suspended = false) (hq : p.queue.length ≤ 11)
  (hst : p.store.streams.claim.stalled = false)
include hv hp hs hq hst

theorem Part.extractStep_eq : p.extractStep = p.addExtract v := by
  have room : (p.stream .claim).stalled = false := hst
  unfold Part.extractStep
  rw [hv]
  exact if_pos ⟨hp, by simp [hs], p.five_le_freeEntries.mpr hq, by simp [room]⟩

/-- The next extract record joins the queue. -/
theorem Part.extractStep_adds (hx : v.extracts = (k, body) :: rest) (hr : rest ≠ []) : p.extractStep =
    Part.joined { p with verify := some { v with extracts := rest, count := v.count + 1 } } .claim k body := by
  rw [Part.extractStep_eq hv hp hs hq hst]
  unfold Part.addExtract
  rw [hx]
  exact (if_neg (by simpa using hr)).trans (Part.addRecord_eq_joined _ _ _ _)

/-- The last extract record joins the queue, and the claim is READY. -/
theorem Part.extractStep_completes (hx : v.extracts = [(k, body)]) :
    p.extractStep = Part.slotsChanged true (Part.joined { p with
      verify := none
      attention := p.attention ||| causeClaimReady ||| causeOpDone
      claims := p.claims.modify v.claim (fun c => { c with state := .ready }) } .claim k body) := by
  let w : Verify := { v with extracts := [], count := v.count + 1 }
  let q : Part := { p with verify := some w }
  have raised : ((q.joined .claim k body).raise causeClaimReady).raise causeOpDone
      = ((q.raise causeClaimReady).raise causeOpDone).joined .claim k body := by
    rw [Part.raise_joined, Part.raise_joined]
  have added : p.extractStep = (q.joined .claim k body).completeVerify v.claim := by
    rw [Part.extractStep_eq hv hp hs hq hst]
    unfold Part.addExtract
    rw [hx]
    exact congrArg (Part.completeVerify v.claim) (Part.addRecord_eq_joined _ _ _ _)
  rw [added, Part.completeVerify_eq (v := w) rfl hs]
  refine congrArg (Part.slotsChanged true) ?_
  exact congrArg (fun r : Part => { r with
    verify := none, claims := p.claims.modify v.claim (fun c => { c with state := .ready }) }) raised

end

/-- Settles O53: the row VERIFY_START, the results of a slot's comparison, and the two ends of an extract record. -/
theorem verifyChecksAndWritesItsExtract : Obligations.VerifyChecksAndWritesItsExtract := by
  intro v e st c m l todo k body rest s hs hrun p n j read long good exits seq here writes wrong next toCollect goesOn found missed
  have long_eq {i : Nat} (hi : i < 15) : long i = dwordAt (s.mem.slot n j) i :=
    congrArg (BitVec.ofNat 32) (Memory.getD_slot_num hi s.mem n j)
  have field : long 14 = recordChainField (s.mem.slot n j) := long_eq (by decide)
  have agrees (hst : e.stream = some st) : v.check.agrees e (s.mem.slot n j) = good := by
    have word {i : Nat} (hi : i < 16) : read.getD i 0 = wordAt (s.mem.slot n j) i := Memory.getD_slot hi s.mem n j
    unfold ChainCheck.agrees
    rw [headerAgrees_eq hst, slotAgrees_eq hst, ← field, ← word (by decide : 0 < 16), ← word (by decide : 2 < 16),
      ← word (by decide : 3 < 16), ← long_eq (by decide : 4 < 15), ← long_eq (by decide : 6 < 15)]
    rfl
  have exits_iff : exits = true ↔ v.check.exit = none ∨ v.check.exit = some (recordChainField (s.mem.slot n j)) := by
    simp only [exits, field, Bool.or_eq_true, beq_iff_eq]
  have reads {q : Part} (h : here) (hq : p.endBurst.checkSlot v (s.mem.slot n j) = q) (hc : q.chan = p.chan)
      (hpass : q.passCheck = q) : exec .verifyBurst s = .next { s with part := q.grantPort } := by
    obtain ⟨hb, hv, hsus, hphase, -⟩ := h
    have slot : p.endBurst.verifySlot v (s.mem.slot n j) = q := by
      unfold Part.verifySlot
      rw [hphase]
      exact hq
    have row := State.verify_next hs hrun hb hv hsus (n := n) (k := j) (by simp [Verify.readAt, hphase, n, j]) slot hc
    rwa [hpass] at row
  have seq_eq : dwords? (e.seqOf j) = seq := by
    unfold SegEntry.seqOf
    simp only [seq]
    split
    · rfl
    · cases e.firstRec <;> rfl
  have fails (hst : e.stream = some st) (hw : wrong) : v.check.agrees e (s.mem.slot n j) = false
      ∨ (l ≤ j ∧ v.check.exit ≠ none ∧ v.check.exit ≠ some (recordChainField (s.mem.slot n j))) :=
    hw.imp (agrees hst).trans fun ⟨hle, hx⟩ => ⟨hle, not_or.mp (mt exits_iff.mpr (by simp [hx]))⟩
  have starts : exec .verifyStart s = .next { s with part := (p.slotsChanged false).grantPort } :=
    State.partEvent_next (ready := fun _ => true) hs rfl
  refine ⟨starts, fun h hg hlt => ?_, fun h hg hle hx ht => ?_, fun h hg hle hx ht hne => ?_,
    fun h hw ho hc hcv ht => ?_, fun h hw hf hc ht => ?_, fun ⟨hv, hp, hsus, hq, hst⟩ hx hr => ?_,
    fun ⟨hv, hp, hsus, hq, hst⟩ hx => ?_⟩
  · obtain ⟨-, -, -, -, h1, hhead, he, hst, hl⟩ := id h
    have todo_ : v.todo ≠ [] := fun ht => by simp [ht] at hhead
    have moves := Part.checkSlot_more (p := p.endBurst) ((Part.seg_pos h1).trans he) hl ((agrees hst).trans hg) hlt
    rw [← field] at moves
    exact reads h moves rfl (Part.passCheck_stays rfl (.inr (.inl todo_)))
  · obtain ⟨-, -, -, -, h1, -, he, hst, hl⟩ := id h
    have passes := Part.checkSlot_passed (p := p.endBurst) ((Part.seg_pos h1).trans he) hl ((agrees hst).trans hg) hle
      (exits_iff.mp hx)
    exact reads h (passes.trans (Part.checkEnded_next ht _)) rfl (Part.passCheck_stays rfl (.inr (.inl (List.cons_ne_nil _ _))))
  · obtain ⟨-, -, -, -, h1, -, he, hst, hl⟩ := id h
    have passes := Part.checkSlot_passed (p := p.endBurst) ((Part.seg_pos h1).trans he) hl ((agrees hst).trans hg) hle
      (exits_iff.mp hx)
    exact reads h (passes.trans (Part.checkEnded_collects ht _ hne)) rfl (Part.passCheck_stays rfl (.inl (by simp)))
  · obtain ⟨-, hv, -, hphase, h1, -, he, hst, hl⟩ := id h
    have faults := (Part.checkSlot_mismatch (p := p.endBurst) ((Part.seg_pos h1).trans he) hl (fails hst hw)).trans
      (Part.checkMismatch_faults (p := p.endBurst) hst hc ht h1 he ho hv hphase)
    rw [← seq_eq]
    exact reads h faults (Part.faultFound_chan _ _ _ _ _)
      (Part.passCheck_stays (Part.faultFound_verifies _ _ _ _ _) (.inr (.inl (List.cons_ne_nil _ _))))
  · obtain ⟨-, -, -, -, h1, -, he, hst, hl⟩ := id h
    have notes := (Part.checkSlot_mismatch (p := p.endBurst) ((Part.seg_pos h1).trans he) hl (fails hst hw)).trans
      (Part.checkMismatch_faulted (p := p.endBurst) hst hc ht h1 he hf)
    exact reads h notes rfl (Part.passCheck_stays rfl (.inr (.inl (List.cons_ne_nil _ _))))
  · have row := State.partEvent_next (ready := fun _ => true) (f := Part.extractStep) hs rfl
    rwa [Part.extractStep_adds hv hp hsus hq hst hx hr] at row
  · have row := State.partEvent_next (ready := fun _ => true) (f := Part.extractStep) hs rfl
    rwa [Part.extractStep_completes hv hp hsus hq hst hx] at row

end Sys2Proof.Machine

/-! # Proofs: the LOCATE phase of a VERIFY (R165, R166, R167) -/

namespace Sys2Proof.Machine

/-! ## The walk takes a segment (R166; log 22) -/

section
variable {p : Part} {v : Verify} {number : BitVec 16} {n : Nat} {g : SegEntry}

/-- The DELIVERY stream's segment with the number is walked next. -/
theorem Part.walkTo_segment (hg : p.store.segs[n]? = some g) (h : g.readableAs .delivery number = true)
    (hbelow : (p.store.segs.take n).all (fun e => !e.readableAs .delivery number) = true) :
    p.walkTo v number = { p with verify := some { v with
      count := v.count + 1, locate := { v.locate with number := number, seg := n + 1, slot := none } } } := by
  unfold Part.walkTo
  rw [Part.streamSeg_lowest hg h hbelow]

theorem Part.walkTo_ends (h : p.store.segs.all (fun e => !e.readableAs .delivery number) = true) :
    p.walkTo v number = p.notFound v number := by
  unfold Part.walkTo
  rw [Part.streamSeg_none h]

end

section
variable {p : Part} {v : Verify} (hv : p.verify = some v) (hp : v.phase = .locate)
include hv hp

theorem Part.fixWalk_fixed (hc : v.count ≠ 0) (hs : v.locate.slot.isSome = true) (fuel : Nat) : p.fixWalk fuel = p := by
  cases fuel with
  | zero => rfl
  | succ fuel =>
    unfold Part.fixWalk
    rw [hv]
    dsimp only
    rw [if_neg (by simp [hp]), if_neg hc, if_pos hs]

/-- A segment's walk begins at its highest committed slot. -/
theorem Part.fixWalk_slot {e : SegEntry} {k : Nat} (hc : v.count ≠ 0) (hs : v.locate.slot = none) (he : p.seg v.locate.seg = some e)
    (hk : e.count = some k) (h1 : 1 ≤ k) (fuel : Nat) :
    p.fixWalk (fuel + 1) = { p with verify := some { v with locate := { v.locate with slot := some k } } } := by
  unfold Part.fixWalk
  rw [hv]
  dsimp only
  rw [if_neg (by simp [hp]), if_neg hc, if_neg (by simp [hs]), he]
  have limit : e.count.getD 0 = k := by rw [hk, Option.getD_some]
  simp only [limit]
  exact if_neg (by omega)

theorem Part.fixWalk_first (hc : v.count = 0) (fuel : Nat) :
    p.fixWalk (fuel + 1) = (p.walkTo v ((p.stream .delivery).nextSeq - 1)).fixWalk fuel := by
  rw [Part.fixWalk, hv]
  dsimp only
  rw [if_neg (by simp [hp]), if_pos hc]

end

/-- The grant of a burst of the LOCATE phase, with the slot it fixes. -/
theorem Part.grantPort_locates {p : Part} {v w : Verify} (hm : p.mayGrant = true) (hl : p.lowGrant = some .longOperation)
    (hv : p.verify = some v) (hs : v.suspended = false) (hw : w.phase = .locate)
    (hf : (p.giveBurst .longOperation).fixWalk 600 = { p.giveBurst .longOperation with verify := some w }) :
    p.grantPort = { p with arb := { p.arb with burst := some .longOperation, lastWasRead := false }, verify := some w } := by
  have running : (p.giveBurst .longOperation).verifyRunning = true :=
    (Part.verifyRunning_some (p := p.giveBurst .longOperation) hv).trans (by rw [hs]; rfl)
  rw [Part.grantPort_long hm hl]
  unfold Part.fixGrant
  rw [if_pos running, hf]
  dsimp only
  rw [hw]
  rfl

/-! ## The records it reads (R166, R167) -/

theorem isAcceptedLoad_iff (id : DWord) (ws : List Word) : isAcceptedLoad id ws = true ↔
    wordAt ws 0 = Kind.loadAck.headerWord ∧ dwordAt ws 1 = id ∧ wordAt ws 3 = 0 := by
  unfold isAcceptedLoad
  simp only [Bool.and_eq_true, beq_iff_eq, and_assoc]
  rfl

theorem isAcceptedProof_iff (id : DWord) (ws : List Word) : isAcceptedProof id ws = true ↔
    wordAt ws 0 = Kind.proof.headerWord ∧ dwordAt ws 1 = id ∧ (wordAt ws 4).toNat / 4096 ≤ 6 := by
  have verdict : (wordAt ws 4 >>> 12).toNat = (wordAt ws 4).toNat / 4096 := by
    rw [BitVec.toNat_ushiftRight, Nat.shiftRight_eq_div_pow]
  unfold isAcceptedProof
  rw [verdict]
  simp only [Bool.and_eq_true, beq_iff_eq, decide_eq_true_eq, and_assoc]

/-- The tallies take the PROOF read last, whose request this slot is (R167). -/
theorem Locate.settle_eq (x : Locate) (ws : List Word) : x.settle ws = match x.proof with
    | none => x
    | some (t, quantity) => { x with
        proof := none
        newest := if x.newest.isSome then x.newest else some (t, wordAt ws 0 == Kind.unload.headerWord)
        delivered := if wordAt ws 0 = Kind.delivery.headerWord ∧ (wordAt ws 9 = deliveryFull ∨ wordAt ws 9 = deliveryPartial) then
          x.delivered + quantity else x.delivered } := by
  unfold Locate.settle
  cases x.proof with
  | none => rfl
  | some y =>
    dsimp only
    simp only [Bool.and_eq_true, Bool.or_eq_true, beq_iff_eq]
    cases x.newest <;> rfl

theorem Locate.settle_number (x : Locate) (ws : List Word) : (x.settle ws).number = x.number := by
  unfold Locate.settle
  split <;> rfl

/-- The tallies and the PROOF that waits for its request, after a slot that is no accepted LOAD_ACK of the id. -/
def Locate.tally (x : Locate) (id : DWord) (ws : List Word) : Locate :=
  if isAcceptedProof id ws then { x.settle ws with proof := some (recordReceipt ws, (wordAt ws 5).toNat) } else x.settle ws

theorem Locate.tally_number (x : Locate) (id : DWord) (ws : List Word) : (x.tally id ws).number = x.number := by
  unfold Locate.tally
  split <;> exact x.settle_number ws

section
variable {p : Part} {v : Verify} {c : Claim} {id : DWord} {ws : List Word} {k : Nat} (hc : p.claims[v.claim]? = some c)
  (hid : c.id = some id) (hslot : v.locate.slot = some k)
include hc hid

theorem Part.locateSlot_accepted (ha : isAcceptedLoad id ws = true) :
    p.locateSlot v ws = p.located v (v.locate.settle ws) ws := by
  unfold Part.locateSlot
  dsimp only
  rw [Part.claim_of_getElem? hc, hid, Option.getD_some, if_pos ha]

include hslot

theorem Part.locateSlot_down (ha : isAcceptedLoad id ws = false) (hk : 2 ≤ k) : p.locateSlot v ws =
    { p with verify := some { v with locate := { v.locate.tally id ws with slot := some (k - 1) } } } := by
  obtain ⟨j, rfl⟩ := Nat.exists_eq_add_of_le' hk
  unfold Part.locateSlot
  dsimp only
  rw [Part.claim_of_getElem? hc, hid, Option.getD_some, if_neg (Bool.eq_false_iff.mp ha), hslot]
  rfl

/-- After slot 1 the segment numbered one below is walked. -/
theorem Part.locateSlot_last (ha : isAcceptedLoad id ws = false) (hk : k = 1) :
    p.locateSlot v ws = p.walkTo { v with locate := v.locate.tally id ws } (v.locate.number - 1) := by
  subst hk
  unfold Part.locateSlot
  dsimp only
  rw [Part.claim_of_getElem? hc, hid, Option.getD_some, if_neg (Bool.eq_false_iff.mp ha), hslot,
    ← Locate.tally_number v.locate id ws]
  rfl

end

/-! ## The ends of the walk (R166, R167) -/

/-- The WRITE phase begins with the claim as it was left. -/
theorem Part.beginWrite_set {p : Part} {v : Verify} {c : Claim} (hc : p.claims[v.claim]? = some c) (d : Claim)
    (proofs : List ProofFinding) : Part.beginWrite v proofs { p with claims := p.claims.set v.claim d } = { p with
      verify := some { v with phase := .write, count := 0, extracts := extractsOf v.claim d proofs }
      claims := p.claims.set v.claim d } := by
  have claimed : Part.claim { p with claims := p.claims.set v.claim d } v.claim = d :=
    Part.claim_of_getElem? (List.getElem?_set_self (List.getElem?_eq_some_iff.mp hc).1)
  unfold Part.beginWrite
  rw [claimed]

theorem bit_false (n : Nat) : bit false n = 0#16 := rfl

/-- The extract of a claim of which nothing is known but its id (R174). -/
theorem extractsOf_notFound {c : Claim} {id : DWord} (hc : c = { Claim.free with state := .verifying, id := some id }) (i : Nat)
    (retired : Bool) : extractsOf i { c with integrity := some .notFound, retiredRange := retired } [] =
      [(.extractSummary, [wordOf i ||| (15 : Word) <<< 3 ||| (3 : Word) <<< 7 ||| bit retired 10 ||| (7 : Word) <<< 13]
        ++ dwords id ++ [blank, blank, blank, blank, blank, blank, 0, 0])] := by
  have counts : wordOf (satAt 2047 0) ||| wordOf 0 <<< 11 = 0 := by decide
  subst hc
  unfold extractsOf summaryBody
  simp only [Claim.free, bit_false, BitVec.or_zero, Option.getD_none, counts]
  rfl

theorem Part.notFound_eq {p : Part} {v : Verify} {c : Claim} {id : DWord} (hc : p.claims[v.claim]? = some c)
    (hfree : c = { Claim.free with state := .verifying, id := some id }) (number : BitVec 16) :
    p.notFound v number = { p with
      verify := some { v with
        phase := .write, count := 0
        extracts := [(.extractSummary,
          [wordOf v.claim ||| (15 : Word) <<< 3 ||| (3 : Word) <<< 7 ||| bit (number != 0) 10 ||| (7 : Word) <<< 13]
            ++ dwords id ++ [blank, blank, blank, blank, blank, blank, 0, 0])] }
      claims := p.claims.set v.claim { c with integrity := some .notFound, retiredRange := number != 0 } } := by
  have unretired : (c.retiredRange || number != 0) = (number != 0) := by
    subst hfree
    rfl
  unfold Part.notFound
  rw [Part.modClaim_eq_set hc, unretired, Part.beginWrite_set hc, extractsOf_notFound hfree]

/-- Compartment and window of the accepted LOAD_ACK, and the HOLD phase. -/
theorem Part.located_eq {p : Part} {v : Verify} {c : Claim} (hc : p.claims[v.claim]? = some c) (x : Locate) (ws : List Word) :
    p.located v x ws = Part.holdPhase { v with locate := x } { p with claims := p.claims.set v.claim { c with
      comp := some (wordAt ws 5).toNat, windowStart := some (recordReceipt ws)
      windowEnd := some (match x.newest with
        | some (t, unload) => if unload = true ∨ (wordAt ws 8).toNat ≤ x.delivered then t else p.clock.now
        | none => p.clock.now) } } := by
  unfold Part.located
  dsimp only
  rw [Part.modClaim_eq_set hc]
  cases x.newest with
  | none => rfl
  | some y => simp only [Bool.or_eq_true, decide_eq_true_eq]

/-- Settles O51: the grants of the walk, its steps downward, and its two ends. -/
theorem verifyLocatesTheConsignment : Obligations.VerifyLocatesTheConsignment := by
  intro v c cid k m g s hs hrun p x i read at_ long y proves z accepted such owned fresh walks unfound begins granted newest after
  have word {j : Nat} (hj : j < 16) : at_ j = wordAt (s.mem.slot x.seg k) j := Memory.getD_slot hj s.mem x.seg k
  have long_eq {j : Nat} (hj : j < 15) : long j = num32At (s.mem.slot x.seg k) j := Memory.getD_slot_num hj s.mem x.seg k
  have proves_iff : isAcceptedProof cid (s.mem.slot x.seg k) = true ↔ proves := by
    rw [isAcceptedProof_iff]
    simp only [proves, word (by decide : 0 < 16), word (by decide : 4 < 16), long_eq (by decide : 1 < 15)]
    rfl
  have accepted_iff : isAcceptedLoad cid (s.mem.slot x.seg k) = true ↔ accepted := by
    rw [isAcceptedLoad_iff]
    simp only [accepted, word (by decide : 0 < 16), word (by decide : 3 < 16), long_eq (by decide : 1 < 15)]
    rfl
  have settled : x.settle (s.mem.slot x.seg k) = y := by
    rw [Locate.settle_eq]
    simp only [y, word (by decide : 0 < 16), word (by decide : 9 < 16)] <;> rfl
  have tallied : x.tally cid (s.mem.slot x.seg k) = z := by
    unfold Locate.tally
    rw [settled]
    simp only [z, word (by decide : 5 < 16), long_eq (by decide : 12 < 15), ← proves_iff]
    rfl
  have readable (number : BitVec 16) : such number = SegEntry.readableAs .delivery number := funext fun e => by
    unfold SegEntry.readableAs
    rw [SegState.readable_eq]
  have below {number : BitVec 16} (h : (p.store.segs.take (m - 1)).all (fun e => !such number e) = true) :
      (p.store.segs.take (m - 1)).all (fun e => !e.readableAs .delivery number) = true := readable number ▸ h
  have grants {w : Verify} (h : begins) (hw : w.phase = .locate)
      (hf : (p.giveBurst .longOperation).fixWalk 600 = { p.giveBurst .longOperation with verify := some w }) :
      p.grantPort = granted w := by
    obtain ⟨hb, h2, hl, hv, hsus, -⟩ := h
    exact Part.grantPort_locates (Part.mayGrant_of hs.1 hb h2) hl hv hsus hw hf
  have reads {q : Part} (h : walks) (hq : after.locateSlot v (s.mem.slot x.seg k) = q) (hc : q.chan = p.chan) :
      exec .verifyBurst s = .next { s with part := q.passCheck.grantPort } := by
    obtain ⟨hb, hv, hsus, hphase, -, hslot, -⟩ := h
    have slot : p.endBurst.verifySlot v (s.mem.slot x.seg k) = q := by
      unfold Part.verifySlot
      rw [hphase]
      exact hq
    exact State.verify_next hs hrun hb hv hsus (n := x.seg) (k := k) (by simp [Verify.readAt, hphase, x, hslot]) slot hc
  have goes {q : Part} {w : Verify} (h : walks) (hq : after.locateSlot v (s.mem.slot x.seg k) = q) (hc : q.chan = p.chan)
      (hw : q.verify = some w) (hp : w.phase ≠ .check) : exec .verifyBurst s = .next { s with part := q.grantPort } := by
    rw [reads h hq hc, Part.passCheck_stays hw (.inl hp)]
  have missed (h : ¬accepted) : isAcceptedLoad cid (s.mem.slot x.seg k) = false := Bool.eq_false_iff.mpr (mt accepted_iff.mp h)
  have named (h : fresh) : c.id = some cid := by
    rw [h.2]
  refine ⟨fun h hcount ⟨hm, hg, hsuch, hbelow⟩ hgk hk => ?_, fun h hcount hslot hm hg hseg hgk hk => ?_, fun h ha hk => ?_,
    fun h ha hk ⟨hm, hg, hsuch, hbelow⟩ => ?_, fun h ha hk hnone => ?_, fun h ha => ?_⟩
  · obtain ⟨n, rfl⟩ := Nat.exists_eq_add_one.mpr hm
    obtain ⟨-, -, -, hv, -, hphase⟩ := id h
    let w : Verify := { v with count := v.count + 1, locate := { x with number := newest, seg := n + 1, slot := none } }
    have takes : (p.giveBurst .longOperation).walkTo v newest = { p.giveBurst .longOperation with verify := some w } :=
      Part.walkTo_segment hg ((congrFun (readable newest) g).symm.trans hsuch) (below hbelow)
    let q : Part := { p.giveBurst .longOperation with verify := some w }
    have walked : (p.giveBurst .longOperation).fixWalk 600 = _ :=
      (Part.fixWalk_first (p := p.giveBurst .longOperation) hv hphase hcount 599).trans
      ((congrArg (Part.fixWalk 599) takes).trans
        (Part.fixWalk_slot (p := q) (v := w) rfl hphase (Nat.succ_ne_zero _) rfl hg hgk hk 598))
    exact grants h hphase (walked.trans (by simp only [q, w, hcount]))
  · obtain ⟨-, -, -, hv, -, hphase⟩ := id h
    have entry : p.seg x.seg = some g := by rw [hseg, Part.seg_pos hm, hg]
    exact grants h hphase (Part.fixWalk_slot (p := p.giveBurst .longOperation) hv hphase hcount hslot entry hgk hk 599)
  · obtain ⟨-, -, -, hphase, -, hslot, -, -, hc⟩ := id h
    have slotRead := Part.locateSlot_down (p := after) hc.1 (named hc) hslot (missed ha) hk
    rw [tallied] at slotRead
    exact goes h slotRead rfl rfl (by rw [hphase]; decide)
  · obtain ⟨n, rfl⟩ := Nat.exists_eq_add_one.mpr hm
    obtain ⟨-, -, -, hphase, -, hslot, -, -, hc⟩ := id h
    have slotRead := (Part.locateSlot_last (p := after) hc.1 (named hc) hslot (missed ha) hk).trans
      (Part.walkTo_segment hg ((congrFun (readable _) g).symm.trans hsuch) (below hbelow))
    rw [tallied] at slotRead
    exact goes h slotRead rfl rfl (by rw [hphase]; decide)
  · obtain ⟨-, -, -, hphase, -, hslot, -, -, hc⟩ := id h
    have unowned : p.store.segs.all (fun e => !e.readableAs .delivery (x.number - 1)) = true := readable _ ▸ hnone
    have slotRead := (Part.locateSlot_last (p := after) hc.1 (named hc) hslot (missed ha) hk).trans
      ((Part.walkTo_ends (p := after) unowned).trans
        (Part.notFound_eq (p := after) (v := { v with locate := x.tally cid _ }) hc.1 hc.2 _))
    rw [tallied] at slotRead
    exact goes h slotRead rfl rfl (by simp)
  · obtain ⟨-, -, -, -, -, -, -, -, hc⟩ := id h
    have finds := (Part.locateSlot_accepted (p := after) hc.1 (named hc) (accepted_iff.mpr ha)).trans
      (Part.located_eq (p := after) hc.1 _ _)
    rw [settled] at finds
    have found := reads h finds (Part.holdPhase_holdKept _ _).chan
    simp only [word (by decide : 5 < 16), word (by decide : 8 < 16), long_eq (by decide : 12 < 15)]
    exact found

end Sys2Proof.Machine

/-! # Proofs: the HOLD phase and the cover test of a VERIFY (R168, R169, R170) -/

namespace Sys2Proof.Machine

/-! ## One segment (R168, R169) -/

theorem Part.unbatch_other {p : Part} (h : p.retire.state ≠ .collecting) (n : Nat) : p.unbatch n = p := by
  unfold Part.unbatch
  split
  next hr _ => exact absurd hr h
  next => rfl

/-- A COLLECTING batch gives the segment up, and is discarded when it held nothing else. -/
theorem Part.unbatch_collecting {p : Part} {b : Batch} (hr : p.retire.state = .collecting) (hb : p.retire.batch = some b)
    (n : Nat) : p.unbatch n = { p with
      retire := if b.segs.all (fun m => m == n) then { p.retire with state := .empty, batch := none }
        else { p.retire with batch := some { b with segs := b.segs.filter (fun m => m != n) } } } := by
  have emptied : (b.segs.filter (· != n)).isEmpty = b.segs.all (fun m => m == n) := by
    rw [Bool.eq_iff_iff, List.isEmpty_iff, List.filter_eq_nil_iff, List.all_eq_true]
    simp
  unfold Part.unbatch
  rw [hr, hb]
  dsimp only
  rw [emptied]
  split <;> rfl

/-- A segment taken out of the batch concerns the retire slot alone. -/
theorem Part.unbatch_withClaims (n : Nat) (claims : List Claim) (p : Part) :
    { p.unbatch n with claims := claims } = Part.unbatch n { p with claims := claims } := by
  unfold Part.unbatch
  dsimp only
  split
  · split <;> rfl
  · rfl

/-- What a claim does with one segment, in the order of R168 and R169. -/
theorem Part.considerHold_eq {p : Part} {i n : Nat} {c : Claim} {e : SegEntry} (lo hi : Nat) (hc : p.claims[i]? = some c)
    (h1 : 1 ≤ n) (he : p.store.segs[n - 1]? = some e) : p.considerHold i lo hi n =
      if !(e.isEvidence && e.overlaps lo hi) then p
      else if !e.state.readable then { p with claims := p.claims.set i { c with retiredRange := true } }
      else if c.listTruncated then p
      else if p.committedToBlanking n then { p with claims := p.claims.set i { c with retiredRange := true } }
      else if 64 ≤ c.held.length then { p with claims := p.claims.set i { c with listTruncated := true } }
      else Part.unbatch n { p with
        claims := p.claims.set i { c with held := c.held ++ [n] }
        store := { p.store with segs := p.store.segs.set (n - 1) { e with holds := e.holds + 1 } } } := by
  let q : Part := { p with store := { p.store with segs := p.store.segs.set (n - 1) { e with holds := e.holds + 1 } } }
  have counted : p.modSeg n (fun e => { e with holds := e.holds + 1 }) = q := by
    rw [Part.modSeg_pos h1, modify_eq_set_getD _ _ _ e, List.getD_eq_getElem?_getD, he]
    rfl
  have claims : (q.unbatch n).claims = p.claims := by
    unfold Part.unbatch
    dsimp only
    split
    · split <;> rfl
    · rfl
  have held : (q.unbatch n).modClaim i (fun c => { c with held := c.held ++ [n] })
      = Part.unbatch n { q with claims := p.claims.set i { c with held := c.held ++ [n] } } := by
    rw [Part.modClaim_eq_set (claims ▸ hc), claims]
    exact Part.unbatch_withClaims n _ q
  unfold Part.considerHold
  rw [Part.seg_pos h1, he]
  simp only [Part.claim_of_getElem? hc, Part.modClaim_eq_set hc, counted, held]
  rfl

/-! ## The cover of a stream (R170) -/

/-- The segment's number follows that of one of the held segments. -/
def SegEntry.follows (own : List SegEntry) (e : SegEntry) : Bool := own.any (fun f => f.segSeq.map (· + 1) == e.segSeq)

/-- The first held segment of a stream reaches the window's start. -/
def Part.reachesStart (p : Part) (st : Stream) (lo : Nat) (e : SegEntry) : Bool :=
  (match e.openTime with | some t => decide (t ≤ lo) | none => false)
    || e.segSeq == some 1
    || p.store.segs.any (fun f =>
        f.stream == some st && f.state.readable && f.segSeq.map (· + 1) == e.segSeq
          && (match f.closeTime with | some t => decide (t < lo) | none => false))

/-- The cover by a stream's held segments, of which `firsts` follow none. -/
def Part.coverOf (p : Part) (st : Stream) (lo : Nat) : List SegEntry → List SegEntry → Bool
  | [], _ => true
  | _, [e] => p.reachesStart st lo e
  | _, _ => false

theorem Part.coverOf_break {p : Part} {st : Stream} {lo : Nat} {own firsts : List SegEntry} (h : own ≠ [])
    (h2 : 2 ≤ firsts.length) :
    p.coverOf st lo own firsts = false := by
  unfold Part.coverOf
  split
  next => exact absurd rfl h
  next => simp at h2
  next => rfl

theorem SegEntry.firsts_eq {own a d : List SegEntry} {g : SegEntry} (h : own = a ++ g :: d) (hg : g.follows own = false) :
    own.filter (fun e => !e.follows own) = a.filter (fun e => !e.follows own) ++ g :: d.filter (fun e => !e.follows own) := by
  conv_lhs => rw [h, List.filter_append, ← h, List.filter_cons_of_pos (by simp [hg])]

section
variable {p : Part} {st : Stream} {held : List Nat} {own a d : List SegEntry} {g : SegEntry} (lo : Nat)
  (ho : (held.filterMap p.seg).filter (fun e => e.stream == some st) = own)
include ho

theorem Part.covered_eq : p.covered st held lo = p.coverOf st lo own (own.filter (fun e => !e.follows own)) := by
  subst ho
  rfl

theorem Part.covered_none (h : own = []) : p.covered st held lo = true := by
  rw [Part.covered_eq lo ho, h]
  rfl

variable (h : own = a ++ g :: d) (hg : g.follows own = false)
include h hg

/-- The held segments follow one another from one first segment on. -/
theorem Part.covered_run (hrest : (a ++ d).all (SegEntry.follows own) = true) :
    p.covered st held lo = p.reachesStart st lo g := by
  have nothing (l : List SegEntry) (hl : ∀ e ∈ l, e ∈ a ++ d) : l.filter (fun e => !e.follows own) = [] :=
    List.filter_eq_nil_iff.mpr fun e he => by simp [List.all_eq_true.mp hrest e (hl e he)]
  have firsts : own.filter (fun e => !e.follows own) = [g] := by
    rw [SegEntry.firsts_eq h hg, nothing a fun e => List.mem_append_left d, nothing d fun e => List.mem_append_right a]
    rfl
  rw [Part.covered_eq lo ho, firsts]
  cases own with
  | nil => simp at h
  | cons f l => rfl

/-- A held segment with none before it, after another such, is a break. -/
theorem Part.covered_break (hd : d.any (fun e => !e.follows own) = true) : p.covered st held lo = false := by
  obtain ⟨f, hf, hn⟩ := List.any_eq_true.mp hd
  have another : 0 < (d.filter (fun e => !e.follows own)).length := List.length_pos_of_mem (List.mem_filter.mpr ⟨hf, hn⟩)
  rw [Part.covered_eq lo ho, SegEntry.firsts_eq h hg]
  refine Part.coverOf_break (by simp [h]) ?_
  rw [List.length_append, List.length_cons]
  omega

end

/-! ## The whole HOLD phase -/

theorem Part.recordSegs_eq (p : Part) : p.recordSegs = List.range' 1 p.store.segs.length := by
  rw [List.range'_eq_map_range]
  exact List.map_congr_left fun n _ => Nat.add_comm n 1

/-- Every segment in turn, then the cover of the three streams, then the CHECK phase. -/
theorem Part.holdPhase_eq {p q : Part} {v : Verify} {c : Claim} (hc : p.claims[v.claim]? = some c)
    (hq : q = (List.range' 1 p.store.segs.length).foldl
      (Part.considerHold v.claim (c.windowStart.getD 0) (c.windowEnd.getD 0)) p) :
    p.holdPhase v = { q with
      verify := some { v with
        phase := .check, count := 0, todo := (q.claim v.claim).held, checked := []
        check := .start ((q.claim v.claim).held.headD 0) }
      claims := if [Stream.sample, .event, .delivery].all
            (fun st => q.covered st (q.claim v.claim).held (c.windowStart.getD 0)) then q.claims
        else q.claims.modify v.claim (fun c => { c with retiredRange := true }) } := by
  unfold Part.holdPhase
  simp only [Part.claim_of_getElem? hc, Part.recordSegs_eq, ← hq]
  split <;> rfl

end Sys2Proof.Machine

/-! # Proofs: the COLLECT phase of a VERIFY and its findings (R173, R174) -/

namespace Sys2Proof.Machine

/-! ## One record (R173; log 23) -/

theorem Kind.ofHeader_iff (w : Word) (k : Kind) : Kind.ofHeader w = some k ↔ w = k.headerWord :=
  ⟨Kind.headerWord_of_ofHeader, fun h => h ▸ Kind.ofHeader_headerWord k⟩

/-- What a record adds to the findings, by its stream and its kind. -/
theorem Collect.take_eq (x : Collect) (st : Stream) (seq id : DWord) (comp lo hi : Nat) (ws : List Word) :
    let is (s : Stream) (k : Kind) := st = s ∧ wordAt ws 0 = k.headerWord
    let inside := lo ≤ recordReceipt ws ∧ recordReceipt ws ≤ hi
    let own := (wordAt ws 1).toNat = comp
    x.take st seq id comp lo hi ws =
      if is .sample .sample ∧ inside ∧ (wordAt ws 3).toNat = comp then { x with samples := sat16 (x.samples + 1) }
      else if is .event .gapEnd ∧ own then { x with
        lastEnd := laterSeq x.lastEnd seq
        gapSecs := x.gapSecs + if inside then clip lo hi (num32At ws 2) (num32At ws 4) else 0 }
      else if is .event .gapStart ∧ own ∧ inside then { x with starts := x.starts ++ [(seq, num32At ws 4)] }
      else if is .event .outage ∧ inside ∧ comp < 8 ∧ (wordAt ws 8).getLsbD comp = true then
        { x with gapSecs := x.gapSecs + min (num32At ws 5) (clip lo hi (num32At ws 1) (num32At ws 3)) }
      else if is .delivery .proof ∧ inside ∧ dwordAt ws 1 = id then
        x.addProof { seq := seq, receipt := recordReceipt ws, stop := wordAt ws 3, word4 := wordAt ws 4 }
      else x := by
  intro is inside own
  simp only [is, ← Kind.ofHeader_iff]
  unfold Collect.take outageHas
  dsimp only
  split
  case h_1 hk => simp [hk, inside]
  case h_2 hk => simp [hk, own, inside, add_ite]
  case h_3 hk => simp [hk, own, inside]
  case h_4 hk => simp [hk, inside]
  case h_5 hk => simp [hk, inside]
  case h_6 h1 h2 h3 h4 h5 =>
    have no {t : Stream} (s : Stream) (k : Kind) (h : t = s → Kind.ofHeader (wordAt ws 0) = some k → False) (q : Prop) :
        ¬((t = s ∧ Kind.ofHeader (wordAt ws 0) = some k) ∧ q) := fun ⟨⟨hs, hk⟩, _⟩ => h hs hk
    rw [if_neg (no _ _ h1 _), if_neg (no _ _ h2 _), if_neg (no _ _ h3 _), if_neg (no _ _ h4 _), if_neg (no _ _ h5 _)]

theorem Collect.take_todo (x : Collect) (st : Stream) (seq id : DWord) (comp lo hi : Nat) (ws : List Word) :
    (x.take st seq id comp lo hi ws).todo = x.todo := by
  rw [Collect.take_eq]
  repeat' split
  all_goals rfl

theorem SegEntry.seqOf_record {e : SegEntry} (he : e.firstRec ≠ none) {k : Nat} (hk : 1 ≤ k) :
    (e.seqOf k).getD 0 = e.firstRec.getD 0 + BitVec.ofNat 32 (k - 1) := by
  obtain ⟨r, hr⟩ := Option.ne_none_iff_exists'.mp he
  unfold SegEntry.seqOf
  rw [if_neg (by omega), hr]
  rfl

/-! ## One slot, and the end of the phase -/

/-- The position after a slot: the next slot of the segment, or slot 1 of the next. -/
def Collect.moved (x : Collect) (slot last : Nat) (rest : List (Nat × Nat)) : Collect :=
  if slot < last then { x with slot := slot + 1 } else { x with todo := rest, slot := 1 }

/-- The findings after slot `k` of segment `n`, whose entry is `e`, with its words (R173). -/
def Collect.took (x : Collect) (c : Claim) (e : SegEntry) (ws : List Word) : Collect :=
  x.take (e.stream.getD .claim) ((e.seqOf x.slot).getD 0) (c.id.getD 0) (c.comp.getD 0) (c.windowStart.getD 0)
    (c.windowEnd.getD 0) ws

/-- The claim with the findings fixed (R173). -/
def Claim.fixed (c : Claim) (x : Collect) (g : Integrity) : Claim := { c.gathered x with integrity := some g }

/-- Where no slot was read, every count is 0. -/
theorem Claim.fixed_start (c : Claim) (g : Integrity) : c.fixed Collect.start g = { c with
    samples := some 0, proofs := some 0, proofsOver := false, gapMinutes := some 0, integrity := some g } := by
  have no_gap : Collect.start.gapSecs + Collect.start.openSecs (c.windowStart.getD 0) (c.windowEnd.getD 0) = 0 := rfl
  have no_minute : minutes 0 = 0 := by decide
  unfold Claim.fixed Claim.gathered
  rw [no_gap, no_minute]
  rfl

theorem Verify.readAt_collect {v : Verify} {n last : Nat} {rest : List (Nat × Nat)} (hp : v.phase = .collect)
    (ht : v.collect.todo = (n, last) :: rest) : v.readAt = (n, v.collect.slot) := by
  unfold Verify.readAt
  rw [hp, ht]
  rfl

theorem Part.integrityOf_eq (p : Part) (c : Claim) : p.integrityOf c =
    if c.mismatch.isSome = true
      ∨ c.held.any (fun m => match p.seg m with | some f => f.state == .faulted | none => false) = true then .damaged
    else if c.retiredRange = true ∨ c.listTruncated = true then .incomplete
    else .intact := by
  unfold Part.integrityOf
  simp only [Bool.or_eq_true] <;> rfl

section
variable {p : Part} {v : Verify} {c : Claim} (hc : p.claims[v.claim]? = some c)
include hc

theorem Part.fixFindings_eq : p.fixFindings v = { p with
    verify := some { v with
      phase := .write, count := 0
      extracts := extractsOf v.claim (c.fixed v.collect (p.integrityOf c)) v.collect.proofs }
    claims := p.claims.set v.claim (c.fixed v.collect (p.integrityOf c)) } := by
  unfold Part.fixFindings
  rw [Part.modClaim_eq_set hc]
  exact Part.beginWrite_set hc _ _

theorem Part.collectSlot_eq {n last : Nat} {rest : List (Nat × Nat)} {e : SegEntry} (ht : v.collect.todo = (n, last) :: rest)
    (he : p.seg n = some e) (ws : List Word) : p.collectSlot v ws = p.collectNext { v with
      count := v.count + 1, collect := (v.collect.took c e ws).moved v.collect.slot last rest } := by
  unfold Part.collectSlot
  rw [ht]
  dsimp only
  rw [Part.claim_of_getElem? hc, he]
  rfl

end

theorem Part.collectNext_ends {p : Part} {v : Verify} (h : v.collect.todo = []) : p.collectNext v = p.fixFindings v := by
  unfold Part.collectNext
  rw [h]

/-- A COLLECT phase with nothing to read ends as it begins (log 54). -/
theorem Part.passCheck_empty {p : Part} {v : Verify} {c : Claim} (hv : p.verify = some v) (hp : v.phase = .check)
    (ht : v.todo = []) (hs : v.suspended = false) (hch : v.checked = []) (hc : p.claims[v.claim]? = some c) :
    p.passCheck = { p with
      verify := some { v with
        phase := .write, count := 0, collect := Collect.start
        extracts := extractsOf v.claim (c.fixed Collect.start (p.integrityOf c)) [] }
      claims := p.claims.set v.claim (c.fixed Collect.start (p.integrityOf c)) } := by
  let w : Verify := { v with phase := .collect, count := 0, collect := Collect.start }
  have begins : p.passCheck = p.beginCollect v := by
    unfold Part.passCheck
    rw [hv]
    exact if_pos ⟨hp, ht, by simp [hs]⟩
  have nothing : v.checked.filter (fun c => c.2 != 0) = [] := by
    rw [hch]
    rfl
  have reads : p.beginCollect v = p.collectNext w := by
    unfold Part.beginCollect
    rw [nothing]
    rfl
  rw [begins, reads, Part.collectNext_ends rfl]
  exact Part.fixFindings_eq (v := w) hc

/-! ## The extract (R174) -/

theorem Claim.fixed_eq (c : Claim) (x : Collect) (g : Integrity) : c.fixed x g = { c with
    samples := some x.samples, proofs := some x.proofs.length, proofsOver := x.more
    gapMinutes := some (min 65535 ((x.gapSecs + x.openSecs (c.windowStart.getD 0) (c.windowEnd.getD 0)) / 60))
    integrity := some g } := by
  rw [← sat16_eq_min]
  rfl

/-- The summary and the proofs of a claim whose findings are fixed. -/
theorem extractsOf_fixed (i : Nat) (c : Claim) (x : Collect) (g : Integrity) :
    let gap := min 65535 ((x.gapSecs + x.openSecs (c.windowStart.getD 0) (c.windowEnd.getD 0)) / 60)
    extractsOf i (c.fixed x g) x.proofs = (.extractSummary,
      [wordOf i ||| wordOf (c.comp.getD 15 % 16) <<< 3 ||| g.code <<< 7 ||| bit c.retiredRange 10 ||| bit c.listTruncated 11
          ||| bit x.more 12 ||| ((match c.mismatch with | some m => m.stream.code | none => 7) : Word) <<< 13]
        ++ dwords? c.id ++ words32? c.windowStart ++ words32? c.windowEnd
        ++ (match c.mismatch with | some m => dwords? m.seq | none => [blank, blank])
        ++ [wordOf (min 2047 x.samples) ||| wordOf x.proofs.length <<< 11, wordOf gap])
      :: x.proofs.mapIdx (fun j f => (.extractProof,
        [wordOf (i % 256 + 256 * ((j + 1) % 256))] ++ dwords f.seq ++ words32 f.receipt ++ [f.stop, f.word4])) := by
  intro gap
  have stream : (c.mismatch.map (fun m => m.stream.code)).getD 7 =
      match c.mismatch with | some m => m.stream.code | none => 7 := by
    cases c.mismatch <;> rfl
  have record : dwords? (c.mismatch.bind (fun m => m.seq)) =
      match c.mismatch with | some m => dwords? m.seq | none => [blank, blank] := by
    cases c.mismatch <;> rfl
  rw [Claim.fixed_eq]
  unfold extractsOf summaryBody
  dsimp only
  rw [stream, record, satAt, Option.getD_some, Option.getD_some, Option.getD_some, Option.getD_some, Nat.min_comm 2047]
  rfl

/-- Settles O52: the HOLD phase by the branches of `considerHold`, the cover by the held segments that follow none, and the COLLECT
phase by what one slot adds (`took_eq`), after which the phase goes on, or its findings are fixed and the extract is written. -/
theorem verifyHoldsAndCollects : Obligations.VerifyHoldsAndCollects := by
  intro i lo hi n k last c e g b st v a d todo s hs hrun hc h1 he p claimed overlaps readable committed segs held holds own
    follows reaches
  have considers := Part.considerHold_eq lo hi hc h1 he
  have overlaps_eq : (e.isEvidence && e.overlaps lo hi) = overlaps := (Bool.and_assoc _ _ _).symm
  have readable_eq : e.state.readable = readable := SegState.readable_eq _
  have committed_eq : Part.committedToBlanking n s.part = committed := rfl
  rw [overlaps_eq, readable_eq, committed_eq] at considers
  have reaches_eq : p.reachesStart st lo g = reaches := by
    unfold Part.reachesStart
    simp only [SegState.readable_eq]
    rfl
  refine ⟨fun ho => ?_, fun ho hr => ?_, fun ho hr ht => ?_, fun ho hr ht hcm => ?_, fun ho hr ht hcm h64 => ?_,
    fun ⟨ho, hr, ht, hcm, h63⟩ hrs => ?_, fun ⟨ho, hr, ht, hcm, h63⟩ hrs hb => ?_,
    Part.covered_none lo rfl, fun h hg hrest => ?_, fun h hg hd => Part.covered_break lo rfl h hg hd, fun hv => ?_,
    fun hv h => Part.passCheck_stays hv h, fun hv hp ht hsus hch hi => ?_, ?_⟩
  · rw [considers, if_pos (by simp [ho])]
  · rw [considers, if_neg (by simp [ho]), if_pos (by simp [hr])]
  · rw [considers, if_neg (by simp [ho]), if_neg (by simp [hr]), if_pos ht]
  · rw [considers, if_neg (by simp [ho]), if_neg (by simp [hr]), if_neg (by simp [ht]), if_pos hcm]
  · rw [considers, if_neg (by simp [ho]), if_neg (by simp [hr]), if_neg (by simp [ht]), if_neg (by simp [hcm]), if_pos h64]
  · rw [considers, if_neg (by simp [ho]), if_neg (by simp [hr]), if_neg (by simp [ht]), if_neg (by simp [hcm]),
      if_neg (by omega)]
    exact Part.unbatch_other (p := held) hrs n
  · rw [considers, if_neg (by simp [ho]), if_neg (by simp [hr]), if_neg (by simp [ht]), if_neg (by simp [hcm]),
      if_neg (by omega)]
    exact Part.unbatch_collecting (p := held) hrs hb n
  · exact (Part.covered_run lo rfl h hg hrest).trans reaches_eq
  · refine ⟨_, rfl, fun w ms hms hw => ?_⟩
    subst hv hms hw
    exact Part.holdPhase_eq hc rfl
  · subst hi
    have passes := Part.passCheck_empty hv hp ht hsus hch hc
    rw [Claim.fixed_start] at passes
    exact ⟨_, p.integrityOf c, passes, rfl, rfl, rfl, hsus, rfl, Part.integrityOf_eq p c⟩
  · intro x read at_ long start stop comp inside seq clipped is own proof proofs y z collects open_ gap integrity after
    have word {j : Nat} (hj : j < 16) : at_ j = wordAt (s.mem.slot n k) j := Memory.getD_slot hj s.mem n k
    have long_eq {j : Nat} (hj : j < 15) : long j = num32At (s.mem.slot n k) j := Memory.getD_slot_num hj s.mem n k
    have took_eq (h : collects) : x.took c e (s.mem.slot n k) = y := by
      obtain ⟨-, -, -, -, -, hid, -, hslot, h1k, hfirst, hst⟩ := h
      obtain ⟨s0, hs0⟩ := Option.ne_none_iff_exists'.mp hst
      obtain ⟨cid, hcid⟩ := Option.ne_none_iff_exists'.mp hid
      unfold Collect.took
      rw [hslot, SegEntry.seqOf_record hfirst h1k, Collect.take_eq]
      simp only [y, is, inside, own, clipped, Nat.reduceLT, word, long_eq, hs0, hcid, Option.getD_some, Option.some_inj,
        sat16_eq_min] <;> rfl
    have moved_eq (h : collects) : (x.took c e (s.mem.slot n k)).moved x.slot last todo = z := by
      rw [took_eq h]
      obtain ⟨-, -, -, -, -, -, -, hslot, -⟩ := h
      rw [hslot]
      rfl
    have he' : after.seg n = some e := (Part.seg_pos h1).trans he
    have reads {q : Part} {w : Verify} (h : collects)
        (hq : after.collectNext { v with count := v.count + 1, collect := z } = q) (hch : q.chan = p.chan)
        (hw : q.verify = some w) (hp : w.phase ≠ .check) : exec .verifyBurst s = .next { s with part := q.grantPort } := by
      have moved := moved_eq h
      obtain ⟨hb, hv, hsus, hphase, hi, -, ht, hslot, -⟩ := h
      have slot : p.endBurst.verifySlot v (s.mem.slot n k) = q := by
        unfold Part.verifySlot
        rw [hphase]
        refine (Part.collectSlot_eq (p := after) (hi ▸ hc) ht he' _).trans ?_
        rw [moved, hq]
      have row := State.verify_next hs hrun hb hv hsus (hslot ▸ Verify.readAt_collect hphase ht) slot hch
      rwa [Part.passCheck_stays hw (.inl hp)] at row
    have todo_eq (h : collects) : z.todo = if k < last then (n, last) :: todo else todo := by
      rw [← moved_eq h]
      obtain ⟨-, -, -, -, -, -, ht, hslot, -⟩ := h
      rw [hslot, ← ht]
      unfold Collect.moved
      split
      · exact Collect.take_todo ..
      · rfl
    refine ⟨fun h hgo => ?_, fun h hlast htodo => ?_⟩
    · have more : z.todo ≠ [] := by
        rw [todo_eq h]
        split
        · exact List.cons_ne_nil _ _
        · next hk => exact hgo.resolve_left hk
      have hphase : v.phase = .collect := h.2.2.2.1
      exact reads h (Part.collectNext_reads more) rfl rfl (by simp [hphase])
    · have ends : z.todo = [] := by rw [todo_eq h, if_neg (by omega), htodo]
      have hi : v.claim = i := h.2.2.2.2.1
      subst hi
      have fixed := (Part.collectNext_ends (v := { v with count := v.count + 1, collect := z }) ends).trans
        (Part.fixFindings_eq (p := after) (v := { v with count := v.count + 1, collect := z }) hc)
      have judged : after.integrityOf c = integrity := Part.integrityOf_eq after c
      have written := Claim.fixed_eq c z integrity
      have summary := extractsOf_fixed v.claim c z integrity
      dsimp only at fixed
      rw [judged, summary, written] at fixed
      exact reads h fixed rfl rfl (by simp)

end Sys2Proof.Machine
